-- ==== Sys2Proof/Word.lean ====
section
/-! DEFINITION. The word types. A register, an address being computed and an encoded field are bit vectors; memory
keys, identifiers, counts and sizes are natural numbers. -/

namespace Sys2Proof

/-- One byte. -/
abbrev Byte := BitVec 8

/-- A 64-bit word: a scalar register, an argument word of a command, a pool word. -/
abbrev Word := BitVec 64

/-- A 48-bit address register (R83). -/
abbrev Addr := BitVec 48

/-- A vector register of one core (R83). -/
abbrev VWord := BitVec 4096

/-- A sparse table: pairs of key and value, keys strictly rising. -/
abbrev Tab (α : Type) := List (Nat × α)

end Sys2Proof
end

