-- ==== Sys2Proof/Machine/Regs.lean ====
section
/-! DEFINITION. The register map: every register and every register field of the spec's register tables, with its
place in BAR0, its bits, its access code (R5) and its reset value. Written from the register tables of
spec/02 to spec/18 (rules R57, R80, R120, R164, R184, R207, R224, R247, R280, R299, R323, R350, R369, R395, R412,
R441, R459). Reserved bits read zero and ignore writes in every one of those tables, so they have no entry. -/

namespace Sys2Proof.Machine

/-- Register access codes, R5. -/
inductive Access where
  | ro | rw | wo | w1c | w1s | rc | rwl
  deriving DecidableEq, Repr

/-- The registers of the spec, by the manual's names; families that the manual numbers (PRT_ORDER0 to 3, CTX_ARG0 to 3
and the like) are one register with more instances. -/
inductive Reg where
  | GAL_SEQ_CTRL | GAL_SEQ_STAT | GAL_SEQ_PC | GAL_SEQ_TRAP | GAL_SEQ_TRAP_PC | GAL_SEQ_ISSUE | GAL_SEQ_STALL
  | GAL_SEQ_WAIT | GAL_SEM_BASE | GAL_TASK_WIN | GAL_INT_VEC | GAL_DISP_STAT | GAL_DISP_PRE | GAL_SPAN
  | GAL_ARRAY_STAT | GAL_ARRAY_FAULT | GAL_ARRAY_HOLD | GAL_ARRAY_CTRL | GAL_NUM_FLAGS | GAL_ENG_RING | GAL_ENG_PTR
  | GAL_ENG_STAT | GAL_ENG_WDOG | GAL_ENG_DONE | GAL_ENG_STALE | GAL_ENG_RST | GAL_POOL_CFG | GAL_POOL_PAGER
  | GAL_POOL_CE | GAL_POOL_CE_LAST | GAL_POOL_CE_CTRL | GAL_POOL_UE | GAL_POOL_MARCH | GAL_POOL_MFAIL
  | GAL_POOL_SPARE | GAL_POOL_LOSS | GAL_BANK_OWNER | MEM_HBM_STAT | MEM_DDR_STAT | MEM_HBM_CE | MEM_DDR_CE
  | MEM_HBM_UE | MEM_DDR_UE | MEM_HBM_CTRL | MEM_DDR_CTRL | MEM_PRT_LAYOUT | MEM_PRT_OWN | MEM_OWN_FAULT
  | MEM_OWN_DATA | MEM_OWN_CMD | PRT_CTRL | PRT_STAT | PRT_SLICES | PRT_COVER | PRT_RELAYOUT | PRT_GEN | PRT_MOVED
  | PRT_ORDER | PRT_PGR_HBM | PRT_PGR_FREE | PRT_PGR_WMARK | PRT_SEQ_ARG | PRT_SEQ_CMD | PRT_SEQ_INFO
  | PRT_PGR_SPILL | PRT_PGR_FAULT | PRT_PGR_DDR | PRT_PGR_FILL | SVY_CTRL | SVY_CFG | SVY_SRC | SVY_LEN | SVY_STAT
  | SVY_GEN | SVY_TIME | SVY_PEND | CTX_ARG | CTX_CMD | CTX_RES | FEN_ARG | FEN_CMD | FEN_RES | XLT_ARG | XLT_CMD
  | XLT_RES | HTN_ARG | HTN_CMD | HTN_RES | DSP_STAT | DSP_INLINE | DSP_MISS | DSP_PVIOL | DSP_PVIOL_LAST | DSP_APR
  | DSP_DLOG_BASE | DSP_DLOG_NEXT | DSP_DLOG_RANGE | DSP_DLOG_LEN | DSP_DLOG_CTRL | DSP_DLOG_MISS | DSP_MLOG_BASE
  | DSP_MLOG_NEXT | DSP_MLOG_CTRL | DSP_SCHED | DSP_DLCNT | DSP_DL_CTRL | DSP_DL_MISS | DSP_DL_LAST | DSP_ACCT
  | DSP_ACCT_STAT | DSP_REG_STAT | DSP_PROG_CMD | DSP_REG_HOLD | DSP_REG_LAT | DSP_PROG_ARG | DSP_PROG_RES
  | XLT_IQ_BASE | XLT_FR_BASE | XLT_IQ_TAIL | XLT_IQ_HEAD | XLT_FR_TAIL | XLT_FR_HEAD | XLT_IQ_STAT | XLT_FR_CTRL
  | XLT_FR_STALE | XLT_WIN_FAULT | XLT_FAULT_LAST | HTN_PORT_CTRL | HTN_PORT_STAT | HTN_AN_ADV | HTN_AN_LP
  | HTN_FEC_CE | HTN_FEC_UE | HTN_LINK_RETRY | HTN_TP_RETX | HTN_TP_TIMEOUT | HTN_TP_DUP | HTN_TP_STALE
  | HTN_TP_MOVED | HTN_RX_BP | HTN_WIN_REFUSED | HTN_REDUCE_DROP | HTN_RX_STAT | HTN_SUMP | HTN_TMR | HTN_TP_FAIL
  | HTN_ETH_CFG | HTN_ETH_MAC | HTN_ETH_IP0 | HTN_ETH_IP1 | HTN_NBR_PEER | HTN_NBR_IP0 | HTN_NBR_IP1 | HTN_NBR_MAC
  | PWR_PKG | PWR_REF_STAT | PWR_HALL_STAT | PWR_HALL_DEPART | PWR_ALERT_CNT | PWR_THROTTLE_CNT | PWR_VTAB
  | PWR_GAL_STAT | PWR_GAL_STRETCH | PWR_TEMP | PWR_THERM | TRC_SNAPSHOT | TRC_SNAP_DOM | TRC_SNAP_DL | RAS_STAT
  | RAS_EVQ_BASE | RAS_ESC_CTRL | RAS_RESET | RAS_LOST | RAS_DUMP_CTRL | RAS_DUMP_STAT | RAS_DUMP_DST
  | RAS_EVQ_TAIL | RAS_EVQ_HEAD | RAS_DUMP_LOST | RAS_CNT_CTX | RAS_CNT_UNIT | RAS_CNT_PRT | RAS_CNT_CHIP
  | RAS_CNT_DROP | RAS_CTX_WDOG | EMU_HW_STAT | EMU_LEASE | EMU_LEASE_HOLDER | EMU_LEASE_CFG | EMU_ORPHAN
  | EMU_WDROP | EMU_MODE | EMU_IFLEVEL | EMU_FW_VER | EMU_VIS | EMU_KRL_RT | EMU_KRL_KP | EMU_LOG_BASE
  | EMU_LOG_CFG | EMU_LOG_HEAD | EMU_LOG_TAIL | EMU_TRACE | EMU_CMD | EMU_FW_DIGEST | SEC_LC | SEC_STAT | SEC_IDPUB
  | SEC_OWNER_KID | SEC_OWNER_SHADOW_KID | SEC_FW_KID | SEC_SLOT_USE | SEC_KEY_STALE | SEC_PRT_KEY | SEC_TDI
  | DEV_ID | DEV_COMPAT_LEVEL | DEV_STAT | DEV_BOOT_TIME
  deriving DecidableEq, Repr

/-- Every field of every register, named REGISTER_field. -/
inductive Fld where
  | GAL_SEQ_CTRL_run | GAL_SEQ_CTRL_step | GAL_SEQ_CTRL_wcol_ie | GAL_SEQ_CTRL_ovf_ie | GAL_SEQ_STAT_state
  | GAL_SEQ_STAT_yreq | GAL_SEQ_STAT_wcol | GAL_SEQ_STAT_loops | GAL_SEQ_STAT_calls | GAL_SEQ_PC_pc
  | GAL_SEQ_TRAP_code | GAL_SEQ_TRAP_slot | GAL_SEQ_TRAP_valid | GAL_SEQ_TRAP_info | GAL_SEQ_TRAP_PC_pc
  | GAL_SEQ_ISSUE_count | GAL_SEQ_ISSUE_ovf | GAL_SEQ_STALL_count | GAL_SEQ_STALL_ovf | GAL_SEQ_WAIT_count
  | GAL_SEQ_WAIT_ovf | GAL_SEM_BASE_base | GAL_TASK_WIN_base | GAL_TASK_WIN_limit | GAL_INT_VEC_vec
  | GAL_DISP_STAT_ctx | GAL_DISP_STAT_loaded | GAL_DISP_STAT_lc | GAL_DISP_STAT_susp | GAL_DISP_STAT_sctx
  | GAL_DISP_PRE_count | GAL_DISP_PRE_ovf | GAL_SPAN_pos | GAL_SPAN_len | GAL_SPAN_head | GAL_SPAN_xings
  | GAL_ARRAY_STAT_armed | GAL_ARRAY_STAT_hum | GAL_ARRAY_STAT_op | GAL_ARRAY_STAT_hold | GAL_ARRAY_STAT_bfull0
  | GAL_ARRAY_STAT_bfull1 | GAL_ARRAY_STAT_bload | GAL_ARRAY_STAT_drain | GAL_ARRAY_STAT_bands
  | GAL_ARRAY_FAULT_desc | GAL_ARRAY_FAULT_seq | GAL_ARRAY_FAULT_mismatch | GAL_ARRAY_FAULT_meta
  | GAL_ARRAY_FAULT_hold | GAL_ARRAY_FAULT_addr | GAL_ARRAY_HOLD_count | GAL_ARRAY_HOLD_ovf | GAL_ARRAY_CTRL_ovf_ie
  | GAL_NUM_FLAGS_inv | GAL_NUM_FLAGS_dz | GAL_NUM_FLAGS_ovf | GAL_NUM_FLAGS_unf | GAL_NUM_FLAGS_inx
  | GAL_NUM_FLAGS_arr_nan | GAL_NUM_FLAGS_arr_inf | GAL_NUM_FLAGS_cvt_sat | GAL_ENG_RING_base | GAL_ENG_RING_size
  | GAL_ENG_RING_en | GAL_ENG_PTR_head | GAL_ENG_PTR_tail | GAL_ENG_STAT_state | GAL_ENG_STAT_cfg_err
  | GAL_ENG_STAT_wdog | GAL_ENG_STAT_relays | GAL_ENG_STAT_ctx | GAL_ENG_WDOG_bound | GAL_ENG_WDOG_wait
  | GAL_ENG_DONE_count | GAL_ENG_DONE_ovf | GAL_ENG_STALE_count | GAL_ENG_STALE_ovf | GAL_ENG_RST_reset
  | GAL_POOL_CFG_geode | GAL_POOL_CFG_wipe | GAL_POOL_CFG_wiped | GAL_POOL_CFG_pcfg_err | GAL_POOL_PAGER_base
  | GAL_POOL_PAGER_pages | GAL_POOL_CE_count | GAL_POOL_CE_ovf | GAL_POOL_CE_LAST_bank | GAL_POOL_CE_LAST_row
  | GAL_POOL_CE_LAST_cw | GAL_POOL_CE_LAST_rep | GAL_POOL_CE_CTRL_thr | GAL_POOL_CE_CTRL_ie | GAL_POOL_UE_bank
  | GAL_POOL_UE_row | GAL_POOL_UE_cw | GAL_POOL_UE_rank | GAL_POOL_UE_ctx | GAL_POOL_UE_valid
  | GAL_POOL_MARCH_start | GAL_POOL_MARCH_mode | GAL_POOL_MARCH_repair | GAL_POOL_MARCH_state
  | GAL_POOL_MARCH_refused | GAL_POOL_MARCH_aborted | GAL_POOL_MFAIL_bank | GAL_POOL_SPARE_hrows
  | GAL_POOL_SPARE_srows | GAL_POOL_SPARE_hlanes | GAL_POOL_SPARE_slanes | GAL_POOL_LOSS_count | GAL_POOL_LOSS_ovf
  | GAL_BANK_OWNER_ctx | GAL_BANK_OWNER_valid | GAL_BANK_OWNER_clr | GAL_BANK_OWNER_busy | GAL_BANK_OWNER_viol
  | MEM_HBM_STAT_state | MEM_HBM_STAT_parity | MEM_HBM_STAT_bound | MEM_HBM_STAT_prt | MEM_DDR_STAT_state
  | MEM_DDR_STAT_present | MEM_DDR_STAT_speed | MEM_DDR_STAT_x8 | MEM_DDR_STAT_ext | MEM_HBM_CE_count
  | MEM_HBM_CE_ovf | MEM_DDR_CE_count | MEM_DDR_CE_ovf | MEM_HBM_UE_line | MEM_HBM_UE_ctx | MEM_HBM_UE_recon
  | MEM_HBM_UE_valid | MEM_DDR_UE_line | MEM_DDR_UE_ctx | MEM_DDR_UE_recon | MEM_DDR_UE_valid | MEM_HBM_CTRL_thr
  | MEM_HBM_CTRL_win | MEM_HBM_CTRL_ie | MEM_HBM_CTRL_retire | MEM_HBM_CTRL_hot | MEM_HBM_CTRL_scrub
  | MEM_DDR_CTRL_thr | MEM_DDR_CTRL_win | MEM_DDR_CTRL_ie | MEM_DDR_CTRL_hot | MEM_DDR_CTRL_scrub
  | MEM_PRT_LAYOUT_slices | MEM_PRT_LAYOUT_gran | MEM_PRT_LAYOUT_parity | MEM_PRT_LAYOUT_w | MEM_PRT_LAYOUT_ext
  | MEM_PRT_OWN_en | MEM_PRT_OWN_base | MEM_OWN_FAULT_frame | MEM_OWN_FAULT_ctx | MEM_OWN_FAULT_wr
  | MEM_OWN_FAULT_valid | MEM_OWN_DATA_entry | MEM_OWN_CMD_frame | MEM_OWN_CMD_go | MEM_OWN_CMD_busy
  | MEM_OWN_CMD_err | PRT_CTRL_seal | PRT_CTRL_conf | PRT_STAT_state | PRT_STAT_relayout | PRT_STAT_closed
  | PRT_STAT_parked | PRT_STAT_slices | PRT_SLICES_bound | PRT_SLICES_spare | PRT_COVER_cover | PRT_RELAYOUT_wmark
  | PRT_GEN_value | PRT_MOVED_value | PRT_ORDER_gal | PRT_PGR_HBM_base | PRT_PGR_HBM_frames | PRT_PGR_FREE_hbm
  | PRT_PGR_FREE_ddr | PRT_PGR_WMARK_lowat | PRT_PGR_WMARK_hiwat | PRT_SEQ_ARG_ctx | PRT_SEQ_ARG_fmt
  | PRT_SEQ_ARG_hd | PRT_SEQ_ARG_nkvh | PRT_SEQ_ARG_class | PRT_SEQ_ARG_shared | PRT_SEQ_ARG_cmp
  | PRT_SEQ_CMD_handle | PRT_SEQ_CMD_op | PRT_SEQ_CMD_go | PRT_SEQ_CMD_busy | PRT_SEQ_CMD_err | PRT_SEQ_INFO_len
  | PRT_SEQ_INFO_groups | PRT_SEQ_INFO_state | PRT_PGR_SPILL_count | PRT_PGR_SPILL_ovf | PRT_PGR_FAULT_cause
  | PRT_PGR_FAULT_ctx | PRT_PGR_FAULT_index | PRT_PGR_FAULT_valid | PRT_PGR_DDR_base | PRT_PGR_DDR_frames
  | PRT_PGR_FILL_count | PRT_PGR_FILL_ovf | SVY_CTRL_load | SVY_CTRL_commit | SVY_CTRL_hold | SVY_CTRL_abort
  | SVY_CTRL_drain | SVY_CFG_share | SVY_CFG_ie | SVY_SRC_addr | SVY_LEN_len | SVY_STAT_phase | SVY_STAT_err
  | SVY_STAT_done | SVY_STAT_mgmt | SVY_STAT_erroff | SVY_GEN_gen | SVY_TIME_us | SVY_PEND_gen | CTX_ARG_arg
  | CTX_CMD_op | CTX_CMD_go | CTX_CMD_busy | CTX_CMD_err | CTX_RES_res | FEN_ARG_arg | FEN_CMD_op | FEN_CMD_go
  | FEN_CMD_busy | FEN_CMD_err | FEN_RES_res | XLT_ARG_arg | XLT_CMD_op | XLT_CMD_go | XLT_CMD_busy | XLT_CMD_err
  | XLT_RES_res | HTN_ARG_arg | HTN_CMD_op | HTN_CMD_go | HTN_CMD_busy | HTN_CMD_err | HTN_RES_res
  | DSP_STAT_cached | DSP_STAT_pinned | DSP_INLINE_count | DSP_INLINE_ovf | DSP_MISS_count | DSP_MISS_ovf
  | DSP_PVIOL_count | DSP_PVIOL_ovf | DSP_PVIOL_LAST_ctx | DSP_PVIOL_LAST_func | DSP_PVIOL_LAST_haspasid
  | DSP_PVIOL_LAST_pasid | DSP_PVIOL_LAST_cause | DSP_PVIOL_LAST_valid | DSP_APR_prt | DSP_APR_base
  | DSP_DLOG_BASE_addr | DSP_DLOG_NEXT_addr | DSP_DLOG_RANGE_addr | DSP_DLOG_LEN_pages | DSP_DLOG_CTRL_en
  | DSP_DLOG_CTRL_swap | DSP_DLOG_CTRL_swapped | DSP_DLOG_CTRL_pfilt | DSP_DLOG_CTRL_pasid | DSP_DLOG_MISS_count
  | DSP_DLOG_MISS_ovf | DSP_MLOG_BASE_en | DSP_MLOG_BASE_addr | DSP_MLOG_NEXT_addr | DSP_MLOG_CTRL_swap
  | DSP_MLOG_CTRL_swapped | DSP_SCHED_backfill | DSP_SCHED_orphan | DSP_DLCNT_count | DSP_DLCNT_ovf
  | DSP_DL_CTRL_miss_ie | DSP_DL_CTRL_ovf_ie | DSP_DL_CTRL_vec | DSP_DL_MISS_count | DSP_DL_MISS_ovf
  | DSP_DL_LAST_ctx | DSP_DL_LAST_slot | DSP_DL_LAST_started | DSP_DL_LAST_fb | DSP_DL_LAST_fb_empty
  | DSP_DL_LAST_valid | DSP_ACCT_cycles | DSP_ACCT_STAT_sat | DSP_ACCT_STAT_ctx_sat | DSP_REG_STAT_miss
  | DSP_REG_STAT_ie | DSP_REG_STAT_lvl | DSP_REG_STAT_vec | DSP_PROG_CMD_op | DSP_PROG_CMD_go | DSP_PROG_CMD_busy
  | DSP_PROG_CMD_err | DSP_REG_HOLD_count | DSP_REG_HOLD_ovf | DSP_REG_LAT_ns | DSP_PROG_ARG_arg | DSP_PROG_RES_res
  | XLT_IQ_BASE_en | XLT_IQ_BASE_size | XLT_IQ_BASE_vec | XLT_IQ_BASE_addr | XLT_FR_BASE_en | XLT_FR_BASE_size
  | XLT_FR_BASE_vec | XLT_FR_BASE_addr | XLT_IQ_TAIL_idx | XLT_IQ_HEAD_idx | XLT_FR_TAIL_idx | XLT_FR_HEAD_idx
  | XLT_IQ_STAT_err | XLT_IQ_STAT_code | XLT_FR_CTRL_pri_to | XLT_FR_STALE_count | XLT_WIN_FAULT_addr
  | XLT_WIN_FAULT_ctx | XLT_WIN_FAULT_valid | XLT_FAULT_LAST_addr | XLT_FAULT_LAST_ctx | XLT_FAULT_LAST_valid
  | HTN_PORT_CTRL_en | HTN_PORT_CTRL_renego | HTN_PORT_CTRL_lanes | HTN_PORT_CTRL_ranks | HTN_PORT_STAT_state
  | HTN_PORT_STAT_rank | HTN_PORT_STAT_lanes | HTN_PORT_STAT_eth | HTN_PORT_STAT_bound | HTN_PORT_STAT_prt
  | HTN_PORT_STAT_down | HTN_AN_ADV_ability | HTN_AN_LP_ability | HTN_FEC_CE_count | HTN_FEC_CE_ovf
  | HTN_FEC_UE_count | HTN_FEC_UE_ovf | HTN_LINK_RETRY_count | HTN_LINK_RETRY_ovf | HTN_TP_RETX_count
  | HTN_TP_RETX_ovf | HTN_TP_TIMEOUT_count | HTN_TP_TIMEOUT_ovf | HTN_TP_DUP_count | HTN_TP_DUP_ovf
  | HTN_TP_STALE_count | HTN_TP_STALE_ovf | HTN_TP_MOVED_count | HTN_TP_MOVED_ovf | HTN_RX_BP_count | HTN_RX_BP_ovf
  | HTN_WIN_REFUSED_count | HTN_WIN_REFUSED_ovf | HTN_REDUCE_DROP_count | HTN_REDUCE_DROP_ovf | HTN_RX_STAT_flits
  | HTN_RX_STAT_sump | HTN_RX_STAT_bp | HTN_SUMP_base | HTN_SUMP_frames | HTN_TMR_req | HTN_TMR_reissues
  | HTN_TMR_rto | HTN_TP_FAIL_rid | HTN_TP_FAIL_sess | HTN_TP_FAIL_cause | HTN_TP_FAIL_valid | HTN_ETH_CFG_ipv6
  | HTN_ETH_CFG_vlan | HTN_ETH_CFG_vid | HTN_ETH_CFG_pcp | HTN_ETH_CFG_dscp | HTN_ETH_CFG_ecn | HTN_ETH_CFG_mtu
  | HTN_ETH_MAC_mac | HTN_ETH_MAC_udp | HTN_ETH_IP0_value | HTN_ETH_IP1_value | HTN_NBR_PEER_value
  | HTN_NBR_IP0_value | HTN_NBR_IP1_value | HTN_NBR_MAC_mac | HTN_NBR_MAC_valid | PWR_PKG_limit | PWR_PKG_avg
  | PWR_PKG_peak | PWR_REF_STAT_lost | PWR_HALL_STAT_mode | PWR_HALL_STAT_set | PWR_HALL_STAT_cur
  | PWR_HALL_STAT_target | PWR_HALL_STAT_stretch | PWR_HALL_STAT_defer | PWR_HALL_STAT_alert
  | PWR_HALL_STAT_throttle | PWR_HALL_STAT_clamp | PWR_HALL_STAT_vr_err | PWR_HALL_DEPART_count
  | PWR_HALL_DEPART_ovf | PWR_ALERT_CNT_count | PWR_ALERT_CNT_ovf | PWR_THROTTLE_CNT_count | PWR_THROTTLE_CNT_ovf
  | PWR_VTAB_mv | PWR_VTAB_fmax | PWR_GAL_STAT_eff | PWR_GAL_STAT_stretch | PWR_GAL_STAT_phase
  | PWR_GAL_STRETCH_count | PWR_GAL_STRETCH_ovf | PWR_TEMP_temp | PWR_TEMP_valid | PWR_THERM_warn
  | PWR_THERM_warn_ie | PWR_THERM_warned | PWR_THERM_hbm_hot | TRC_SNAPSHOT_go | TRC_SNAPSHOT_done
  | TRC_SNAP_DOM_value | TRC_SNAP_DL_value | RAS_STAT_fault | RAS_STAT_dump | RAS_STAT_prt_rst | RAS_STAT_cycle
  | RAS_EVQ_BASE_en | RAS_EVQ_BASE_size | RAS_EVQ_BASE_vec | RAS_EVQ_BASE_addr | RAS_ESC_CTRL_auto_prt
  | RAS_ESC_CTRL_auto_chip | RAS_ESC_CTRL_auto_cycle | RAS_ESC_CTRL_dump_prt | RAS_ESC_CTRL_dump_chip
  | RAS_RESET_prt | RAS_RESET_prt_go | RAS_RESET_chip_go | RAS_RESET_cycle_go | RAS_LOST_gal | RAS_DUMP_CTRL_go
  | RAS_DUMP_CTRL_copy | RAS_DUMP_STAT_state | RAS_DUMP_STAT_bounded | RAS_DUMP_STAT_copied
  | RAS_DUMP_STAT_copy_err | RAS_DUMP_STAT_trigger | RAS_DUMP_STAT_unread | RAS_DUMP_STAT_len | RAS_DUMP_DST_addr
  | RAS_EVQ_TAIL_idx | RAS_EVQ_HEAD_idx | RAS_DUMP_LOST_count | RAS_DUMP_LOST_ovf | RAS_CNT_CTX_count
  | RAS_CNT_CTX_ovf | RAS_CNT_UNIT_count | RAS_CNT_UNIT_ovf | RAS_CNT_PRT_count | RAS_CNT_PRT_ovf
  | RAS_CNT_CHIP_count | RAS_CNT_CHIP_ovf | RAS_CNT_DROP_count | RAS_CNT_DROP_ovf | RAS_CTX_WDOG_ms
  | EMU_HW_STAT_fw_up | EMU_HW_STAT_takeover | EMU_HW_STAT_standby | EMU_HW_STAT_lviol | EMU_HW_STAT_wq
  | EMU_LEASE_id | EMU_LEASE_claim | EMU_LEASE_rings | EMU_LEASE_HOLDER_holder | EMU_LEASE_CFG_ms
  | EMU_ORPHAN_orphan | EMU_ORPHAN_expired | EMU_ORPHAN_dlog | EMU_WDROP_count | EMU_WDROP_ovf | EMU_MODE_mode
  | EMU_MODE_cause | EMU_IFLEVEL_hil | EMU_FW_VER_version | EMU_VIS_vis | EMU_KRL_RT_krl | EMU_KRL_KP_krl
  | EMU_LOG_BASE_addr | EMU_LOG_CFG_en | EMU_LOG_CFG_size | EMU_LOG_HEAD_idx | EMU_LOG_TAIL_idx | EMU_TRACE_mask
  | EMU_CMD_seq | EMU_CMD_op | EMU_FW_DIGEST_half | SEC_LC_state | SEC_LC_subst | SEC_LC_dbg_cnt | SEC_LC_prior
  | SEC_LC_lc_left | SEC_STAT_tamper_boot | SEC_STAT_tamper_run | SEC_STAT_ks_err | SEC_STAT_shadow
  | SEC_STAT_swap_busy | SEC_STAT_drbg_err | SEC_STAT_cert_err | SEC_IDPUB_key | SEC_OWNER_KID_kid
  | SEC_OWNER_SHADOW_KID_kid | SEC_FW_KID_kid | SEC_SLOT_USE_mem | SEC_SLOT_USE_ide | SEC_SLOT_USE_link
  | SEC_SLOT_USE_retiring | SEC_SLOT_USE_waits | SEC_KEY_STALE_count | SEC_KEY_STALE_ovf | SEC_PRT_KEY_slot
  | SEC_PRT_KEY_gen | SEC_PRT_KEY_state | SEC_PRT_KEY_conf | SEC_TDI_state | SEC_TDI_cause | SEC_TDI_prt
  | DEV_ID_product | DEV_ID_step_letter | DEV_ID_step_num | DEV_COMPAT_LEVEL_level | DEV_STAT_step | DEV_STAT_ready
  | DEV_STAT_svy_err | DEV_STAT_hbm_fail | DEV_STAT_ddr_fail | DEV_STAT_march_fail | DEV_BOOT_TIME_cfg_ms
  | DEV_BOOT_TIME_ready_ms
  deriving DecidableEq, Repr

/-- The place of a register in BAR0 (R252): instance i lies at base + outer × (i / n) + inner × (i mod n). -/
structure RegPlace where
  base : Nat
  outer : Nat
  n : Nat
  inner : Nat
  count : Nat
  bits : Nat
  deriving DecidableEq, Repr

/-- BAR0 places, instance counts and widths, from the captions of the register tables. -/
def Reg.place : Reg → RegPlace
  | .GAL_SEQ_CTRL => ⟨0x700000, 0x8000, 1, 0x0, 32, 32⟩
  | .GAL_SEQ_STAT => ⟨0x700008, 0x8000, 1, 0x0, 32, 32⟩
  | .GAL_SEQ_PC => ⟨0x700010, 0x8000, 1, 0x0, 32, 32⟩
  | .GAL_SEQ_TRAP => ⟨0x700018, 0x8000, 1, 0x0, 32, 32⟩
  | .GAL_SEQ_TRAP_PC => ⟨0x700020, 0x8000, 1, 0x0, 32, 32⟩
  | .GAL_SEQ_ISSUE => ⟨0x700028, 0x8000, 1, 0x0, 32, 64⟩
  | .GAL_SEQ_STALL => ⟨0x700030, 0x8000, 1, 0x0, 32, 64⟩
  | .GAL_SEQ_WAIT => ⟨0x700038, 0x8000, 1, 0x0, 32, 64⟩
  | .GAL_SEM_BASE => ⟨0x700040, 0x8000, 1, 0x0, 32, 32⟩
  | .GAL_TASK_WIN => ⟨0x700048, 0x8000, 1, 0x0, 32, 64⟩
  | .GAL_INT_VEC => ⟨0x700050, 0x8000, 1, 0x0, 32, 32⟩
  | .GAL_DISP_STAT => ⟨0x700100, 0x8000, 1, 0x0, 32, 64⟩
  | .GAL_DISP_PRE => ⟨0x700108, 0x8000, 1, 0x0, 32, 64⟩
  | .GAL_SPAN => ⟨0x700800, 0x8000, 1, 0x0, 32, 32⟩
  | .GAL_ARRAY_STAT => ⟨0x700808, 0x8000, 1, 0x0, 32, 32⟩
  | .GAL_ARRAY_FAULT => ⟨0x700810, 0x8000, 1, 0x0, 32, 64⟩
  | .GAL_ARRAY_HOLD => ⟨0x700818, 0x8000, 1, 0x0, 32, 64⟩
  | .GAL_ARRAY_CTRL => ⟨0x700820, 0x8000, 1, 0x0, 32, 32⟩
  | .GAL_NUM_FLAGS => ⟨0x700840, 0x8000, 1, 0x0, 32, 32⟩
  | .GAL_ENG_RING => ⟨0x701000, 0x8000, 16, 0x40, 512, 64⟩
  | .GAL_ENG_PTR => ⟨0x701008, 0x8000, 16, 0x40, 512, 64⟩
  | .GAL_ENG_STAT => ⟨0x701010, 0x8000, 16, 0x40, 512, 32⟩
  | .GAL_ENG_WDOG => ⟨0x701018, 0x8000, 16, 0x40, 512, 32⟩
  | .GAL_ENG_DONE => ⟨0x701020, 0x8000, 16, 0x40, 512, 64⟩
  | .GAL_ENG_STALE => ⟨0x701028, 0x8000, 16, 0x40, 512, 64⟩
  | .GAL_ENG_RST => ⟨0x701030, 0x8000, 16, 0x40, 512, 32⟩
  | .GAL_POOL_CFG => ⟨0x701800, 0x8000, 1, 0x0, 32, 32⟩
  | .GAL_POOL_PAGER => ⟨0x701808, 0x8000, 1, 0x0, 32, 32⟩
  | .GAL_POOL_CE => ⟨0x701810, 0x8000, 1, 0x0, 32, 64⟩
  | .GAL_POOL_CE_LAST => ⟨0x701820, 0x8000, 1, 0x0, 32, 32⟩
  | .GAL_POOL_CE_CTRL => ⟨0x701828, 0x8000, 1, 0x0, 32, 32⟩
  | .GAL_POOL_UE => ⟨0x701830, 0x8000, 1, 0x0, 32, 64⟩
  | .GAL_POOL_MARCH => ⟨0x701838, 0x8000, 1, 0x0, 32, 32⟩
  | .GAL_POOL_MFAIL => ⟨0x701840, 0x8000, 1, 0x0, 32, 64⟩
  | .GAL_POOL_SPARE => ⟨0x701848, 0x8000, 1, 0x0, 32, 64⟩
  | .GAL_POOL_LOSS => ⟨0x701850, 0x8000, 1, 0x0, 32, 64⟩
  | .GAL_BANK_OWNER => ⟨0x702000, 0x8000, 64, 0x8, 2048, 32⟩
  | .MEM_HBM_STAT => ⟨0x800000, 0x1000, 1, 0x0, 256, 32⟩
  | .MEM_DDR_STAT => ⟨0x900000, 0x1000, 1, 0x0, 12, 32⟩
  | .MEM_HBM_CE => ⟨0x800008, 0x1000, 1, 0x0, 256, 64⟩
  | .MEM_DDR_CE => ⟨0x900008, 0x1000, 1, 0x0, 12, 64⟩
  | .MEM_HBM_UE => ⟨0x800010, 0x1000, 1, 0x0, 256, 64⟩
  | .MEM_DDR_UE => ⟨0x900010, 0x1000, 1, 0x0, 12, 64⟩
  | .MEM_HBM_CTRL => ⟨0x800018, 0x1000, 1, 0x0, 256, 32⟩
  | .MEM_DDR_CTRL => ⟨0x900018, 0x1000, 1, 0x0, 12, 32⟩
  | .MEM_PRT_LAYOUT => ⟨0x940000, 0x1000, 1, 0x0, 32, 64⟩
  | .MEM_PRT_OWN => ⟨0x940008, 0x1000, 1, 0x0, 32, 64⟩
  | .MEM_OWN_FAULT => ⟨0x940010, 0x1000, 1, 0x0, 32, 64⟩
  | .MEM_OWN_DATA => ⟨0x940020, 0x1000, 1, 0x0, 32, 32⟩
  | .MEM_OWN_CMD => ⟨0x940028, 0x1000, 1, 0x0, 32, 64⟩
  | .PRT_CTRL => ⟨0x600000, 0x8000, 1, 0x0, 32, 32⟩
  | .PRT_STAT => ⟨0x600008, 0x8000, 1, 0x0, 32, 32⟩
  | .PRT_SLICES => ⟨0x600010, 0x8000, 1, 0x0, 32, 64⟩
  | .PRT_COVER => ⟨0x600038, 0x8000, 1, 0x0, 32, 32⟩
  | .PRT_RELAYOUT => ⟨0x600040, 0x8000, 1, 0x0, 32, 64⟩
  | .PRT_GEN => ⟨0x600048, 0x8000, 1, 0x0, 32, 64⟩
  | .PRT_MOVED => ⟨0x600050, 0x8000, 1, 0x0, 32, 64⟩
  | .PRT_ORDER => ⟨0x600018, 0x8000, 32, 0x1, 1024, 8⟩
  | .PRT_PGR_HBM => ⟨0x604008, 0x8000, 1, 0x0, 32, 64⟩
  | .PRT_PGR_FREE => ⟨0x604018, 0x8000, 1, 0x0, 32, 64⟩
  | .PRT_PGR_WMARK => ⟨0x604020, 0x8000, 1, 0x0, 32, 64⟩
  | .PRT_SEQ_ARG => ⟨0x604028, 0x8000, 1, 0x0, 32, 64⟩
  | .PRT_SEQ_CMD => ⟨0x604030, 0x8000, 1, 0x0, 32, 64⟩
  | .PRT_SEQ_INFO => ⟨0x604038, 0x8000, 1, 0x0, 32, 64⟩
  | .PRT_PGR_SPILL => ⟨0x604040, 0x8000, 1, 0x0, 32, 64⟩
  | .PRT_PGR_FAULT => ⟨0x604050, 0x8000, 1, 0x0, 32, 64⟩
  | .PRT_PGR_DDR => ⟨0x604010, 0x8000, 1, 0x0, 32, 64⟩
  | .PRT_PGR_FILL => ⟨0x604048, 0x8000, 1, 0x0, 32, 64⟩
  | .SVY_CTRL => ⟨0x500000, 0x0, 1, 0x0, 1, 32⟩
  | .SVY_CFG => ⟨0x500008, 0x0, 1, 0x0, 1, 32⟩
  | .SVY_SRC => ⟨0x500010, 0x0, 1, 0x0, 1, 64⟩
  | .SVY_LEN => ⟨0x500018, 0x0, 1, 0x0, 1, 32⟩
  | .SVY_STAT => ⟨0x500020, 0x0, 1, 0x0, 1, 64⟩
  | .SVY_GEN => ⟨0x500028, 0x0, 1, 0x0, 1, 64⟩
  | .SVY_TIME => ⟨0x500038, 0x0, 1, 0x0, 1, 32⟩
  | .SVY_PEND => ⟨0x500030, 0x0, 1, 0x0, 1, 64⟩
  | .CTX_ARG => ⟨0x100000, 0x1000, 4, 0x8, 512, 64⟩
  | .CTX_CMD => ⟨0x100020, 0x1000, 1, 0x0, 128, 64⟩
  | .CTX_RES => ⟨0x100028, 0x1000, 2, 0x8, 256, 64⟩
  | .FEN_ARG => ⟨0x300000, 0x1000, 4, 0x8, 512, 64⟩
  | .FEN_CMD => ⟨0x300020, 0x1000, 1, 0x0, 128, 64⟩
  | .FEN_RES => ⟨0x300028, 0x1000, 2, 0x8, 256, 64⟩
  | .XLT_ARG => ⟨0x400000, 0x1000, 4, 0x8, 512, 64⟩
  | .XLT_CMD => ⟨0x400020, 0x1000, 1, 0x0, 128, 64⟩
  | .XLT_RES => ⟨0x400028, 0x1000, 2, 0x8, 256, 64⟩
  | .HTN_ARG => ⟨0xA02000, 0x8000, 4, 0x8, 128, 64⟩
  | .HTN_CMD => ⟨0xA02020, 0x8000, 1, 0x0, 32, 64⟩
  | .HTN_RES => ⟨0xA02028, 0x8000, 2, 0x8, 64, 64⟩
  | .DSP_STAT => ⟨0x200000, 0x0, 1, 0x0, 1, 32⟩
  | .DSP_INLINE => ⟨0x200008, 0x0, 1, 0x0, 1, 64⟩
  | .DSP_MISS => ⟨0x200010, 0x0, 1, 0x0, 1, 64⟩
  | .DSP_PVIOL => ⟨0x200018, 0x0, 1, 0x0, 1, 64⟩
  | .DSP_PVIOL_LAST => ⟨0x200020, 0x0, 1, 0x0, 1, 64⟩
  | .DSP_APR => ⟨0x201000, 0x40, 1, 0x0, 128, 64⟩
  | .DSP_DLOG_BASE => ⟨0x201008, 0x40, 1, 0x0, 128, 64⟩
  | .DSP_DLOG_NEXT => ⟨0x201010, 0x40, 1, 0x0, 128, 64⟩
  | .DSP_DLOG_RANGE => ⟨0x201018, 0x40, 1, 0x0, 128, 64⟩
  | .DSP_DLOG_LEN => ⟨0x201020, 0x40, 1, 0x0, 128, 64⟩
  | .DSP_DLOG_CTRL => ⟨0x201028, 0x40, 1, 0x0, 128, 32⟩
  | .DSP_DLOG_MISS => ⟨0x201030, 0x40, 1, 0x0, 128, 64⟩
  | .DSP_MLOG_BASE => ⟨0x203000, 0x20, 1, 0x0, 32, 64⟩
  | .DSP_MLOG_NEXT => ⟨0x203008, 0x20, 1, 0x0, 32, 64⟩
  | .DSP_MLOG_CTRL => ⟨0x203010, 0x20, 1, 0x0, 32, 32⟩
  | .DSP_SCHED => ⟨0x204000, 0x100, 1, 0x0, 32, 32⟩
  | .DSP_DLCNT => ⟨0x204008, 0x100, 1, 0x0, 32, 64⟩
  | .DSP_DL_CTRL => ⟨0x204010, 0x100, 1, 0x0, 32, 32⟩
  | .DSP_DL_MISS => ⟨0x204018, 0x100, 1, 0x0, 32, 64⟩
  | .DSP_DL_LAST => ⟨0x204020, 0x100, 1, 0x0, 32, 64⟩
  | .DSP_ACCT => ⟨0x204028, 0x100, 1, 0x0, 32, 64⟩
  | .DSP_ACCT_STAT => ⟨0x204030, 0x100, 1, 0x0, 32, 32⟩
  | .DSP_REG_STAT => ⟨0x204038, 0x100, 1, 0x0, 32, 32⟩
  | .DSP_PROG_CMD => ⟨0x204070, 0x100, 1, 0x0, 32, 64⟩
  | .DSP_REG_HOLD => ⟨0x204048, 0x100, 1, 0x0, 32, 64⟩
  | .DSP_REG_LAT => ⟨0x204040, 0x100, 4, 0x2, 128, 16⟩
  | .DSP_PROG_ARG => ⟨0x204050, 0x100, 4, 0x8, 128, 64⟩
  | .DSP_PROG_RES => ⟨0x204078, 0x100, 1, 0x0, 32, 64⟩
  | .XLT_IQ_BASE => ⟨0x480000, 0x40, 1, 0x0, 128, 64⟩
  | .XLT_FR_BASE => ⟨0x480020, 0x40, 1, 0x0, 128, 64⟩
  | .XLT_IQ_TAIL => ⟨0x480008, 0x40, 1, 0x0, 128, 32⟩
  | .XLT_IQ_HEAD => ⟨0x480010, 0x40, 1, 0x0, 128, 32⟩
  | .XLT_FR_TAIL => ⟨0x480028, 0x40, 1, 0x0, 128, 32⟩
  | .XLT_FR_HEAD => ⟨0x480030, 0x40, 1, 0x0, 128, 32⟩
  | .XLT_IQ_STAT => ⟨0x480018, 0x40, 1, 0x0, 128, 32⟩
  | .XLT_FR_CTRL => ⟨0x480038, 0x40, 1, 0x0, 128, 32⟩
  | .XLT_FR_STALE => ⟨0x48003C, 0x40, 1, 0x0, 128, 32⟩
  | .XLT_WIN_FAULT => ⟨0x490000, 0x20, 1, 0x0, 32, 64⟩
  | .XLT_FAULT_LAST => ⟨0x490010, 0x20, 1, 0x0, 32, 64⟩
  | .HTN_PORT_CTRL => ⟨0xA00000, 0x8000, 1, 0x0, 32, 32⟩
  | .HTN_PORT_STAT => ⟨0xA00008, 0x8000, 1, 0x0, 32, 32⟩
  | .HTN_AN_ADV => ⟨0xA00010, 0x8000, 1, 0x0, 32, 32⟩
  | .HTN_AN_LP => ⟨0xA00018, 0x8000, 1, 0x0, 32, 32⟩
  | .HTN_FEC_CE => ⟨0xA00020, 0x8000, 1, 0x0, 32, 64⟩
  | .HTN_FEC_UE => ⟨0xA00028, 0x8000, 1, 0x0, 32, 64⟩
  | .HTN_LINK_RETRY => ⟨0xA00030, 0x8000, 1, 0x0, 32, 64⟩
  | .HTN_TP_RETX => ⟨0xA00038, 0x8000, 1, 0x0, 32, 64⟩
  | .HTN_TP_TIMEOUT => ⟨0xA00040, 0x8000, 1, 0x0, 32, 64⟩
  | .HTN_TP_DUP => ⟨0xA00048, 0x8000, 1, 0x0, 32, 64⟩
  | .HTN_TP_STALE => ⟨0xA00050, 0x8000, 1, 0x0, 32, 64⟩
  | .HTN_TP_MOVED => ⟨0xA00058, 0x8000, 1, 0x0, 32, 64⟩
  | .HTN_RX_BP => ⟨0xA00060, 0x8000, 1, 0x0, 32, 64⟩
  | .HTN_WIN_REFUSED => ⟨0xA00068, 0x8000, 1, 0x0, 32, 64⟩
  | .HTN_REDUCE_DROP => ⟨0xA00070, 0x8000, 1, 0x0, 32, 64⟩
  | .HTN_RX_STAT => ⟨0xA00080, 0x8000, 1, 0x0, 32, 64⟩
  | .HTN_SUMP => ⟨0xA00088, 0x8000, 1, 0x0, 32, 64⟩
  | .HTN_TMR => ⟨0xA00090, 0x8000, 1, 0x0, 32, 32⟩
  | .HTN_TP_FAIL => ⟨0xA00098, 0x8000, 1, 0x0, 32, 64⟩
  | .HTN_ETH_CFG => ⟨0xA00100, 0x8000, 1, 0x0, 32, 32⟩
  | .HTN_ETH_MAC => ⟨0xA00108, 0x8000, 1, 0x0, 32, 64⟩
  | .HTN_ETH_IP0 => ⟨0xA00110, 0x8000, 1, 0x0, 32, 64⟩
  | .HTN_ETH_IP1 => ⟨0xA00118, 0x8000, 1, 0x0, 32, 64⟩
  | .HTN_NBR_PEER => ⟨0xA01000, 0x8000, 64, 0x20, 2048, 64⟩
  | .HTN_NBR_IP0 => ⟨0xA01010, 0x8000, 64, 0x20, 2048, 64⟩
  | .HTN_NBR_IP1 => ⟨0xA01018, 0x8000, 64, 0x20, 2048, 64⟩
  | .HTN_NBR_MAC => ⟨0xA01008, 0x8000, 64, 0x20, 2048, 64⟩
  | .PWR_PKG => ⟨0xB00000, 0x0, 1, 0x0, 1, 64⟩
  | .PWR_REF_STAT => ⟨0xB00008, 0x0, 1, 0x0, 1, 32⟩
  | .PWR_HALL_STAT => ⟨0xB00100, 0x40, 1, 0x0, 2, 32⟩
  | .PWR_HALL_DEPART => ⟨0xB00108, 0x40, 1, 0x0, 2, 64⟩
  | .PWR_ALERT_CNT => ⟨0xB00180, 0x0, 1, 0x0, 1, 64⟩
  | .PWR_THROTTLE_CNT => ⟨0xB00188, 0x0, 1, 0x0, 1, 64⟩
  | .PWR_VTAB => ⟨0xB00200, 0x80, 18, 0x4, 36, 32⟩
  | .PWR_GAL_STAT => ⟨0xB00400, 0x10, 1, 0x0, 32, 32⟩
  | .PWR_GAL_STRETCH => ⟨0xB00408, 0x10, 1, 0x0, 32, 64⟩
  | .PWR_TEMP => ⟨0xB00800, 0x4, 1, 0x0, 44, 32⟩
  | .PWR_THERM => ⟨0xB00900, 0x0, 1, 0x0, 1, 32⟩
  | .TRC_SNAPSHOT => ⟨0xE00000, 0x0, 1, 0x0, 1, 32⟩
  | .TRC_SNAP_DOM => ⟨0xE00100, 0x8, 1, 0x0, 13, 64⟩
  | .TRC_SNAP_DL => ⟨0xE00200, 0x8, 1, 0x0, 32, 64⟩
  | .RAS_STAT => ⟨0xC00000, 0x0, 1, 0x0, 1, 32⟩
  | .RAS_EVQ_BASE => ⟨0xC00008, 0x0, 1, 0x0, 1, 64⟩
  | .RAS_ESC_CTRL => ⟨0xC00020, 0x0, 1, 0x0, 1, 32⟩
  | .RAS_RESET => ⟨0xC00028, 0x0, 1, 0x0, 1, 32⟩
  | .RAS_LOST => ⟨0xC00030, 0x0, 1, 0x0, 1, 32⟩
  | .RAS_DUMP_CTRL => ⟨0xC00040, 0x0, 1, 0x0, 1, 32⟩
  | .RAS_DUMP_STAT => ⟨0xC00048, 0x0, 1, 0x0, 1, 64⟩
  | .RAS_DUMP_DST => ⟨0xC00050, 0x0, 1, 0x0, 1, 64⟩
  | .RAS_EVQ_TAIL => ⟨0xC00010, 0x0, 1, 0x0, 1, 32⟩
  | .RAS_EVQ_HEAD => ⟨0xC00018, 0x0, 1, 0x0, 1, 32⟩
  | .RAS_DUMP_LOST => ⟨0xC00058, 0x0, 1, 0x0, 1, 64⟩
  | .RAS_CNT_CTX => ⟨0xC00060, 0x0, 1, 0x0, 1, 64⟩
  | .RAS_CNT_UNIT => ⟨0xC00068, 0x0, 1, 0x0, 1, 64⟩
  | .RAS_CNT_PRT => ⟨0xC00070, 0x0, 1, 0x0, 1, 64⟩
  | .RAS_CNT_CHIP => ⟨0xC00078, 0x0, 1, 0x0, 1, 64⟩
  | .RAS_CNT_DROP => ⟨0xC00080, 0x0, 1, 0x0, 1, 64⟩
  | .RAS_CTX_WDOG => ⟨0xC00100, 0x8, 1, 0x0, 32, 32⟩
  | .EMU_HW_STAT => ⟨0x10000, 0x0, 1, 0x0, 1, 32⟩
  | .EMU_LEASE => ⟨0x10008, 0x0, 1, 0x0, 1, 64⟩
  | .EMU_LEASE_HOLDER => ⟨0x10028, 0x0, 1, 0x0, 1, 32⟩
  | .EMU_LEASE_CFG => ⟨0x10010, 0x0, 1, 0x0, 1, 32⟩
  | .EMU_ORPHAN => ⟨0x10018, 0x0, 1, 0x0, 1, 64⟩
  | .EMU_WDROP => ⟨0x10020, 0x0, 1, 0x0, 1, 64⟩
  | .EMU_MODE => ⟨0x10100, 0x0, 1, 0x0, 1, 32⟩
  | .EMU_IFLEVEL => ⟨0x10104, 0x0, 1, 0x0, 1, 32⟩
  | .EMU_FW_VER => ⟨0x10108, 0x4, 1, 0x0, 2, 32⟩
  | .EMU_VIS => ⟨0x10110, 0x0, 1, 0x0, 1, 32⟩
  | .EMU_KRL_RT => ⟨0x10114, 0x0, 1, 0x0, 1, 32⟩
  | .EMU_KRL_KP => ⟨0x10118, 0x0, 1, 0x0, 1, 32⟩
  | .EMU_LOG_BASE => ⟨0x10120, 0x4, 1, 0x0, 2, 32⟩
  | .EMU_LOG_CFG => ⟨0x10128, 0x0, 1, 0x0, 1, 32⟩
  | .EMU_LOG_HEAD => ⟨0x1012C, 0x0, 1, 0x0, 1, 32⟩
  | .EMU_LOG_TAIL => ⟨0x10130, 0x0, 1, 0x0, 1, 32⟩
  | .EMU_TRACE => ⟨0x10134, 0x4, 1, 0x0, 2, 32⟩
  | .EMU_CMD => ⟨0x10140, 0x0, 1, 0x0, 1, 32⟩
  | .EMU_FW_DIGEST => ⟨0x10200, 0x4, 1, 0x0, 64, 32⟩
  | .SEC_LC => ⟨0xD00000, 0x0, 1, 0x0, 1, 32⟩
  | .SEC_STAT => ⟨0xD00008, 0x0, 1, 0x0, 1, 32⟩
  | .SEC_IDPUB => ⟨0xD00010, 0x8, 1, 0x0, 4, 64⟩
  | .SEC_OWNER_KID => ⟨0xD00030, 0x0, 1, 0x0, 1, 64⟩
  | .SEC_OWNER_SHADOW_KID => ⟨0xD00038, 0x0, 1, 0x0, 1, 64⟩
  | .SEC_FW_KID => ⟨0xD00040, 0x8, 1, 0x0, 4, 64⟩
  | .SEC_SLOT_USE => ⟨0xD00060, 0x0, 1, 0x0, 1, 64⟩
  | .SEC_KEY_STALE => ⟨0xD00068, 0x0, 1, 0x0, 1, 64⟩
  | .SEC_PRT_KEY => ⟨0xD00100, 0x8, 1, 0x0, 32, 64⟩
  | .SEC_TDI => ⟨0xD00400, 0x8, 1, 0x0, 128, 64⟩
  | .DEV_ID => ⟨0x0, 0x0, 1, 0x0, 1, 32⟩
  | .DEV_COMPAT_LEVEL => ⟨0x8, 0x0, 1, 0x0, 1, 32⟩
  | .DEV_STAT => ⟨0x10, 0x0, 1, 0x0, 1, 32⟩
  | .DEV_BOOT_TIME => ⟨0x18, 0x0, 1, 0x0, 1, 32⟩

/-- BAR0 offset of instance i of a register. -/
def Reg.addr (r : Reg) (i : Nat) : Nat :=
  r.place.base + r.place.outer * (i / r.place.n) + r.place.inner * (i % r.place.n)

/-- A field's bits, access code and reset value. -/
structure FldDesc where
  reg : Reg
  hi : Nat
  lo : Nat
  acc : Access
  reset : Nat
  deriving DecidableEq, Repr

/-- The field tables. GAL_ENG_WDOG.bound and PWR_VTAB.mv have one reset value per instance: see Fld.resetAt. -/
def Fld.desc : Fld → FldDesc
  | .GAL_SEQ_CTRL_run => ⟨.GAL_SEQ_CTRL, 0, 0, .rw, 1⟩
  | .GAL_SEQ_CTRL_step => ⟨.GAL_SEQ_CTRL, 1, 1, .wo, 0⟩
  | .GAL_SEQ_CTRL_wcol_ie => ⟨.GAL_SEQ_CTRL, 2, 2, .rw, 0⟩
  | .GAL_SEQ_CTRL_ovf_ie => ⟨.GAL_SEQ_CTRL, 3, 3, .rw, 0⟩
  | .GAL_SEQ_STAT_state => ⟨.GAL_SEQ_STAT, 1, 0, .ro, 0⟩
  | .GAL_SEQ_STAT_yreq => ⟨.GAL_SEQ_STAT, 2, 2, .ro, 0⟩
  | .GAL_SEQ_STAT_wcol => ⟨.GAL_SEQ_STAT, 3, 3, .w1c, 0⟩
  | .GAL_SEQ_STAT_loops => ⟨.GAL_SEQ_STAT, 6, 4, .ro, 0⟩
  | .GAL_SEQ_STAT_calls => ⟨.GAL_SEQ_STAT, 11, 8, .ro, 0⟩
  | .GAL_SEQ_PC_pc => ⟨.GAL_SEQ_PC, 24, 0, .ro, 0⟩
  | .GAL_SEQ_TRAP_code => ⟨.GAL_SEQ_TRAP, 7, 0, .ro, 0⟩
  | .GAL_SEQ_TRAP_slot => ⟨.GAL_SEQ_TRAP, 10, 8, .ro, 0⟩
  | .GAL_SEQ_TRAP_valid => ⟨.GAL_SEQ_TRAP, 15, 15, .w1c, 0⟩
  | .GAL_SEQ_TRAP_info => ⟨.GAL_SEQ_TRAP, 31, 16, .ro, 0⟩
  | .GAL_SEQ_TRAP_PC_pc => ⟨.GAL_SEQ_TRAP_PC, 24, 0, .ro, 0⟩
  | .GAL_SEQ_ISSUE_count => ⟨.GAL_SEQ_ISSUE, 47, 0, .ro, 0⟩
  | .GAL_SEQ_ISSUE_ovf => ⟨.GAL_SEQ_ISSUE, 63, 63, .w1c, 0⟩
  | .GAL_SEQ_STALL_count => ⟨.GAL_SEQ_STALL, 47, 0, .ro, 0⟩
  | .GAL_SEQ_STALL_ovf => ⟨.GAL_SEQ_STALL, 63, 63, .w1c, 0⟩
  | .GAL_SEQ_WAIT_count => ⟨.GAL_SEQ_WAIT, 47, 0, .ro, 0⟩
  | .GAL_SEQ_WAIT_ovf => ⟨.GAL_SEQ_WAIT, 63, 63, .w1c, 0⟩
  | .GAL_SEM_BASE_base => ⟨.GAL_SEM_BASE, 24, 19, .rwl, 63⟩
  | .GAL_TASK_WIN_base => ⟨.GAL_TASK_WIN, 24, 0, .ro, 0⟩
  | .GAL_TASK_WIN_limit => ⟨.GAL_TASK_WIN, 57, 32, .ro, 0⟩
  | .GAL_INT_VEC_vec => ⟨.GAL_INT_VEC, 10, 0, .rw, 0⟩
  | .GAL_DISP_STAT_ctx => ⟨.GAL_DISP_STAT, 15, 0, .ro, 0⟩
  | .GAL_DISP_STAT_loaded => ⟨.GAL_DISP_STAT, 16, 16, .ro, 0⟩
  | .GAL_DISP_STAT_lc => ⟨.GAL_DISP_STAT, 17, 17, .ro, 0⟩
  | .GAL_DISP_STAT_susp => ⟨.GAL_DISP_STAT, 18, 18, .ro, 0⟩
  | .GAL_DISP_STAT_sctx => ⟨.GAL_DISP_STAT, 47, 32, .ro, 0⟩
  | .GAL_DISP_PRE_count => ⟨.GAL_DISP_PRE, 47, 0, .ro, 0⟩
  | .GAL_DISP_PRE_ovf => ⟨.GAL_DISP_PRE, 63, 63, .w1c, 0⟩
  | .GAL_SPAN_pos => ⟨.GAL_SPAN, 4, 0, .ro, 0⟩
  | .GAL_SPAN_len => ⟨.GAL_SPAN, 13, 8, .ro, 0⟩
  | .GAL_SPAN_head => ⟨.GAL_SPAN, 20, 16, .ro, 0⟩
  | .GAL_SPAN_xings => ⟨.GAL_SPAN, 28, 24, .ro, 0⟩
  | .GAL_ARRAY_STAT_armed => ⟨.GAL_ARRAY_STAT, 0, 0, .ro, 0⟩
  | .GAL_ARRAY_STAT_hum => ⟨.GAL_ARRAY_STAT, 1, 1, .ro, 0⟩
  | .GAL_ARRAY_STAT_op => ⟨.GAL_ARRAY_STAT, 2, 2, .ro, 0⟩
  | .GAL_ARRAY_STAT_hold => ⟨.GAL_ARRAY_STAT, 3, 3, .ro, 0⟩
  | .GAL_ARRAY_STAT_bfull0 => ⟨.GAL_ARRAY_STAT, 4, 4, .ro, 0⟩
  | .GAL_ARRAY_STAT_bfull1 => ⟨.GAL_ARRAY_STAT, 5, 5, .ro, 0⟩
  | .GAL_ARRAY_STAT_bload => ⟨.GAL_ARRAY_STAT, 6, 6, .ro, 0⟩
  | .GAL_ARRAY_STAT_drain => ⟨.GAL_ARRAY_STAT, 7, 7, .ro, 0⟩
  | .GAL_ARRAY_STAT_bands => ⟨.GAL_ARRAY_STAT, 15, 8, .ro, 0⟩
  | .GAL_ARRAY_FAULT_desc => ⟨.GAL_ARRAY_FAULT, 0, 0, .w1c, 0⟩
  | .GAL_ARRAY_FAULT_seq => ⟨.GAL_ARRAY_FAULT, 1, 1, .w1c, 0⟩
  | .GAL_ARRAY_FAULT_mismatch => ⟨.GAL_ARRAY_FAULT, 2, 2, .w1c, 0⟩
  | .GAL_ARRAY_FAULT_meta => ⟨.GAL_ARRAY_FAULT, 3, 3, .w1c, 0⟩
  | .GAL_ARRAY_FAULT_hold => ⟨.GAL_ARRAY_FAULT, 4, 4, .w1c, 0⟩
  | .GAL_ARRAY_FAULT_addr => ⟨.GAL_ARRAY_FAULT, 56, 32, .ro, 0⟩
  | .GAL_ARRAY_HOLD_count => ⟨.GAL_ARRAY_HOLD, 47, 0, .ro, 0⟩
  | .GAL_ARRAY_HOLD_ovf => ⟨.GAL_ARRAY_HOLD, 63, 63, .w1c, 0⟩
  | .GAL_ARRAY_CTRL_ovf_ie => ⟨.GAL_ARRAY_CTRL, 0, 0, .rw, 0⟩
  | .GAL_NUM_FLAGS_inv => ⟨.GAL_NUM_FLAGS, 0, 0, .w1c, 0⟩
  | .GAL_NUM_FLAGS_dz => ⟨.GAL_NUM_FLAGS, 1, 1, .w1c, 0⟩
  | .GAL_NUM_FLAGS_ovf => ⟨.GAL_NUM_FLAGS, 2, 2, .w1c, 0⟩
  | .GAL_NUM_FLAGS_unf => ⟨.GAL_NUM_FLAGS, 3, 3, .w1c, 0⟩
  | .GAL_NUM_FLAGS_inx => ⟨.GAL_NUM_FLAGS, 4, 4, .w1c, 0⟩
  | .GAL_NUM_FLAGS_arr_nan => ⟨.GAL_NUM_FLAGS, 5, 5, .w1c, 0⟩
  | .GAL_NUM_FLAGS_arr_inf => ⟨.GAL_NUM_FLAGS, 6, 6, .w1c, 0⟩
  | .GAL_NUM_FLAGS_cvt_sat => ⟨.GAL_NUM_FLAGS, 7, 7, .w1c, 0⟩
  | .GAL_ENG_RING_base => ⟨.GAL_ENG_RING, 24, 6, .rwl, 0⟩
  | .GAL_ENG_RING_size => ⟨.GAL_ENG_RING, 35, 32, .rwl, 6⟩
  | .GAL_ENG_RING_en => ⟨.GAL_ENG_RING, 63, 63, .rwl, 0⟩
  | .GAL_ENG_PTR_head => ⟨.GAL_ENG_PTR, 11, 0, .ro, 0⟩
  | .GAL_ENG_PTR_tail => ⟨.GAL_ENG_PTR, 43, 32, .ro, 0⟩
  | .GAL_ENG_STAT_state => ⟨.GAL_ENG_STAT, 1, 0, .ro, 0⟩
  | .GAL_ENG_STAT_cfg_err => ⟨.GAL_ENG_STAT, 2, 2, .ro, 0⟩
  | .GAL_ENG_STAT_wdog => ⟨.GAL_ENG_STAT, 3, 3, .w1c, 0⟩
  | .GAL_ENG_STAT_relays => ⟨.GAL_ENG_STAT, 4, 4, .ro, 0⟩
  | .GAL_ENG_STAT_ctx => ⟨.GAL_ENG_STAT, 31, 16, .ro, 0⟩
  | .GAL_ENG_WDOG_bound => ⟨.GAL_ENG_WDOG, 15, 0, .rwl, 0⟩
  | .GAL_ENG_WDOG_wait => ⟨.GAL_ENG_WDOG, 31, 16, .rwl, 20⟩
  | .GAL_ENG_DONE_count => ⟨.GAL_ENG_DONE, 47, 0, .ro, 0⟩
  | .GAL_ENG_DONE_ovf => ⟨.GAL_ENG_DONE, 63, 63, .w1c, 0⟩
  | .GAL_ENG_STALE_count => ⟨.GAL_ENG_STALE, 47, 0, .ro, 0⟩
  | .GAL_ENG_STALE_ovf => ⟨.GAL_ENG_STALE, 63, 63, .w1c, 0⟩
  | .GAL_ENG_RST_reset => ⟨.GAL_ENG_RST, 0, 0, .wo, 0⟩
  | .GAL_POOL_CFG_geode => ⟨.GAL_POOL_CFG, 0, 0, .ro, 0⟩
  | .GAL_POOL_CFG_wipe => ⟨.GAL_POOL_CFG, 1, 1, .ro, 0⟩
  | .GAL_POOL_CFG_wiped => ⟨.GAL_POOL_CFG, 2, 2, .w1c, 0⟩
  | .GAL_POOL_CFG_pcfg_err => ⟨.GAL_POOL_CFG, 3, 3, .ro, 0⟩
  | .GAL_POOL_PAGER_base => ⟨.GAL_POOL_PAGER, 8, 0, .rwl, 0⟩
  | .GAL_POOL_PAGER_pages => ⟨.GAL_POOL_PAGER, 23, 16, .rwl, 0⟩
  | .GAL_POOL_CE_count => ⟨.GAL_POOL_CE, 47, 0, .ro, 0⟩
  | .GAL_POOL_CE_ovf => ⟨.GAL_POOL_CE, 63, 63, .w1c, 0⟩
  | .GAL_POOL_CE_LAST_bank => ⟨.GAL_POOL_CE_LAST, 5, 0, .ro, 0⟩
  | .GAL_POOL_CE_LAST_row => ⟨.GAL_POOL_CE_LAST, 17, 6, .ro, 0⟩
  | .GAL_POOL_CE_LAST_cw => ⟨.GAL_POOL_CE_LAST, 19, 18, .ro, 0⟩
  | .GAL_POOL_CE_LAST_rep => ⟨.GAL_POOL_CE_LAST, 31, 20, .ro, 0⟩
  | .GAL_POOL_CE_CTRL_thr => ⟨.GAL_POOL_CE_CTRL, 11, 0, .rw, 8⟩
  | .GAL_POOL_CE_CTRL_ie => ⟨.GAL_POOL_CE_CTRL, 12, 12, .rw, 0⟩
  | .GAL_POOL_UE_bank => ⟨.GAL_POOL_UE, 5, 0, .ro, 0⟩
  | .GAL_POOL_UE_row => ⟨.GAL_POOL_UE, 17, 6, .ro, 0⟩
  | .GAL_POOL_UE_cw => ⟨.GAL_POOL_UE, 19, 18, .ro, 0⟩
  | .GAL_POOL_UE_rank => ⟨.GAL_POOL_UE, 23, 20, .ro, 0⟩
  | .GAL_POOL_UE_ctx => ⟨.GAL_POOL_UE, 47, 32, .ro, 0⟩
  | .GAL_POOL_UE_valid => ⟨.GAL_POOL_UE, 63, 63, .w1c, 0⟩
  | .GAL_POOL_MARCH_start => ⟨.GAL_POOL_MARCH, 0, 0, .wo, 0⟩
  | .GAL_POOL_MARCH_mode => ⟨.GAL_POOL_MARCH, 1, 1, .rw, 0⟩
  | .GAL_POOL_MARCH_repair => ⟨.GAL_POOL_MARCH, 2, 2, .rw, 1⟩
  | .GAL_POOL_MARCH_state => ⟨.GAL_POOL_MARCH, 4, 3, .ro, 0⟩
  | .GAL_POOL_MARCH_refused => ⟨.GAL_POOL_MARCH, 5, 5, .w1c, 0⟩
  | .GAL_POOL_MARCH_aborted => ⟨.GAL_POOL_MARCH, 6, 6, .w1c, 0⟩
  | .GAL_POOL_MFAIL_bank => ⟨.GAL_POOL_MFAIL, 63, 0, .ro, 0⟩
  | .GAL_POOL_SPARE_hrows => ⟨.GAL_POOL_SPARE, 9, 0, .ro, 0⟩
  | .GAL_POOL_SPARE_srows => ⟨.GAL_POOL_SPARE, 25, 16, .ro, 0⟩
  | .GAL_POOL_SPARE_hlanes => ⟨.GAL_POOL_SPARE, 39, 32, .ro, 0⟩
  | .GAL_POOL_SPARE_slanes => ⟨.GAL_POOL_SPARE, 47, 40, .ro, 0⟩
  | .GAL_POOL_LOSS_count => ⟨.GAL_POOL_LOSS, 47, 0, .ro, 0⟩
  | .GAL_POOL_LOSS_ovf => ⟨.GAL_POOL_LOSS, 63, 63, .w1c, 0⟩
  | .GAL_BANK_OWNER_ctx => ⟨.GAL_BANK_OWNER, 15, 0, .rw, 0⟩
  | .GAL_BANK_OWNER_valid => ⟨.GAL_BANK_OWNER, 16, 16, .rw, 0⟩
  | .GAL_BANK_OWNER_clr => ⟨.GAL_BANK_OWNER, 17, 17, .wo, 0⟩
  | .GAL_BANK_OWNER_busy => ⟨.GAL_BANK_OWNER, 18, 18, .ro, 0⟩
  | .GAL_BANK_OWNER_viol => ⟨.GAL_BANK_OWNER, 19, 19, .w1c, 0⟩
  | .MEM_HBM_STAT_state => ⟨.MEM_HBM_STAT, 2, 0, .ro, 0⟩
  | .MEM_HBM_STAT_parity => ⟨.MEM_HBM_STAT, 3, 3, .ro, 0⟩
  | .MEM_HBM_STAT_bound => ⟨.MEM_HBM_STAT, 4, 4, .ro, 0⟩
  | .MEM_HBM_STAT_prt => ⟨.MEM_HBM_STAT, 9, 5, .ro, 0⟩
  | .MEM_DDR_STAT_state => ⟨.MEM_DDR_STAT, 2, 0, .ro, 0⟩
  | .MEM_DDR_STAT_present => ⟨.MEM_DDR_STAT, 3, 3, .ro, 0⟩
  | .MEM_DDR_STAT_speed => ⟨.MEM_DDR_STAT, 5, 4, .ro, 0⟩
  | .MEM_DDR_STAT_x8 => ⟨.MEM_DDR_STAT, 6, 6, .ro, 0⟩
  | .MEM_DDR_STAT_ext => ⟨.MEM_DDR_STAT, 15, 7, .ro, 0⟩
  | .MEM_HBM_CE_count => ⟨.MEM_HBM_CE, 47, 0, .ro, 0⟩
  | .MEM_HBM_CE_ovf => ⟨.MEM_HBM_CE, 63, 63, .w1c, 0⟩
  | .MEM_DDR_CE_count => ⟨.MEM_DDR_CE, 47, 0, .ro, 0⟩
  | .MEM_DDR_CE_ovf => ⟨.MEM_DDR_CE, 63, 63, .w1c, 0⟩
  | .MEM_HBM_UE_line => ⟨.MEM_HBM_UE, 31, 0, .ro, 0⟩
  | .MEM_HBM_UE_ctx => ⟨.MEM_HBM_UE, 47, 32, .ro, 0⟩
  | .MEM_HBM_UE_recon => ⟨.MEM_HBM_UE, 48, 48, .ro, 0⟩
  | .MEM_HBM_UE_valid => ⟨.MEM_HBM_UE, 63, 63, .w1c, 0⟩
  | .MEM_DDR_UE_line => ⟨.MEM_DDR_UE, 31, 0, .ro, 0⟩
  | .MEM_DDR_UE_ctx => ⟨.MEM_DDR_UE, 47, 32, .ro, 0⟩
  | .MEM_DDR_UE_recon => ⟨.MEM_DDR_UE, 48, 48, .ro, 0⟩
  | .MEM_DDR_UE_valid => ⟨.MEM_DDR_UE, 63, 63, .w1c, 0⟩
  | .MEM_HBM_CTRL_thr => ⟨.MEM_HBM_CTRL, 15, 0, .rw, 64⟩
  | .MEM_HBM_CTRL_win => ⟨.MEM_HBM_CTRL, 21, 16, .rw, 10⟩
  | .MEM_HBM_CTRL_ie => ⟨.MEM_HBM_CTRL, 22, 22, .rw, 0⟩
  | .MEM_HBM_CTRL_retire => ⟨.MEM_HBM_CTRL, 23, 23, .rw, 0⟩
  | .MEM_HBM_CTRL_hot => ⟨.MEM_HBM_CTRL, 24, 24, .w1c, 0⟩
  | .MEM_HBM_CTRL_scrub => ⟨.MEM_HBM_CTRL, 30, 25, .rw, 5⟩
  | .MEM_DDR_CTRL_thr => ⟨.MEM_DDR_CTRL, 15, 0, .rw, 64⟩
  | .MEM_DDR_CTRL_win => ⟨.MEM_DDR_CTRL, 21, 16, .rw, 10⟩
  | .MEM_DDR_CTRL_ie => ⟨.MEM_DDR_CTRL, 22, 22, .rw, 0⟩
  | .MEM_DDR_CTRL_hot => ⟨.MEM_DDR_CTRL, 24, 24, .w1c, 0⟩
  | .MEM_DDR_CTRL_scrub => ⟨.MEM_DDR_CTRL, 30, 25, .rw, 6⟩
  | .MEM_PRT_LAYOUT_slices => ⟨.MEM_PRT_LAYOUT, 5, 0, .ro, 0⟩
  | .MEM_PRT_LAYOUT_gran => ⟨.MEM_PRT_LAYOUT, 6, 6, .ro, 0⟩
  | .MEM_PRT_LAYOUT_parity => ⟨.MEM_PRT_LAYOUT, 7, 7, .ro, 0⟩
  | .MEM_PRT_LAYOUT_w => ⟨.MEM_PRT_LAYOUT, 11, 8, .ro, 0⟩
  | .MEM_PRT_LAYOUT_ext => ⟨.MEM_PRT_LAYOUT, 23, 12, .ro, 0⟩
  | .MEM_PRT_OWN_en => ⟨.MEM_PRT_OWN, 0, 0, .rwl, 0⟩
  | .MEM_PRT_OWN_base => ⟨.MEM_PRT_OWN, 47, 16, .rwl, 0⟩
  | .MEM_OWN_FAULT_frame => ⟨.MEM_OWN_FAULT, 31, 0, .ro, 0⟩
  | .MEM_OWN_FAULT_ctx => ⟨.MEM_OWN_FAULT, 47, 32, .ro, 0⟩
  | .MEM_OWN_FAULT_wr => ⟨.MEM_OWN_FAULT, 48, 48, .ro, 0⟩
  | .MEM_OWN_FAULT_valid => ⟨.MEM_OWN_FAULT, 63, 63, .w1c, 0⟩
  | .MEM_OWN_DATA_entry => ⟨.MEM_OWN_DATA, 31, 0, .rw, 0⟩
  | .MEM_OWN_CMD_frame => ⟨.MEM_OWN_CMD, 31, 0, .rw, 0⟩
  | .MEM_OWN_CMD_go => ⟨.MEM_OWN_CMD, 32, 32, .wo, 0⟩
  | .MEM_OWN_CMD_busy => ⟨.MEM_OWN_CMD, 33, 33, .ro, 0⟩
  | .MEM_OWN_CMD_err => ⟨.MEM_OWN_CMD, 34, 34, .w1c, 0⟩
  | .PRT_CTRL_seal => ⟨.PRT_CTRL, 0, 0, .w1s, 0⟩
  | .PRT_CTRL_conf => ⟨.PRT_CTRL, 3, 3, .rwl, 0⟩
  | .PRT_STAT_state => ⟨.PRT_STAT, 1, 0, .ro, 0⟩
  | .PRT_STAT_relayout => ⟨.PRT_STAT, 2, 2, .ro, 0⟩
  | .PRT_STAT_closed => ⟨.PRT_STAT, 3, 3, .ro, 0⟩
  | .PRT_STAT_parked => ⟨.PRT_STAT, 4, 4, .ro, 0⟩
  | .PRT_STAT_slices => ⟨.PRT_STAT, 10, 5, .ro, 0⟩
  | .PRT_SLICES_bound => ⟨.PRT_SLICES, 31, 0, .ro, 0⟩
  | .PRT_SLICES_spare => ⟨.PRT_SLICES, 63, 32, .ro, 0⟩
  | .PRT_COVER_cover => ⟨.PRT_COVER, 31, 0, .ro, 0⟩
  | .PRT_RELAYOUT_wmark => ⟨.PRT_RELAYOUT, 47, 0, .ro, 0⟩
  | .PRT_GEN_value => ⟨.PRT_GEN, 63, 0, .ro, 0⟩
  | .PRT_MOVED_value => ⟨.PRT_MOVED, 63, 0, .ro, 0⟩
  | .PRT_ORDER_gal => ⟨.PRT_ORDER, 7, 0, .ro, 255⟩
  | .PRT_PGR_HBM_base => ⟨.PRT_PGR_HBM, 31, 0, .ro, 0⟩
  | .PRT_PGR_HBM_frames => ⟨.PRT_PGR_HBM, 63, 32, .ro, 0⟩
  | .PRT_PGR_FREE_hbm => ⟨.PRT_PGR_FREE, 31, 0, .ro, 0⟩
  | .PRT_PGR_FREE_ddr => ⟨.PRT_PGR_FREE, 63, 32, .ro, 0⟩
  | .PRT_PGR_WMARK_lowat => ⟨.PRT_PGR_WMARK, 31, 0, .rw, 64⟩
  | .PRT_PGR_WMARK_hiwat => ⟨.PRT_PGR_WMARK, 63, 32, .rw, 128⟩
  | .PRT_SEQ_ARG_ctx => ⟨.PRT_SEQ_ARG, 15, 0, .rw, 0⟩
  | .PRT_SEQ_ARG_fmt => ⟨.PRT_SEQ_ARG, 16, 16, .rw, 0⟩
  | .PRT_SEQ_ARG_hd => ⟨.PRT_SEQ_ARG, 18, 17, .rw, 0⟩
  | .PRT_SEQ_ARG_nkvh => ⟨.PRT_SEQ_ARG, 26, 20, .rw, 0⟩
  | .PRT_SEQ_ARG_class => ⟨.PRT_SEQ_ARG, 29, 28, .rw, 1⟩
  | .PRT_SEQ_ARG_shared => ⟨.PRT_SEQ_ARG, 30, 30, .rw, 0⟩
  | .PRT_SEQ_ARG_cmp => ⟨.PRT_SEQ_ARG, 31, 31, .rw, 0⟩
  | .PRT_SEQ_CMD_handle => ⟨.PRT_SEQ_CMD, 31, 0, .rw, 0⟩
  | .PRT_SEQ_CMD_op => ⟨.PRT_SEQ_CMD, 34, 32, .rw, 0⟩
  | .PRT_SEQ_CMD_go => ⟨.PRT_SEQ_CMD, 35, 35, .wo, 0⟩
  | .PRT_SEQ_CMD_busy => ⟨.PRT_SEQ_CMD, 36, 36, .ro, 0⟩
  | .PRT_SEQ_CMD_err => ⟨.PRT_SEQ_CMD, 39, 37, .ro, 0⟩
  | .PRT_SEQ_INFO_len => ⟨.PRT_SEQ_INFO, 31, 0, .ro, 0⟩
  | .PRT_SEQ_INFO_groups => ⟨.PRT_SEQ_INFO, 47, 32, .ro, 0⟩
  | .PRT_SEQ_INFO_state => ⟨.PRT_SEQ_INFO, 49, 48, .ro, 0⟩
  | .PRT_PGR_SPILL_count => ⟨.PRT_PGR_SPILL, 47, 0, .ro, 0⟩
  | .PRT_PGR_SPILL_ovf => ⟨.PRT_PGR_SPILL, 63, 63, .w1c, 0⟩
  | .PRT_PGR_FAULT_cause => ⟨.PRT_PGR_FAULT, 1, 0, .ro, 0⟩
  | .PRT_PGR_FAULT_ctx => ⟨.PRT_PGR_FAULT, 31, 16, .ro, 0⟩
  | .PRT_PGR_FAULT_index => ⟨.PRT_PGR_FAULT, 44, 32, .ro, 0⟩
  | .PRT_PGR_FAULT_valid => ⟨.PRT_PGR_FAULT, 63, 63, .w1c, 0⟩
  | .PRT_PGR_DDR_base => ⟨.PRT_PGR_DDR, 31, 0, .ro, 0⟩
  | .PRT_PGR_DDR_frames => ⟨.PRT_PGR_DDR, 63, 32, .ro, 0⟩
  | .PRT_PGR_FILL_count => ⟨.PRT_PGR_FILL, 47, 0, .ro, 0⟩
  | .PRT_PGR_FILL_ovf => ⟨.PRT_PGR_FILL, 63, 63, .w1c, 0⟩
  | .SVY_CTRL_load => ⟨.SVY_CTRL, 0, 0, .wo, 0⟩
  | .SVY_CTRL_commit => ⟨.SVY_CTRL, 1, 1, .wo, 0⟩
  | .SVY_CTRL_hold => ⟨.SVY_CTRL, 2, 2, .rw, 0⟩
  | .SVY_CTRL_abort => ⟨.SVY_CTRL, 3, 3, .wo, 0⟩
  | .SVY_CTRL_drain => ⟨.SVY_CTRL, 31, 16, .rw, 100⟩
  | .SVY_CFG_share => ⟨.SVY_CFG, 1, 0, .rw, 1⟩
  | .SVY_CFG_ie => ⟨.SVY_CFG, 2, 2, .rw, 0⟩
  | .SVY_SRC_addr => ⟨.SVY_SRC, 63, 3, .rw, 0⟩
  | .SVY_LEN_len => ⟨.SVY_LEN, 20, 0, .rw, 0⟩
  | .SVY_STAT_phase => ⟨.SVY_STAT, 2, 0, .ro, 0⟩
  | .SVY_STAT_err => ⟨.SVY_STAT, 15, 8, .ro, 0⟩
  | .SVY_STAT_done => ⟨.SVY_STAT, 16, 16, .w1c, 0⟩
  | .SVY_STAT_mgmt => ⟨.SVY_STAT, 17, 17, .ro, 0⟩
  | .SVY_STAT_erroff => ⟨.SVY_STAT, 63, 32, .ro, 0⟩
  | .SVY_GEN_gen => ⟨.SVY_GEN, 63, 0, .ro, 0⟩
  | .SVY_TIME_us => ⟨.SVY_TIME, 31, 0, .ro, 0⟩
  | .SVY_PEND_gen => ⟨.SVY_PEND, 63, 0, .ro, 0⟩
  | .CTX_ARG_arg => ⟨.CTX_ARG, 63, 0, .rw, 0⟩
  | .CTX_CMD_op => ⟨.CTX_CMD, 7, 0, .rw, 0⟩
  | .CTX_CMD_go => ⟨.CTX_CMD, 8, 8, .wo, 0⟩
  | .CTX_CMD_busy => ⟨.CTX_CMD, 9, 9, .ro, 0⟩
  | .CTX_CMD_err => ⟨.CTX_CMD, 23, 16, .ro, 0⟩
  | .CTX_RES_res => ⟨.CTX_RES, 63, 0, .ro, 0⟩
  | .FEN_ARG_arg => ⟨.FEN_ARG, 63, 0, .rw, 0⟩
  | .FEN_CMD_op => ⟨.FEN_CMD, 7, 0, .rw, 0⟩
  | .FEN_CMD_go => ⟨.FEN_CMD, 8, 8, .wo, 0⟩
  | .FEN_CMD_busy => ⟨.FEN_CMD, 9, 9, .ro, 0⟩
  | .FEN_CMD_err => ⟨.FEN_CMD, 23, 16, .ro, 0⟩
  | .FEN_RES_res => ⟨.FEN_RES, 63, 0, .ro, 0⟩
  | .XLT_ARG_arg => ⟨.XLT_ARG, 63, 0, .rw, 0⟩
  | .XLT_CMD_op => ⟨.XLT_CMD, 7, 0, .rw, 0⟩
  | .XLT_CMD_go => ⟨.XLT_CMD, 8, 8, .wo, 0⟩
  | .XLT_CMD_busy => ⟨.XLT_CMD, 9, 9, .ro, 0⟩
  | .XLT_CMD_err => ⟨.XLT_CMD, 23, 16, .ro, 0⟩
  | .XLT_RES_res => ⟨.XLT_RES, 63, 0, .ro, 0⟩
  | .HTN_ARG_arg => ⟨.HTN_ARG, 63, 0, .rw, 0⟩
  | .HTN_CMD_op => ⟨.HTN_CMD, 7, 0, .rw, 0⟩
  | .HTN_CMD_go => ⟨.HTN_CMD, 8, 8, .wo, 0⟩
  | .HTN_CMD_busy => ⟨.HTN_CMD, 9, 9, .ro, 0⟩
  | .HTN_CMD_err => ⟨.HTN_CMD, 23, 16, .ro, 0⟩
  | .HTN_RES_res => ⟨.HTN_RES, 63, 0, .ro, 0⟩
  | .DSP_STAT_cached => ⟨.DSP_STAT, 12, 0, .ro, 0⟩
  | .DSP_STAT_pinned => ⟨.DSP_STAT, 26, 16, .ro, 0⟩
  | .DSP_INLINE_count => ⟨.DSP_INLINE, 47, 0, .ro, 0⟩
  | .DSP_INLINE_ovf => ⟨.DSP_INLINE, 63, 63, .w1c, 0⟩
  | .DSP_MISS_count => ⟨.DSP_MISS, 47, 0, .ro, 0⟩
  | .DSP_MISS_ovf => ⟨.DSP_MISS, 63, 63, .w1c, 0⟩
  | .DSP_PVIOL_count => ⟨.DSP_PVIOL, 47, 0, .ro, 0⟩
  | .DSP_PVIOL_ovf => ⟨.DSP_PVIOL, 63, 63, .w1c, 0⟩
  | .DSP_PVIOL_LAST_ctx => ⟨.DSP_PVIOL_LAST, 15, 0, .ro, 0⟩
  | .DSP_PVIOL_LAST_func => ⟨.DSP_PVIOL_LAST, 22, 16, .ro, 0⟩
  | .DSP_PVIOL_LAST_haspasid => ⟨.DSP_PVIOL_LAST, 23, 23, .ro, 0⟩
  | .DSP_PVIOL_LAST_pasid => ⟨.DSP_PVIOL_LAST, 43, 24, .ro, 0⟩
  | .DSP_PVIOL_LAST_cause => ⟨.DSP_PVIOL_LAST, 47, 44, .ro, 0⟩
  | .DSP_PVIOL_LAST_valid => ⟨.DSP_PVIOL_LAST, 63, 63, .w1c, 0⟩
  | .DSP_APR_prt => ⟨.DSP_APR, 4, 0, .rw, 0⟩
  | .DSP_APR_base => ⟨.DSP_APR, 33, 16, .rw, 0⟩
  | .DSP_DLOG_BASE_addr => ⟨.DSP_DLOG_BASE, 63, 12, .ro, 0⟩
  | .DSP_DLOG_NEXT_addr => ⟨.DSP_DLOG_NEXT, 63, 12, .rw, 0⟩
  | .DSP_DLOG_RANGE_addr => ⟨.DSP_DLOG_RANGE, 63, 12, .rw, 0⟩
  | .DSP_DLOG_LEN_pages => ⟨.DSP_DLOG_LEN, 31, 0, .rw, 0⟩
  | .DSP_DLOG_CTRL_en => ⟨.DSP_DLOG_CTRL, 0, 0, .rw, 0⟩
  | .DSP_DLOG_CTRL_swap => ⟨.DSP_DLOG_CTRL, 1, 1, .wo, 0⟩
  | .DSP_DLOG_CTRL_swapped => ⟨.DSP_DLOG_CTRL, 2, 2, .w1c, 0⟩
  | .DSP_DLOG_CTRL_pfilt => ⟨.DSP_DLOG_CTRL, 3, 3, .rw, 0⟩
  | .DSP_DLOG_CTRL_pasid => ⟨.DSP_DLOG_CTRL, 23, 4, .rw, 0⟩
  | .DSP_DLOG_MISS_count => ⟨.DSP_DLOG_MISS, 47, 0, .ro, 0⟩
  | .DSP_DLOG_MISS_ovf => ⟨.DSP_DLOG_MISS, 63, 63, .w1c, 0⟩
  | .DSP_MLOG_BASE_en => ⟨.DSP_MLOG_BASE, 0, 0, .rw, 0⟩
  | .DSP_MLOG_BASE_addr => ⟨.DSP_MLOG_BASE, 63, 12, .ro, 0⟩
  | .DSP_MLOG_NEXT_addr => ⟨.DSP_MLOG_NEXT, 63, 12, .rw, 0⟩
  | .DSP_MLOG_CTRL_swap => ⟨.DSP_MLOG_CTRL, 1, 1, .wo, 0⟩
  | .DSP_MLOG_CTRL_swapped => ⟨.DSP_MLOG_CTRL, 2, 2, .w1c, 0⟩
  | .DSP_SCHED_backfill => ⟨.DSP_SCHED, 0, 0, .rw, 0⟩
  | .DSP_SCHED_orphan => ⟨.DSP_SCHED, 1, 1, .ro, 0⟩
  | .DSP_DLCNT_count => ⟨.DSP_DLCNT, 47, 0, .ro, 0⟩
  | .DSP_DLCNT_ovf => ⟨.DSP_DLCNT, 63, 63, .w1c, 0⟩
  | .DSP_DL_CTRL_miss_ie => ⟨.DSP_DL_CTRL, 0, 0, .rw, 0⟩
  | .DSP_DL_CTRL_ovf_ie => ⟨.DSP_DL_CTRL, 1, 1, .rw, 0⟩
  | .DSP_DL_CTRL_vec => ⟨.DSP_DL_CTRL, 12, 2, .rw, 0⟩
  | .DSP_DL_MISS_count => ⟨.DSP_DL_MISS, 47, 0, .ro, 0⟩
  | .DSP_DL_MISS_ovf => ⟨.DSP_DL_MISS, 63, 63, .w1c, 0⟩
  | .DSP_DL_LAST_ctx => ⟨.DSP_DL_LAST, 15, 0, .ro, 0⟩
  | .DSP_DL_LAST_slot => ⟨.DSP_DL_LAST, 19, 16, .ro, 0⟩
  | .DSP_DL_LAST_started => ⟨.DSP_DL_LAST, 20, 20, .ro, 0⟩
  | .DSP_DL_LAST_fb => ⟨.DSP_DL_LAST, 21, 21, .ro, 0⟩
  | .DSP_DL_LAST_fb_empty => ⟨.DSP_DL_LAST, 22, 22, .ro, 0⟩
  | .DSP_DL_LAST_valid => ⟨.DSP_DL_LAST, 63, 63, .w1c, 0⟩
  | .DSP_ACCT_cycles => ⟨.DSP_ACCT, 63, 0, .ro, 0⟩
  | .DSP_ACCT_STAT_sat => ⟨.DSP_ACCT_STAT, 0, 0, .ro, 0⟩
  | .DSP_ACCT_STAT_ctx_sat => ⟨.DSP_ACCT_STAT, 1, 1, .ro, 0⟩
  | .DSP_REG_STAT_miss => ⟨.DSP_REG_STAT, 3, 0, .w1c, 0⟩
  | .DSP_REG_STAT_ie => ⟨.DSP_REG_STAT, 7, 4, .rw, 0⟩
  | .DSP_REG_STAT_lvl => ⟨.DSP_REG_STAT, 15, 8, .ro, 0⟩
  | .DSP_REG_STAT_vec => ⟨.DSP_REG_STAT, 26, 16, .rw, 0⟩
  | .DSP_PROG_CMD_op => ⟨.DSP_PROG_CMD, 7, 0, .rw, 0⟩
  | .DSP_PROG_CMD_go => ⟨.DSP_PROG_CMD, 8, 8, .wo, 0⟩
  | .DSP_PROG_CMD_busy => ⟨.DSP_PROG_CMD, 9, 9, .ro, 0⟩
  | .DSP_PROG_CMD_err => ⟨.DSP_PROG_CMD, 23, 16, .ro, 0⟩
  | .DSP_REG_HOLD_count => ⟨.DSP_REG_HOLD, 47, 0, .ro, 0⟩
  | .DSP_REG_HOLD_ovf => ⟨.DSP_REG_HOLD, 63, 63, .w1c, 0⟩
  | .DSP_REG_LAT_ns => ⟨.DSP_REG_LAT, 15, 0, .ro, 0⟩
  | .DSP_PROG_ARG_arg => ⟨.DSP_PROG_ARG, 63, 0, .rw, 0⟩
  | .DSP_PROG_RES_res => ⟨.DSP_PROG_RES, 63, 0, .ro, 0⟩
  | .XLT_IQ_BASE_en => ⟨.XLT_IQ_BASE, 0, 0, .rw, 0⟩
  | .XLT_IQ_BASE_size => ⟨.XLT_IQ_BASE, 4, 1, .rw, 6⟩
  | .XLT_IQ_BASE_vec => ⟨.XLT_IQ_BASE, 15, 5, .rw, 0⟩
  | .XLT_IQ_BASE_addr => ⟨.XLT_IQ_BASE, 63, 16, .rw, 0⟩
  | .XLT_FR_BASE_en => ⟨.XLT_FR_BASE, 0, 0, .rw, 0⟩
  | .XLT_FR_BASE_size => ⟨.XLT_FR_BASE, 4, 1, .rw, 6⟩
  | .XLT_FR_BASE_vec => ⟨.XLT_FR_BASE, 15, 5, .rw, 0⟩
  | .XLT_FR_BASE_addr => ⟨.XLT_FR_BASE, 63, 16, .rw, 0⟩
  | .XLT_IQ_TAIL_idx => ⟨.XLT_IQ_TAIL, 11, 0, .rw, 0⟩
  | .XLT_IQ_HEAD_idx => ⟨.XLT_IQ_HEAD, 11, 0, .ro, 0⟩
  | .XLT_FR_TAIL_idx => ⟨.XLT_FR_TAIL, 11, 0, .ro, 0⟩
  | .XLT_FR_HEAD_idx => ⟨.XLT_FR_HEAD, 11, 0, .rw, 0⟩
  | .XLT_IQ_STAT_err => ⟨.XLT_IQ_STAT, 0, 0, .w1c, 0⟩
  | .XLT_IQ_STAT_code => ⟨.XLT_IQ_STAT, 15, 8, .ro, 0⟩
  | .XLT_FR_CTRL_pri_to => ⟨.XLT_FR_CTRL, 15, 0, .rw, 1000⟩
  | .XLT_FR_STALE_count => ⟨.XLT_FR_STALE, 31, 0, .ro, 0⟩
  | .XLT_WIN_FAULT_addr => ⟨.XLT_WIN_FAULT, 47, 0, .ro, 0⟩
  | .XLT_WIN_FAULT_ctx => ⟨.XLT_WIN_FAULT, 62, 48, .ro, 0⟩
  | .XLT_WIN_FAULT_valid => ⟨.XLT_WIN_FAULT, 63, 63, .w1c, 0⟩
  | .XLT_FAULT_LAST_addr => ⟨.XLT_FAULT_LAST, 47, 0, .ro, 0⟩
  | .XLT_FAULT_LAST_ctx => ⟨.XLT_FAULT_LAST, 62, 48, .ro, 0⟩
  | .XLT_FAULT_LAST_valid => ⟨.XLT_FAULT_LAST, 63, 63, .w1c, 0⟩
  | .HTN_PORT_CTRL_en => ⟨.HTN_PORT_CTRL, 0, 0, .rw, 1⟩
  | .HTN_PORT_CTRL_renego => ⟨.HTN_PORT_CTRL, 1, 1, .wo, 0⟩
  | .HTN_PORT_CTRL_lanes => ⟨.HTN_PORT_CTRL, 7, 4, .rw, 15⟩
  | .HTN_PORT_CTRL_ranks => ⟨.HTN_PORT_CTRL, 25, 8, .rw, 262143⟩
  | .HTN_PORT_STAT_state => ⟨.HTN_PORT_STAT, 2, 0, .ro, 0⟩
  | .HTN_PORT_STAT_rank => ⟨.HTN_PORT_STAT, 7, 3, .ro, 0⟩
  | .HTN_PORT_STAT_lanes => ⟨.HTN_PORT_STAT, 11, 8, .ro, 0⟩
  | .HTN_PORT_STAT_eth => ⟨.HTN_PORT_STAT, 12, 12, .ro, 0⟩
  | .HTN_PORT_STAT_bound => ⟨.HTN_PORT_STAT, 13, 13, .ro, 0⟩
  | .HTN_PORT_STAT_prt => ⟨.HTN_PORT_STAT, 18, 14, .ro, 0⟩
  | .HTN_PORT_STAT_down => ⟨.HTN_PORT_STAT, 19, 19, .w1c, 0⟩
  | .HTN_AN_ADV_ability => ⟨.HTN_AN_ADV, 31, 0, .ro, 0⟩
  | .HTN_AN_LP_ability => ⟨.HTN_AN_LP, 31, 0, .ro, 0⟩
  | .HTN_FEC_CE_count => ⟨.HTN_FEC_CE, 47, 0, .ro, 0⟩
  | .HTN_FEC_CE_ovf => ⟨.HTN_FEC_CE, 63, 63, .w1c, 0⟩
  | .HTN_FEC_UE_count => ⟨.HTN_FEC_UE, 47, 0, .ro, 0⟩
  | .HTN_FEC_UE_ovf => ⟨.HTN_FEC_UE, 63, 63, .w1c, 0⟩
  | .HTN_LINK_RETRY_count => ⟨.HTN_LINK_RETRY, 47, 0, .ro, 0⟩
  | .HTN_LINK_RETRY_ovf => ⟨.HTN_LINK_RETRY, 63, 63, .w1c, 0⟩
  | .HTN_TP_RETX_count => ⟨.HTN_TP_RETX, 47, 0, .ro, 0⟩
  | .HTN_TP_RETX_ovf => ⟨.HTN_TP_RETX, 63, 63, .w1c, 0⟩
  | .HTN_TP_TIMEOUT_count => ⟨.HTN_TP_TIMEOUT, 47, 0, .ro, 0⟩
  | .HTN_TP_TIMEOUT_ovf => ⟨.HTN_TP_TIMEOUT, 63, 63, .w1c, 0⟩
  | .HTN_TP_DUP_count => ⟨.HTN_TP_DUP, 47, 0, .ro, 0⟩
  | .HTN_TP_DUP_ovf => ⟨.HTN_TP_DUP, 63, 63, .w1c, 0⟩
  | .HTN_TP_STALE_count => ⟨.HTN_TP_STALE, 47, 0, .ro, 0⟩
  | .HTN_TP_STALE_ovf => ⟨.HTN_TP_STALE, 63, 63, .w1c, 0⟩
  | .HTN_TP_MOVED_count => ⟨.HTN_TP_MOVED, 47, 0, .ro, 0⟩
  | .HTN_TP_MOVED_ovf => ⟨.HTN_TP_MOVED, 63, 63, .w1c, 0⟩
  | .HTN_RX_BP_count => ⟨.HTN_RX_BP, 47, 0, .ro, 0⟩
  | .HTN_RX_BP_ovf => ⟨.HTN_RX_BP, 63, 63, .w1c, 0⟩
  | .HTN_WIN_REFUSED_count => ⟨.HTN_WIN_REFUSED, 47, 0, .ro, 0⟩
  | .HTN_WIN_REFUSED_ovf => ⟨.HTN_WIN_REFUSED, 63, 63, .w1c, 0⟩
  | .HTN_REDUCE_DROP_count => ⟨.HTN_REDUCE_DROP, 47, 0, .ro, 0⟩
  | .HTN_REDUCE_DROP_ovf => ⟨.HTN_REDUCE_DROP, 63, 63, .w1c, 0⟩
  | .HTN_RX_STAT_flits => ⟨.HTN_RX_STAT, 13, 0, .ro, 0⟩
  | .HTN_RX_STAT_sump => ⟨.HTN_RX_STAT, 55, 32, .ro, 0⟩
  | .HTN_RX_STAT_bp => ⟨.HTN_RX_STAT, 63, 63, .ro, 0⟩
  | .HTN_SUMP_base => ⟨.HTN_SUMP, 31, 0, .ro, 0⟩
  | .HTN_SUMP_frames => ⟨.HTN_SUMP, 63, 32, .ro, 0⟩
  | .HTN_TMR_req => ⟨.HTN_TMR, 7, 0, .rw, 5⟩
  | .HTN_TMR_reissues => ⟨.HTN_TMR, 11, 8, .rw, 3⟩
  | .HTN_TMR_rto => ⟨.HTN_TMR, 19, 12, .rw, 8⟩
  | .HTN_TP_FAIL_rid => ⟨.HTN_TP_FAIL, 31, 0, .ro, 0⟩
  | .HTN_TP_FAIL_sess => ⟨.HTN_TP_FAIL, 41, 32, .ro, 0⟩
  | .HTN_TP_FAIL_cause => ⟨.HTN_TP_FAIL, 43, 42, .ro, 0⟩
  | .HTN_TP_FAIL_valid => ⟨.HTN_TP_FAIL, 63, 63, .w1c, 0⟩
  | .HTN_ETH_CFG_ipv6 => ⟨.HTN_ETH_CFG, 0, 0, .rw, 1⟩
  | .HTN_ETH_CFG_vlan => ⟨.HTN_ETH_CFG, 1, 1, .rw, 0⟩
  | .HTN_ETH_CFG_vid => ⟨.HTN_ETH_CFG, 13, 2, .rw, 0⟩
  | .HTN_ETH_CFG_pcp => ⟨.HTN_ETH_CFG, 16, 14, .rw, 0⟩
  | .HTN_ETH_CFG_dscp => ⟨.HTN_ETH_CFG, 22, 17, .rw, 0⟩
  | .HTN_ETH_CFG_ecn => ⟨.HTN_ETH_CFG, 23, 23, .rw, 1⟩
  | .HTN_ETH_CFG_mtu => ⟨.HTN_ETH_CFG, 31, 24, .rw, 36⟩
  | .HTN_ETH_MAC_mac => ⟨.HTN_ETH_MAC, 47, 0, .rw, 0⟩
  | .HTN_ETH_MAC_udp => ⟨.HTN_ETH_MAC, 63, 48, .rw, 48640⟩
  | .HTN_ETH_IP0_value => ⟨.HTN_ETH_IP0, 63, 0, .rw, 0⟩
  | .HTN_ETH_IP1_value => ⟨.HTN_ETH_IP1, 63, 0, .rw, 0⟩
  | .HTN_NBR_PEER_value => ⟨.HTN_NBR_PEER, 63, 0, .rw, 0⟩
  | .HTN_NBR_IP0_value => ⟨.HTN_NBR_IP0, 63, 0, .rw, 0⟩
  | .HTN_NBR_IP1_value => ⟨.HTN_NBR_IP1, 63, 0, .rw, 0⟩
  | .HTN_NBR_MAC_mac => ⟨.HTN_NBR_MAC, 47, 0, .rw, 0⟩
  | .HTN_NBR_MAC_valid => ⟨.HTN_NBR_MAC, 63, 63, .rw, 0⟩
  | .PWR_PKG_limit => ⟨.PWR_PKG, 11, 0, .ro, 2200⟩
  | .PWR_PKG_avg => ⟨.PWR_PKG, 27, 16, .ro, 0⟩
  | .PWR_PKG_peak => ⟨.PWR_PKG, 43, 32, .rc, 0⟩
  | .PWR_REF_STAT_lost => ⟨.PWR_REF_STAT, 3, 0, .w1c, 0⟩
  | .PWR_HALL_STAT_mode => ⟨.PWR_HALL_STAT, 0, 0, .ro, 0⟩
  | .PWR_HALL_STAT_set => ⟨.PWR_HALL_STAT, 5, 1, .ro, 15⟩
  | .PWR_HALL_STAT_cur => ⟨.PWR_HALL_STAT, 10, 6, .ro, 0⟩
  | .PWR_HALL_STAT_target => ⟨.PWR_HALL_STAT, 15, 11, .ro, 0⟩
  | .PWR_HALL_STAT_stretch => ⟨.PWR_HALL_STAT, 16, 16, .ro, 0⟩
  | .PWR_HALL_STAT_defer => ⟨.PWR_HALL_STAT, 17, 17, .ro, 0⟩
  | .PWR_HALL_STAT_alert => ⟨.PWR_HALL_STAT, 18, 18, .ro, 0⟩
  | .PWR_HALL_STAT_throttle => ⟨.PWR_HALL_STAT, 19, 19, .ro, 0⟩
  | .PWR_HALL_STAT_clamp => ⟨.PWR_HALL_STAT, 23, 20, .ro, 0⟩
  | .PWR_HALL_STAT_vr_err => ⟨.PWR_HALL_STAT, 24, 24, .w1c, 0⟩
  | .PWR_HALL_DEPART_count => ⟨.PWR_HALL_DEPART, 47, 0, .ro, 0⟩
  | .PWR_HALL_DEPART_ovf => ⟨.PWR_HALL_DEPART, 63, 63, .w1c, 0⟩
  | .PWR_ALERT_CNT_count => ⟨.PWR_ALERT_CNT, 47, 0, .ro, 0⟩
  | .PWR_ALERT_CNT_ovf => ⟨.PWR_ALERT_CNT, 63, 63, .w1c, 0⟩
  | .PWR_THROTTLE_CNT_count => ⟨.PWR_THROTTLE_CNT, 47, 0, .ro, 0⟩
  | .PWR_THROTTLE_CNT_ovf => ⟨.PWR_THROTTLE_CNT, 63, 63, .w1c, 0⟩
  | .PWR_VTAB_mv => ⟨.PWR_VTAB, 9, 0, .ro, 0⟩
  | .PWR_VTAB_fmax => ⟨.PWR_VTAB, 20, 16, .ro, 15⟩
  | .PWR_GAL_STAT_eff => ⟨.PWR_GAL_STAT, 4, 0, .ro, 0⟩
  | .PWR_GAL_STAT_stretch => ⟨.PWR_GAL_STAT, 5, 5, .ro, 0⟩
  | .PWR_GAL_STAT_phase => ⟨.PWR_GAL_STAT, 11, 6, .ro, 0⟩
  | .PWR_GAL_STRETCH_count => ⟨.PWR_GAL_STRETCH, 47, 0, .ro, 0⟩
  | .PWR_GAL_STRETCH_ovf => ⟨.PWR_GAL_STRETCH, 63, 63, .w1c, 0⟩
  | .PWR_TEMP_temp => ⟨.PWR_TEMP, 11, 0, .ro, 0⟩
  | .PWR_TEMP_valid => ⟨.PWR_TEMP, 12, 12, .ro, 0⟩
  | .PWR_THERM_warn => ⟨.PWR_THERM, 7, 0, .rw, 95⟩
  | .PWR_THERM_warn_ie => ⟨.PWR_THERM, 8, 8, .rw, 0⟩
  | .PWR_THERM_warned => ⟨.PWR_THERM, 9, 9, .w1c, 0⟩
  | .PWR_THERM_hbm_hot => ⟨.PWR_THERM, 17, 10, .w1c, 0⟩
  | .TRC_SNAPSHOT_go => ⟨.TRC_SNAPSHOT, 0, 0, .wo, 0⟩
  | .TRC_SNAPSHOT_done => ⟨.TRC_SNAPSHOT, 1, 1, .ro, 0⟩
  | .TRC_SNAP_DOM_value => ⟨.TRC_SNAP_DOM, 63, 0, .ro, 0⟩
  | .TRC_SNAP_DL_value => ⟨.TRC_SNAP_DL, 63, 0, .ro, 0⟩
  | .RAS_STAT_fault => ⟨.RAS_STAT, 0, 0, .ro, 0⟩
  | .RAS_STAT_dump => ⟨.RAS_STAT, 1, 1, .ro, 0⟩
  | .RAS_STAT_prt_rst => ⟨.RAS_STAT, 2, 2, .ro, 0⟩
  | .RAS_STAT_cycle => ⟨.RAS_STAT, 3, 3, .ro, 0⟩
  | .RAS_EVQ_BASE_en => ⟨.RAS_EVQ_BASE, 0, 0, .rw, 0⟩
  | .RAS_EVQ_BASE_size => ⟨.RAS_EVQ_BASE, 4, 1, .rw, 6⟩
  | .RAS_EVQ_BASE_vec => ⟨.RAS_EVQ_BASE, 15, 5, .rw, 0⟩
  | .RAS_EVQ_BASE_addr => ⟨.RAS_EVQ_BASE, 63, 16, .rw, 0⟩
  | .RAS_ESC_CTRL_auto_prt => ⟨.RAS_ESC_CTRL, 0, 0, .rw, 1⟩
  | .RAS_ESC_CTRL_auto_chip => ⟨.RAS_ESC_CTRL, 1, 1, .rw, 1⟩
  | .RAS_ESC_CTRL_auto_cycle => ⟨.RAS_ESC_CTRL, 2, 2, .rw, 1⟩
  | .RAS_ESC_CTRL_dump_prt => ⟨.RAS_ESC_CTRL, 3, 3, .rw, 0⟩
  | .RAS_ESC_CTRL_dump_chip => ⟨.RAS_ESC_CTRL, 4, 4, .rw, 1⟩
  | .RAS_RESET_prt => ⟨.RAS_RESET, 4, 0, .rw, 0⟩
  | .RAS_RESET_prt_go => ⟨.RAS_RESET, 5, 5, .wo, 0⟩
  | .RAS_RESET_chip_go => ⟨.RAS_RESET, 6, 6, .wo, 0⟩
  | .RAS_RESET_cycle_go => ⟨.RAS_RESET, 7, 7, .wo, 0⟩
  | .RAS_LOST_gal => ⟨.RAS_LOST, 31, 0, .ro, 0⟩
  | .RAS_DUMP_CTRL_go => ⟨.RAS_DUMP_CTRL, 0, 0, .wo, 0⟩
  | .RAS_DUMP_CTRL_copy => ⟨.RAS_DUMP_CTRL, 1, 1, .wo, 0⟩
  | .RAS_DUMP_STAT_state => ⟨.RAS_DUMP_STAT, 1, 0, .ro, 0⟩
  | .RAS_DUMP_STAT_bounded => ⟨.RAS_DUMP_STAT, 2, 2, .ro, 0⟩
  | .RAS_DUMP_STAT_copied => ⟨.RAS_DUMP_STAT, 3, 3, .w1c, 0⟩
  | .RAS_DUMP_STAT_copy_err => ⟨.RAS_DUMP_STAT, 4, 4, .w1c, 0⟩
  | .RAS_DUMP_STAT_trigger => ⟨.RAS_DUMP_STAT, 15, 8, .ro, 0⟩
  | .RAS_DUMP_STAT_unread => ⟨.RAS_DUMP_STAT, 31, 16, .ro, 0⟩
  | .RAS_DUMP_STAT_len => ⟨.RAS_DUMP_STAT, 63, 32, .ro, 0⟩
  | .RAS_DUMP_DST_addr => ⟨.RAS_DUMP_DST, 63, 12, .rw, 0⟩
  | .RAS_EVQ_TAIL_idx => ⟨.RAS_EVQ_TAIL, 11, 0, .ro, 0⟩
  | .RAS_EVQ_HEAD_idx => ⟨.RAS_EVQ_HEAD, 11, 0, .rw, 0⟩
  | .RAS_DUMP_LOST_count => ⟨.RAS_DUMP_LOST, 47, 0, .ro, 0⟩
  | .RAS_DUMP_LOST_ovf => ⟨.RAS_DUMP_LOST, 63, 63, .w1c, 0⟩
  | .RAS_CNT_CTX_count => ⟨.RAS_CNT_CTX, 47, 0, .ro, 0⟩
  | .RAS_CNT_CTX_ovf => ⟨.RAS_CNT_CTX, 63, 63, .w1c, 0⟩
  | .RAS_CNT_UNIT_count => ⟨.RAS_CNT_UNIT, 47, 0, .ro, 0⟩
  | .RAS_CNT_UNIT_ovf => ⟨.RAS_CNT_UNIT, 63, 63, .w1c, 0⟩
  | .RAS_CNT_PRT_count => ⟨.RAS_CNT_PRT, 47, 0, .ro, 0⟩
  | .RAS_CNT_PRT_ovf => ⟨.RAS_CNT_PRT, 63, 63, .w1c, 0⟩
  | .RAS_CNT_CHIP_count => ⟨.RAS_CNT_CHIP, 47, 0, .ro, 0⟩
  | .RAS_CNT_CHIP_ovf => ⟨.RAS_CNT_CHIP, 63, 63, .w1c, 0⟩
  | .RAS_CNT_DROP_count => ⟨.RAS_CNT_DROP, 47, 0, .ro, 0⟩
  | .RAS_CNT_DROP_ovf => ⟨.RAS_CNT_DROP, 63, 63, .w1c, 0⟩
  | .RAS_CTX_WDOG_ms => ⟨.RAS_CTX_WDOG, 15, 0, .rw, 10⟩
  | .EMU_HW_STAT_fw_up => ⟨.EMU_HW_STAT, 0, 0, .ro, 0⟩
  | .EMU_HW_STAT_takeover => ⟨.EMU_HW_STAT, 1, 1, .ro, 0⟩
  | .EMU_HW_STAT_standby => ⟨.EMU_HW_STAT, 2, 2, .ro, 0⟩
  | .EMU_HW_STAT_lviol => ⟨.EMU_HW_STAT, 3, 3, .w1c, 0⟩
  | .EMU_HW_STAT_wq => ⟨.EMU_HW_STAT, 10, 4, .ro, 0⟩
  | .EMU_LEASE_id => ⟨.EMU_LEASE, 31, 0, .wo, 0⟩
  | .EMU_LEASE_claim => ⟨.EMU_LEASE, 32, 32, .wo, 0⟩
  | .EMU_LEASE_rings => ⟨.EMU_LEASE, 33, 33, .wo, 0⟩
  | .EMU_LEASE_HOLDER_holder => ⟨.EMU_LEASE_HOLDER, 31, 0, .ro, 0⟩
  | .EMU_LEASE_CFG_ms => ⟨.EMU_LEASE_CFG, 15, 0, .rw, 2000⟩
  | .EMU_ORPHAN_orphan => ⟨.EMU_ORPHAN, 0, 0, .ro, 1⟩
  | .EMU_ORPHAN_expired => ⟨.EMU_ORPHAN, 1, 1, .ro, 0⟩
  | .EMU_ORPHAN_dlog => ⟨.EMU_ORPHAN, 47, 16, .ro, 0⟩
  | .EMU_WDROP_count => ⟨.EMU_WDROP, 47, 0, .ro, 0⟩
  | .EMU_WDROP_ovf => ⟨.EMU_WDROP, 63, 63, .w1c, 0⟩
  | .EMU_MODE_mode => ⟨.EMU_MODE, 1, 0, .ro, 0⟩
  | .EMU_MODE_cause => ⟨.EMU_MODE, 9, 2, .ro, 0⟩
  | .EMU_IFLEVEL_hil => ⟨.EMU_IFLEVEL, 15, 0, .ro, 256⟩
  | .EMU_FW_VER_version => ⟨.EMU_FW_VER, 30, 0, .ro, 0⟩
  | .EMU_VIS_vis => ⟨.EMU_VIS, 0, 0, .ro, 0⟩
  | .EMU_KRL_RT_krl => ⟨.EMU_KRL_RT, 15, 0, .ro, 1⟩
  | .EMU_KRL_KP_krl => ⟨.EMU_KRL_KP, 15, 0, .ro, 1⟩
  | .EMU_LOG_BASE_addr => ⟨.EMU_LOG_BASE, 30, 0, .rw, 0⟩
  | .EMU_LOG_CFG_en => ⟨.EMU_LOG_CFG, 0, 0, .rw, 0⟩
  | .EMU_LOG_CFG_size => ⟨.EMU_LOG_CFG, 4, 1, .rw, 6⟩
  | .EMU_LOG_HEAD_idx => ⟨.EMU_LOG_HEAD, 17, 0, .rw, 0⟩
  | .EMU_LOG_TAIL_idx => ⟨.EMU_LOG_TAIL, 17, 0, .ro, 0⟩
  | .EMU_TRACE_mask => ⟨.EMU_TRACE, 30, 0, .rw, 0⟩
  | .EMU_CMD_seq => ⟨.EMU_CMD, 7, 0, .rw, 0⟩
  | .EMU_CMD_op => ⟨.EMU_CMD, 15, 8, .rw, 0⟩
  | .EMU_FW_DIGEST_half => ⟨.EMU_FW_DIGEST, 15, 0, .ro, 0⟩
  | .SEC_LC_state => ⟨.SEC_LC, 2, 0, .ro, 0⟩
  | .SEC_LC_subst => ⟨.SEC_LC, 3, 3, .ro, 0⟩
  | .SEC_LC_dbg_cnt => ⟨.SEC_LC, 7, 4, .ro, 0⟩
  | .SEC_LC_prior => ⟨.SEC_LC, 10, 8, .ro, 0⟩
  | .SEC_LC_lc_left => ⟨.SEC_LC, 17, 11, .ro, 64⟩
  | .SEC_STAT_tamper_boot => ⟨.SEC_STAT, 0, 0, .ro, 0⟩
  | .SEC_STAT_tamper_run => ⟨.SEC_STAT, 1, 1, .ro, 0⟩
  | .SEC_STAT_ks_err => ⟨.SEC_STAT, 2, 2, .ro, 0⟩
  | .SEC_STAT_shadow => ⟨.SEC_STAT, 3, 3, .ro, 0⟩
  | .SEC_STAT_swap_busy => ⟨.SEC_STAT, 4, 4, .ro, 0⟩
  | .SEC_STAT_drbg_err => ⟨.SEC_STAT, 5, 5, .ro, 0⟩
  | .SEC_STAT_cert_err => ⟨.SEC_STAT, 6, 6, .ro, 0⟩
  | .SEC_IDPUB_key => ⟨.SEC_IDPUB, 63, 0, .ro, 0⟩
  | .SEC_OWNER_KID_kid => ⟨.SEC_OWNER_KID, 63, 0, .ro, 0⟩
  | .SEC_OWNER_SHADOW_KID_kid => ⟨.SEC_OWNER_SHADOW_KID, 63, 0, .ro, 0⟩
  | .SEC_FW_KID_kid => ⟨.SEC_FW_KID, 63, 0, .ro, 0⟩
  | .SEC_SLOT_USE_mem => ⟨.SEC_SLOT_USE, 6, 0, .ro, 0⟩
  | .SEC_SLOT_USE_ide => ⟨.SEC_SLOT_USE, 15, 8, .ro, 0⟩
  | .SEC_SLOT_USE_link => ⟨.SEC_SLOT_USE, 27, 16, .ro, 0⟩
  | .SEC_SLOT_USE_retiring => ⟨.SEC_SLOT_USE, 44, 32, .ro, 0⟩
  | .SEC_SLOT_USE_waits => ⟨.SEC_SLOT_USE, 63, 48, .ro, 0⟩
  | .SEC_KEY_STALE_count => ⟨.SEC_KEY_STALE, 47, 0, .ro, 0⟩
  | .SEC_KEY_STALE_ovf => ⟨.SEC_KEY_STALE, 63, 63, .w1c, 0⟩
  | .SEC_PRT_KEY_slot => ⟨.SEC_PRT_KEY, 11, 0, .ro, 0⟩
  | .SEC_PRT_KEY_gen => ⟨.SEC_PRT_KEY, 15, 12, .ro, 0⟩
  | .SEC_PRT_KEY_state => ⟨.SEC_PRT_KEY, 17, 16, .ro, 0⟩
  | .SEC_PRT_KEY_conf => ⟨.SEC_PRT_KEY, 18, 18, .ro, 0⟩
  | .SEC_TDI_state => ⟨.SEC_TDI, 2, 0, .ro, 0⟩
  | .SEC_TDI_cause => ⟨.SEC_TDI, 15, 8, .ro, 0⟩
  | .SEC_TDI_prt => ⟨.SEC_TDI, 47, 16, .ro, 0⟩
  | .DEV_ID_product => ⟨.DEV_ID, 15, 0, .ro, 20630⟩
  | .DEV_ID_step_letter => ⟨.DEV_ID, 23, 16, .ro, 0⟩
  | .DEV_ID_step_num => ⟨.DEV_ID, 31, 24, .ro, 0⟩
  | .DEV_COMPAT_LEVEL_level => ⟨.DEV_COMPAT_LEVEL, 15, 0, .ro, 1⟩
  | .DEV_STAT_step => ⟨.DEV_STAT, 3, 0, .ro, 1⟩
  | .DEV_STAT_ready => ⟨.DEV_STAT, 4, 4, .ro, 0⟩
  | .DEV_STAT_svy_err => ⟨.DEV_STAT, 5, 5, .ro, 0⟩
  | .DEV_STAT_hbm_fail => ⟨.DEV_STAT, 6, 6, .ro, 0⟩
  | .DEV_STAT_ddr_fail => ⟨.DEV_STAT, 7, 7, .ro, 0⟩
  | .DEV_STAT_march_fail => ⟨.DEV_STAT, 8, 8, .ro, 0⟩
  | .DEV_BOOT_TIME_cfg_ms => ⟨.DEV_BOOT_TIME, 15, 0, .ro, 0⟩
  | .DEV_BOOT_TIME_ready_ms => ⟨.DEV_BOOT_TIME, 31, 16, .ro, 0⟩

/-- The fields of a register, in the order of its table. -/
def Reg.fields : Reg → List Fld
  | .GAL_SEQ_CTRL => [.GAL_SEQ_CTRL_run, .GAL_SEQ_CTRL_step, .GAL_SEQ_CTRL_wcol_ie, .GAL_SEQ_CTRL_ovf_ie]
  | .GAL_SEQ_STAT => [.GAL_SEQ_STAT_state, .GAL_SEQ_STAT_yreq, .GAL_SEQ_STAT_wcol, .GAL_SEQ_STAT_loops, .GAL_SEQ_STAT_calls]
  | .GAL_SEQ_PC => [.GAL_SEQ_PC_pc]
  | .GAL_SEQ_TRAP => [.GAL_SEQ_TRAP_code, .GAL_SEQ_TRAP_slot, .GAL_SEQ_TRAP_valid, .GAL_SEQ_TRAP_info]
  | .GAL_SEQ_TRAP_PC => [.GAL_SEQ_TRAP_PC_pc]
  | .GAL_SEQ_ISSUE => [.GAL_SEQ_ISSUE_count, .GAL_SEQ_ISSUE_ovf]
  | .GAL_SEQ_STALL => [.GAL_SEQ_STALL_count, .GAL_SEQ_STALL_ovf]
  | .GAL_SEQ_WAIT => [.GAL_SEQ_WAIT_count, .GAL_SEQ_WAIT_ovf]
  | .GAL_SEM_BASE => [.GAL_SEM_BASE_base]
  | .GAL_TASK_WIN => [.GAL_TASK_WIN_base, .GAL_TASK_WIN_limit]
  | .GAL_INT_VEC => [.GAL_INT_VEC_vec]
  | .GAL_DISP_STAT => [.GAL_DISP_STAT_ctx, .GAL_DISP_STAT_loaded, .GAL_DISP_STAT_lc, .GAL_DISP_STAT_susp, .GAL_DISP_STAT_sctx]
  | .GAL_DISP_PRE => [.GAL_DISP_PRE_count, .GAL_DISP_PRE_ovf]
  | .GAL_SPAN => [.GAL_SPAN_pos, .GAL_SPAN_len, .GAL_SPAN_head, .GAL_SPAN_xings]
  | .GAL_ARRAY_STAT => [.GAL_ARRAY_STAT_armed, .GAL_ARRAY_STAT_hum, .GAL_ARRAY_STAT_op, .GAL_ARRAY_STAT_hold, .GAL_ARRAY_STAT_bfull0, .GAL_ARRAY_STAT_bfull1, .GAL_ARRAY_STAT_bload, .GAL_ARRAY_STAT_drain, .GAL_ARRAY_STAT_bands]
  | .GAL_ARRAY_FAULT => [.GAL_ARRAY_FAULT_desc, .GAL_ARRAY_FAULT_seq, .GAL_ARRAY_FAULT_mismatch, .GAL_ARRAY_FAULT_meta, .GAL_ARRAY_FAULT_hold, .GAL_ARRAY_FAULT_addr]
  | .GAL_ARRAY_HOLD => [.GAL_ARRAY_HOLD_count, .GAL_ARRAY_HOLD_ovf]
  | .GAL_ARRAY_CTRL => [.GAL_ARRAY_CTRL_ovf_ie]
  | .GAL_NUM_FLAGS => [.GAL_NUM_FLAGS_inv, .GAL_NUM_FLAGS_dz, .GAL_NUM_FLAGS_ovf, .GAL_NUM_FLAGS_unf, .GAL_NUM_FLAGS_inx, .GAL_NUM_FLAGS_arr_nan, .GAL_NUM_FLAGS_arr_inf, .GAL_NUM_FLAGS_cvt_sat]
  | .GAL_ENG_RING => [.GAL_ENG_RING_base, .GAL_ENG_RING_size, .GAL_ENG_RING_en]
  | .GAL_ENG_PTR => [.GAL_ENG_PTR_head, .GAL_ENG_PTR_tail]
  | .GAL_ENG_STAT => [.GAL_ENG_STAT_state, .GAL_ENG_STAT_cfg_err, .GAL_ENG_STAT_wdog, .GAL_ENG_STAT_relays, .GAL_ENG_STAT_ctx]
  | .GAL_ENG_WDOG => [.GAL_ENG_WDOG_bound, .GAL_ENG_WDOG_wait]
  | .GAL_ENG_DONE => [.GAL_ENG_DONE_count, .GAL_ENG_DONE_ovf]
  | .GAL_ENG_STALE => [.GAL_ENG_STALE_count, .GAL_ENG_STALE_ovf]
  | .GAL_ENG_RST => [.GAL_ENG_RST_reset]
  | .GAL_POOL_CFG => [.GAL_POOL_CFG_geode, .GAL_POOL_CFG_wipe, .GAL_POOL_CFG_wiped, .GAL_POOL_CFG_pcfg_err]
  | .GAL_POOL_PAGER => [.GAL_POOL_PAGER_base, .GAL_POOL_PAGER_pages]
  | .GAL_POOL_CE => [.GAL_POOL_CE_count, .GAL_POOL_CE_ovf]
  | .GAL_POOL_CE_LAST => [.GAL_POOL_CE_LAST_bank, .GAL_POOL_CE_LAST_row, .GAL_POOL_CE_LAST_cw, .GAL_POOL_CE_LAST_rep]
  | .GAL_POOL_CE_CTRL => [.GAL_POOL_CE_CTRL_thr, .GAL_POOL_CE_CTRL_ie]
  | .GAL_POOL_UE => [.GAL_POOL_UE_bank, .GAL_POOL_UE_row, .GAL_POOL_UE_cw, .GAL_POOL_UE_rank, .GAL_POOL_UE_ctx, .GAL_POOL_UE_valid]
  | .GAL_POOL_MARCH => [.GAL_POOL_MARCH_start, .GAL_POOL_MARCH_mode, .GAL_POOL_MARCH_repair, .GAL_POOL_MARCH_state, .GAL_POOL_MARCH_refused, .GAL_POOL_MARCH_aborted]
  | .GAL_POOL_MFAIL => [.GAL_POOL_MFAIL_bank]
  | .GAL_POOL_SPARE => [.GAL_POOL_SPARE_hrows, .GAL_POOL_SPARE_srows, .GAL_POOL_SPARE_hlanes, .GAL_POOL_SPARE_slanes]
  | .GAL_POOL_LOSS => [.GAL_POOL_LOSS_count, .GAL_POOL_LOSS_ovf]
  | .GAL_BANK_OWNER => [.GAL_BANK_OWNER_ctx, .GAL_BANK_OWNER_valid, .GAL_BANK_OWNER_clr, .GAL_BANK_OWNER_busy, .GAL_BANK_OWNER_viol]
  | .MEM_HBM_STAT => [.MEM_HBM_STAT_state, .MEM_HBM_STAT_parity, .MEM_HBM_STAT_bound, .MEM_HBM_STAT_prt]
  | .MEM_DDR_STAT => [.MEM_DDR_STAT_state, .MEM_DDR_STAT_present, .MEM_DDR_STAT_speed, .MEM_DDR_STAT_x8, .MEM_DDR_STAT_ext]
  | .MEM_HBM_CE => [.MEM_HBM_CE_count, .MEM_HBM_CE_ovf]
  | .MEM_DDR_CE => [.MEM_DDR_CE_count, .MEM_DDR_CE_ovf]
  | .MEM_HBM_UE => [.MEM_HBM_UE_line, .MEM_HBM_UE_ctx, .MEM_HBM_UE_recon, .MEM_HBM_UE_valid]
  | .MEM_DDR_UE => [.MEM_DDR_UE_line, .MEM_DDR_UE_ctx, .MEM_DDR_UE_recon, .MEM_DDR_UE_valid]
  | .MEM_HBM_CTRL => [.MEM_HBM_CTRL_thr, .MEM_HBM_CTRL_win, .MEM_HBM_CTRL_ie, .MEM_HBM_CTRL_retire, .MEM_HBM_CTRL_hot, .MEM_HBM_CTRL_scrub]
  | .MEM_DDR_CTRL => [.MEM_DDR_CTRL_thr, .MEM_DDR_CTRL_win, .MEM_DDR_CTRL_ie, .MEM_DDR_CTRL_hot, .MEM_DDR_CTRL_scrub]
  | .MEM_PRT_LAYOUT => [.MEM_PRT_LAYOUT_slices, .MEM_PRT_LAYOUT_gran, .MEM_PRT_LAYOUT_parity, .MEM_PRT_LAYOUT_w, .MEM_PRT_LAYOUT_ext]
  | .MEM_PRT_OWN => [.MEM_PRT_OWN_en, .MEM_PRT_OWN_base]
  | .MEM_OWN_FAULT => [.MEM_OWN_FAULT_frame, .MEM_OWN_FAULT_ctx, .MEM_OWN_FAULT_wr, .MEM_OWN_FAULT_valid]
  | .MEM_OWN_DATA => [.MEM_OWN_DATA_entry]
  | .MEM_OWN_CMD => [.MEM_OWN_CMD_frame, .MEM_OWN_CMD_go, .MEM_OWN_CMD_busy, .MEM_OWN_CMD_err]
  | .PRT_CTRL => [.PRT_CTRL_seal, .PRT_CTRL_conf]
  | .PRT_STAT => [.PRT_STAT_state, .PRT_STAT_relayout, .PRT_STAT_closed, .PRT_STAT_parked, .PRT_STAT_slices]
  | .PRT_SLICES => [.PRT_SLICES_bound, .PRT_SLICES_spare]
  | .PRT_COVER => [.PRT_COVER_cover]
  | .PRT_RELAYOUT => [.PRT_RELAYOUT_wmark]
  | .PRT_GEN => [.PRT_GEN_value]
  | .PRT_MOVED => [.PRT_MOVED_value]
  | .PRT_ORDER => [.PRT_ORDER_gal]
  | .PRT_PGR_HBM => [.PRT_PGR_HBM_base, .PRT_PGR_HBM_frames]
  | .PRT_PGR_FREE => [.PRT_PGR_FREE_hbm, .PRT_PGR_FREE_ddr]
  | .PRT_PGR_WMARK => [.PRT_PGR_WMARK_lowat, .PRT_PGR_WMARK_hiwat]
  | .PRT_SEQ_ARG => [.PRT_SEQ_ARG_ctx, .PRT_SEQ_ARG_fmt, .PRT_SEQ_ARG_hd, .PRT_SEQ_ARG_nkvh, .PRT_SEQ_ARG_class, .PRT_SEQ_ARG_shared, .PRT_SEQ_ARG_cmp]
  | .PRT_SEQ_CMD => [.PRT_SEQ_CMD_handle, .PRT_SEQ_CMD_op, .PRT_SEQ_CMD_go, .PRT_SEQ_CMD_busy, .PRT_SEQ_CMD_err]
  | .PRT_SEQ_INFO => [.PRT_SEQ_INFO_len, .PRT_SEQ_INFO_groups, .PRT_SEQ_INFO_state]
  | .PRT_PGR_SPILL => [.PRT_PGR_SPILL_count, .PRT_PGR_SPILL_ovf]
  | .PRT_PGR_FAULT => [.PRT_PGR_FAULT_cause, .PRT_PGR_FAULT_ctx, .PRT_PGR_FAULT_index, .PRT_PGR_FAULT_valid]
  | .PRT_PGR_DDR => [.PRT_PGR_DDR_base, .PRT_PGR_DDR_frames]
  | .PRT_PGR_FILL => [.PRT_PGR_FILL_count, .PRT_PGR_FILL_ovf]
  | .SVY_CTRL => [.SVY_CTRL_load, .SVY_CTRL_commit, .SVY_CTRL_hold, .SVY_CTRL_abort, .SVY_CTRL_drain]
  | .SVY_CFG => [.SVY_CFG_share, .SVY_CFG_ie]
  | .SVY_SRC => [.SVY_SRC_addr]
  | .SVY_LEN => [.SVY_LEN_len]
  | .SVY_STAT => [.SVY_STAT_phase, .SVY_STAT_err, .SVY_STAT_done, .SVY_STAT_mgmt, .SVY_STAT_erroff]
  | .SVY_GEN => [.SVY_GEN_gen]
  | .SVY_TIME => [.SVY_TIME_us]
  | .SVY_PEND => [.SVY_PEND_gen]
  | .CTX_ARG => [.CTX_ARG_arg]
  | .CTX_CMD => [.CTX_CMD_op, .CTX_CMD_go, .CTX_CMD_busy, .CTX_CMD_err]
  | .CTX_RES => [.CTX_RES_res]
  | .FEN_ARG => [.FEN_ARG_arg]
  | .FEN_CMD => [.FEN_CMD_op, .FEN_CMD_go, .FEN_CMD_busy, .FEN_CMD_err]
  | .FEN_RES => [.FEN_RES_res]
  | .XLT_ARG => [.XLT_ARG_arg]
  | .XLT_CMD => [.XLT_CMD_op, .XLT_CMD_go, .XLT_CMD_busy, .XLT_CMD_err]
  | .XLT_RES => [.XLT_RES_res]
  | .HTN_ARG => [.HTN_ARG_arg]
  | .HTN_CMD => [.HTN_CMD_op, .HTN_CMD_go, .HTN_CMD_busy, .HTN_CMD_err]
  | .HTN_RES => [.HTN_RES_res]
  | .DSP_STAT => [.DSP_STAT_cached, .DSP_STAT_pinned]
  | .DSP_INLINE => [.DSP_INLINE_count, .DSP_INLINE_ovf]
  | .DSP_MISS => [.DSP_MISS_count, .DSP_MISS_ovf]
  | .DSP_PVIOL => [.DSP_PVIOL_count, .DSP_PVIOL_ovf]
  | .DSP_PVIOL_LAST => [.DSP_PVIOL_LAST_ctx, .DSP_PVIOL_LAST_func, .DSP_PVIOL_LAST_haspasid, .DSP_PVIOL_LAST_pasid, .DSP_PVIOL_LAST_cause, .DSP_PVIOL_LAST_valid]
  | .DSP_APR => [.DSP_APR_prt, .DSP_APR_base]
  | .DSP_DLOG_BASE => [.DSP_DLOG_BASE_addr]
  | .DSP_DLOG_NEXT => [.DSP_DLOG_NEXT_addr]
  | .DSP_DLOG_RANGE => [.DSP_DLOG_RANGE_addr]
  | .DSP_DLOG_LEN => [.DSP_DLOG_LEN_pages]
  | .DSP_DLOG_CTRL => [.DSP_DLOG_CTRL_en, .DSP_DLOG_CTRL_swap, .DSP_DLOG_CTRL_swapped, .DSP_DLOG_CTRL_pfilt, .DSP_DLOG_CTRL_pasid]
  | .DSP_DLOG_MISS => [.DSP_DLOG_MISS_count, .DSP_DLOG_MISS_ovf]
  | .DSP_MLOG_BASE => [.DSP_MLOG_BASE_en, .DSP_MLOG_BASE_addr]
  | .DSP_MLOG_NEXT => [.DSP_MLOG_NEXT_addr]
  | .DSP_MLOG_CTRL => [.DSP_MLOG_CTRL_swap, .DSP_MLOG_CTRL_swapped]
  | .DSP_SCHED => [.DSP_SCHED_backfill, .DSP_SCHED_orphan]
  | .DSP_DLCNT => [.DSP_DLCNT_count, .DSP_DLCNT_ovf]
  | .DSP_DL_CTRL => [.DSP_DL_CTRL_miss_ie, .DSP_DL_CTRL_ovf_ie, .DSP_DL_CTRL_vec]
  | .DSP_DL_MISS => [.DSP_DL_MISS_count, .DSP_DL_MISS_ovf]
  | .DSP_DL_LAST => [.DSP_DL_LAST_ctx, .DSP_DL_LAST_slot, .DSP_DL_LAST_started, .DSP_DL_LAST_fb, .DSP_DL_LAST_fb_empty, .DSP_DL_LAST_valid]
  | .DSP_ACCT => [.DSP_ACCT_cycles]
  | .DSP_ACCT_STAT => [.DSP_ACCT_STAT_sat, .DSP_ACCT_STAT_ctx_sat]
  | .DSP_REG_STAT => [.DSP_REG_STAT_miss, .DSP_REG_STAT_ie, .DSP_REG_STAT_lvl, .DSP_REG_STAT_vec]
  | .DSP_PROG_CMD => [.DSP_PROG_CMD_op, .DSP_PROG_CMD_go, .DSP_PROG_CMD_busy, .DSP_PROG_CMD_err]
  | .DSP_REG_HOLD => [.DSP_REG_HOLD_count, .DSP_REG_HOLD_ovf]
  | .DSP_REG_LAT => [.DSP_REG_LAT_ns]
  | .DSP_PROG_ARG => [.DSP_PROG_ARG_arg]
  | .DSP_PROG_RES => [.DSP_PROG_RES_res]
  | .XLT_IQ_BASE => [.XLT_IQ_BASE_en, .XLT_IQ_BASE_size, .XLT_IQ_BASE_vec, .XLT_IQ_BASE_addr]
  | .XLT_FR_BASE => [.XLT_FR_BASE_en, .XLT_FR_BASE_size, .XLT_FR_BASE_vec, .XLT_FR_BASE_addr]
  | .XLT_IQ_TAIL => [.XLT_IQ_TAIL_idx]
  | .XLT_IQ_HEAD => [.XLT_IQ_HEAD_idx]
  | .XLT_FR_TAIL => [.XLT_FR_TAIL_idx]
  | .XLT_FR_HEAD => [.XLT_FR_HEAD_idx]
  | .XLT_IQ_STAT => [.XLT_IQ_STAT_err, .XLT_IQ_STAT_code]
  | .XLT_FR_CTRL => [.XLT_FR_CTRL_pri_to]
  | .XLT_FR_STALE => [.XLT_FR_STALE_count]
  | .XLT_WIN_FAULT => [.XLT_WIN_FAULT_addr, .XLT_WIN_FAULT_ctx, .XLT_WIN_FAULT_valid]
  | .XLT_FAULT_LAST => [.XLT_FAULT_LAST_addr, .XLT_FAULT_LAST_ctx, .XLT_FAULT_LAST_valid]
  | .HTN_PORT_CTRL => [.HTN_PORT_CTRL_en, .HTN_PORT_CTRL_renego, .HTN_PORT_CTRL_lanes, .HTN_PORT_CTRL_ranks]
  | .HTN_PORT_STAT => [.HTN_PORT_STAT_state, .HTN_PORT_STAT_rank, .HTN_PORT_STAT_lanes, .HTN_PORT_STAT_eth, .HTN_PORT_STAT_bound, .HTN_PORT_STAT_prt, .HTN_PORT_STAT_down]
  | .HTN_AN_ADV => [.HTN_AN_ADV_ability]
  | .HTN_AN_LP => [.HTN_AN_LP_ability]
  | .HTN_FEC_CE => [.HTN_FEC_CE_count, .HTN_FEC_CE_ovf]
  | .HTN_FEC_UE => [.HTN_FEC_UE_count, .HTN_FEC_UE_ovf]
  | .HTN_LINK_RETRY => [.HTN_LINK_RETRY_count, .HTN_LINK_RETRY_ovf]
  | .HTN_TP_RETX => [.HTN_TP_RETX_count, .HTN_TP_RETX_ovf]
  | .HTN_TP_TIMEOUT => [.HTN_TP_TIMEOUT_count, .HTN_TP_TIMEOUT_ovf]
  | .HTN_TP_DUP => [.HTN_TP_DUP_count, .HTN_TP_DUP_ovf]
  | .HTN_TP_STALE => [.HTN_TP_STALE_count, .HTN_TP_STALE_ovf]
  | .HTN_TP_MOVED => [.HTN_TP_MOVED_count, .HTN_TP_MOVED_ovf]
  | .HTN_RX_BP => [.HTN_RX_BP_count, .HTN_RX_BP_ovf]
  | .HTN_WIN_REFUSED => [.HTN_WIN_REFUSED_count, .HTN_WIN_REFUSED_ovf]
  | .HTN_REDUCE_DROP => [.HTN_REDUCE_DROP_count, .HTN_REDUCE_DROP_ovf]
  | .HTN_RX_STAT => [.HTN_RX_STAT_flits, .HTN_RX_STAT_sump, .HTN_RX_STAT_bp]
  | .HTN_SUMP => [.HTN_SUMP_base, .HTN_SUMP_frames]
  | .HTN_TMR => [.HTN_TMR_req, .HTN_TMR_reissues, .HTN_TMR_rto]
  | .HTN_TP_FAIL => [.HTN_TP_FAIL_rid, .HTN_TP_FAIL_sess, .HTN_TP_FAIL_cause, .HTN_TP_FAIL_valid]
  | .HTN_ETH_CFG => [.HTN_ETH_CFG_ipv6, .HTN_ETH_CFG_vlan, .HTN_ETH_CFG_vid, .HTN_ETH_CFG_pcp, .HTN_ETH_CFG_dscp, .HTN_ETH_CFG_ecn, .HTN_ETH_CFG_mtu]
  | .HTN_ETH_MAC => [.HTN_ETH_MAC_mac, .HTN_ETH_MAC_udp]
  | .HTN_ETH_IP0 => [.HTN_ETH_IP0_value]
  | .HTN_ETH_IP1 => [.HTN_ETH_IP1_value]
  | .HTN_NBR_PEER => [.HTN_NBR_PEER_value]
  | .HTN_NBR_IP0 => [.HTN_NBR_IP0_value]
  | .HTN_NBR_IP1 => [.HTN_NBR_IP1_value]
  | .HTN_NBR_MAC => [.HTN_NBR_MAC_mac, .HTN_NBR_MAC_valid]
  | .PWR_PKG => [.PWR_PKG_limit, .PWR_PKG_avg, .PWR_PKG_peak]
  | .PWR_REF_STAT => [.PWR_REF_STAT_lost]
  | .PWR_HALL_STAT => [.PWR_HALL_STAT_mode, .PWR_HALL_STAT_set, .PWR_HALL_STAT_cur, .PWR_HALL_STAT_target, .PWR_HALL_STAT_stretch, .PWR_HALL_STAT_defer, .PWR_HALL_STAT_alert, .PWR_HALL_STAT_throttle, .PWR_HALL_STAT_clamp, .PWR_HALL_STAT_vr_err]
  | .PWR_HALL_DEPART => [.PWR_HALL_DEPART_count, .PWR_HALL_DEPART_ovf]
  | .PWR_ALERT_CNT => [.PWR_ALERT_CNT_count, .PWR_ALERT_CNT_ovf]
  | .PWR_THROTTLE_CNT => [.PWR_THROTTLE_CNT_count, .PWR_THROTTLE_CNT_ovf]
  | .PWR_VTAB => [.PWR_VTAB_mv, .PWR_VTAB_fmax]
  | .PWR_GAL_STAT => [.PWR_GAL_STAT_eff, .PWR_GAL_STAT_stretch, .PWR_GAL_STAT_phase]
  | .PWR_GAL_STRETCH => [.PWR_GAL_STRETCH_count, .PWR_GAL_STRETCH_ovf]
  | .PWR_TEMP => [.PWR_TEMP_temp, .PWR_TEMP_valid]
  | .PWR_THERM => [.PWR_THERM_warn, .PWR_THERM_warn_ie, .PWR_THERM_warned, .PWR_THERM_hbm_hot]
  | .TRC_SNAPSHOT => [.TRC_SNAPSHOT_go, .TRC_SNAPSHOT_done]
  | .TRC_SNAP_DOM => [.TRC_SNAP_DOM_value]
  | .TRC_SNAP_DL => [.TRC_SNAP_DL_value]
  | .RAS_STAT => [.RAS_STAT_fault, .RAS_STAT_dump, .RAS_STAT_prt_rst, .RAS_STAT_cycle]
  | .RAS_EVQ_BASE => [.RAS_EVQ_BASE_en, .RAS_EVQ_BASE_size, .RAS_EVQ_BASE_vec, .RAS_EVQ_BASE_addr]
  | .RAS_ESC_CTRL => [.RAS_ESC_CTRL_auto_prt, .RAS_ESC_CTRL_auto_chip, .RAS_ESC_CTRL_auto_cycle, .RAS_ESC_CTRL_dump_prt, .RAS_ESC_CTRL_dump_chip]
  | .RAS_RESET => [.RAS_RESET_prt, .RAS_RESET_prt_go, .RAS_RESET_chip_go, .RAS_RESET_cycle_go]
  | .RAS_LOST => [.RAS_LOST_gal]
  | .RAS_DUMP_CTRL => [.RAS_DUMP_CTRL_go, .RAS_DUMP_CTRL_copy]
  | .RAS_DUMP_STAT => [.RAS_DUMP_STAT_state, .RAS_DUMP_STAT_bounded, .RAS_DUMP_STAT_copied, .RAS_DUMP_STAT_copy_err, .RAS_DUMP_STAT_trigger, .RAS_DUMP_STAT_unread, .RAS_DUMP_STAT_len]
  | .RAS_DUMP_DST => [.RAS_DUMP_DST_addr]
  | .RAS_EVQ_TAIL => [.RAS_EVQ_TAIL_idx]
  | .RAS_EVQ_HEAD => [.RAS_EVQ_HEAD_idx]
  | .RAS_DUMP_LOST => [.RAS_DUMP_LOST_count, .RAS_DUMP_LOST_ovf]
  | .RAS_CNT_CTX => [.RAS_CNT_CTX_count, .RAS_CNT_CTX_ovf]
  | .RAS_CNT_UNIT => [.RAS_CNT_UNIT_count, .RAS_CNT_UNIT_ovf]
  | .RAS_CNT_PRT => [.RAS_CNT_PRT_count, .RAS_CNT_PRT_ovf]
  | .RAS_CNT_CHIP => [.RAS_CNT_CHIP_count, .RAS_CNT_CHIP_ovf]
  | .RAS_CNT_DROP => [.RAS_CNT_DROP_count, .RAS_CNT_DROP_ovf]
  | .RAS_CTX_WDOG => [.RAS_CTX_WDOG_ms]
  | .EMU_HW_STAT => [.EMU_HW_STAT_fw_up, .EMU_HW_STAT_takeover, .EMU_HW_STAT_standby, .EMU_HW_STAT_lviol, .EMU_HW_STAT_wq]
  | .EMU_LEASE => [.EMU_LEASE_id, .EMU_LEASE_claim, .EMU_LEASE_rings]
  | .EMU_LEASE_HOLDER => [.EMU_LEASE_HOLDER_holder]
  | .EMU_LEASE_CFG => [.EMU_LEASE_CFG_ms]
  | .EMU_ORPHAN => [.EMU_ORPHAN_orphan, .EMU_ORPHAN_expired, .EMU_ORPHAN_dlog]
  | .EMU_WDROP => [.EMU_WDROP_count, .EMU_WDROP_ovf]
  | .EMU_MODE => [.EMU_MODE_mode, .EMU_MODE_cause]
  | .EMU_IFLEVEL => [.EMU_IFLEVEL_hil]
  | .EMU_FW_VER => [.EMU_FW_VER_version]
  | .EMU_VIS => [.EMU_VIS_vis]
  | .EMU_KRL_RT => [.EMU_KRL_RT_krl]
  | .EMU_KRL_KP => [.EMU_KRL_KP_krl]
  | .EMU_LOG_BASE => [.EMU_LOG_BASE_addr]
  | .EMU_LOG_CFG => [.EMU_LOG_CFG_en, .EMU_LOG_CFG_size]
  | .EMU_LOG_HEAD => [.EMU_LOG_HEAD_idx]
  | .EMU_LOG_TAIL => [.EMU_LOG_TAIL_idx]
  | .EMU_TRACE => [.EMU_TRACE_mask]
  | .EMU_CMD => [.EMU_CMD_seq, .EMU_CMD_op]
  | .EMU_FW_DIGEST => [.EMU_FW_DIGEST_half]
  | .SEC_LC => [.SEC_LC_state, .SEC_LC_subst, .SEC_LC_dbg_cnt, .SEC_LC_prior, .SEC_LC_lc_left]
  | .SEC_STAT => [.SEC_STAT_tamper_boot, .SEC_STAT_tamper_run, .SEC_STAT_ks_err, .SEC_STAT_shadow, .SEC_STAT_swap_busy, .SEC_STAT_drbg_err, .SEC_STAT_cert_err]
  | .SEC_IDPUB => [.SEC_IDPUB_key]
  | .SEC_OWNER_KID => [.SEC_OWNER_KID_kid]
  | .SEC_OWNER_SHADOW_KID => [.SEC_OWNER_SHADOW_KID_kid]
  | .SEC_FW_KID => [.SEC_FW_KID_kid]
  | .SEC_SLOT_USE => [.SEC_SLOT_USE_mem, .SEC_SLOT_USE_ide, .SEC_SLOT_USE_link, .SEC_SLOT_USE_retiring, .SEC_SLOT_USE_waits]
  | .SEC_KEY_STALE => [.SEC_KEY_STALE_count, .SEC_KEY_STALE_ovf]
  | .SEC_PRT_KEY => [.SEC_PRT_KEY_slot, .SEC_PRT_KEY_gen, .SEC_PRT_KEY_state, .SEC_PRT_KEY_conf]
  | .SEC_TDI => [.SEC_TDI_state, .SEC_TDI_cause, .SEC_TDI_prt]
  | .DEV_ID => [.DEV_ID_product, .DEV_ID_step_letter, .DEV_ID_step_num]
  | .DEV_COMPAT_LEVEL => [.DEV_COMPAT_LEVEL_level]
  | .DEV_STAT => [.DEV_STAT_step, .DEV_STAT_ready, .DEV_STAT_svy_err, .DEV_STAT_hbm_fail, .DEV_STAT_ddr_fail, .DEV_STAT_march_fail]
  | .DEV_BOOT_TIME => [.DEV_BOOT_TIME_cfg_ms, .DEV_BOOT_TIME_ready_ms]

/-- Default watchdog bounds of the nine engines in µs, *Engine watchdogs and stop times* (R133). -/
def engineBoundDefault (e : Nat) : Nat :=
  [100, 20, 200, 20, 200, 10, 200, 200, 50].getD e 0

/-- Typical fused voltages of steps 0 to 17 in mV, *Step and voltage table* (R354). -/
def typicalMv (k : Nat) : Nat :=
  [550, 560, 570, 580, 590, 600, 615, 630, 645, 660, 680, 700, 720, 745, 770, 800, 840, 880].getD k 0

/-- The reset value of instance i of a field. -/
def Fld.resetAt (f : Fld) (i : Nat) : Nat :=
  match f with
  | .GAL_ENG_WDOG_bound => engineBoundDefault (i % 16)
  | .PWR_VTAB_mv => typicalMv (i % 18)
  | f => f.desc.reset

/-- Width of a field in bits. -/
def Fld.width (f : Fld) : Nat := f.desc.hi + 1 - f.desc.lo

/-- The number of a field in the tables above, below 1024. -/
def Fld.code (f : Fld) : Nat := f.ctorIdx

/-- The key under which the state holds instance i of a field. -/
def Fld.key (f : Fld) (i : Nat) : Nat := i * 1024 + f.code

end Sys2Proof.Machine
end

