-- ==== Sys2Proof/Syntax.lean ====
section
/-! DEFINITION. The commands: one constructor of Instr per row of spec/opcode_table.json, in the table's order. The table
gives no operands and no bits, so the operands are those the rules of the row name: the unit that acts, the words a
driver writes, the bytes that arrive. -/

namespace Sys2Proof

open Machine (Fld)

/-- Who issues a register access or a command: a PCI function (0 is the physical function) or management (R232). -/
inductive Src where
  | func (f : Nat)
  | mgmt
  deriving DecidableEq, Repr

/-- The predicate field of a slot (R86). -/
structure Pred where
  p : Fin 16
  neg : Bool
  deriving DecidableEq, Repr

/-- The six slots of a bundle (R85). -/
inductive Slot where
  | s0 | s1 | v | a | m | e
  deriving DecidableEq, Repr

/-- The two scalar slots. -/
inductive SSlot where
  | s0 | s1
  deriving DecidableEq, Repr

/-- Scalar format RR (R89). -/
structure RR where
  sl : SSlot
  p : Pred
  d : Fin 32
  x : Fin 32
  y : Fin 32
  deriving DecidableEq, Repr

/-- Scalar format RI, imm already sign-extended (R89). -/
structure RI where
  sl : SSlot
  p : Pred
  d : Fin 32
  x : Fin 32
  imm : Int
  deriving DecidableEq, Repr

/-- Format RR with a predicate result (R89). -/
structure RRP where
  sl : SSlot
  p : Pred
  d : Fin 16
  x : Fin 32
  y : Fin 32
  deriving DecidableEq, Repr

/-- Format RI with a predicate result (R89). -/
structure RIP where
  sl : SSlot
  p : Pred
  d : Fin 16
  x : Fin 32
  imm : Int
  deriving DecidableEq, Repr

/-- Format RR over predicates (R89). -/
structure PPP where
  sl : SSlot
  p : Pred
  d : Fin 16
  x : Fin 16
  y : Fin 16
  deriving DecidableEq, Repr

/-- Format CT, slot S0 only, imm22 already sign-extended (R89). -/
structure CT where
  p : Pred
  x : Fin 32
  imm : Int
  deriving DecidableEq, Repr

/-- The V slot (*Vector slot format*): the fields as they stand in the slot. -/
structure VOp where
  p : Pred
  vd : Fin 64
  vx : Fin 64
  vy : Fin 64
  vz : Fin 64
  rm : Fin 4
  ty : Fin 4
  s : Fin 32
  cv : Fin 16
  deriving DecidableEq, Repr

/-- The A slot (*Array slot format*). -/
structure AOpd where
  p : Pred
  a : Fin 32
  mask : Fin 256
  sem : Fin 65536
  deriving DecidableEq, Repr

/-- Format MEM of the M slot; r numbers a vector, scalar or address register as the opcode says. -/
structure MemOp where
  p : Pred
  r : Fin 64
  base : Fin 32
  imm : Int
  deriving DecidableEq, Repr

/-- Format ATM of the M slot. -/
structure AtmOp where
  p : Pred
  d : Fin 32
  base : Fin 32
  y : Fin 32
  imm : Int
  deriving DecidableEq, Repr

/-- Format FAR of the M slot. -/
structure FarOp where
  p : Pred
  pa : Fin 32
  fa : Fin 32
  len : Fin 32
  sem : Fin 65536
  deriving DecidableEq, Repr

/-- Format POST of the E slot. -/
structure PostOp where
  p : Pred
  eng : Fin 16
  a : Fin 32
  deriving DecidableEq, Repr

/-- Format SEM of the E slot. -/
structure SemOp where
  p : Pred
  sem : Fin 65536
  s : Fin 32
  deriving DecidableEq, Repr

/-- An entry of an edge-forwarding link (R30): the operation number it belongs to, whether it is that operation's first
entry (it then carries the head's descriptor bytes, R37), operand bytes and scale bytes. -/
structure AEntry where
  opno : Nat
  first : Bool
  desc : List Byte
  data : List Byte
  scale : List Byte
  deriving DecidableEq, Repr

/-- Requesters of a pool bank that R166 promotes. -/
inductive PoolReq where
  | fetch | engine (e : Nat) | farMove | pager | echo | scrub
  deriving DecidableEq, Repr

/-- A request at a memory controller: partition, partition physical address, context ID, key tag (R198), whether it
comes from the control processor complex (R397), whether it comes through the aperture (R201), and its bytes. -/
structure MemReq where
  prt : Nat
  ppa : Nat
  len : Nat
  ctx : Nat
  keySlot : Nat
  keyGen : Nat
  fromCpc : Bool
  aperture : Bool
  deriving DecidableEq, Repr

/-- Atomic operations at a memory controller and of the ATOMIC transaction (R341). -/
inductive AtomicOp where
  | add32 | add64 | swp32 | swp64
  deriving DecidableEq, Repr

/-- A write to a doorbell portal page (R263): function, PASID, page, offset and the bytes of the single request. -/
structure PortalReq where
  func : Nat
  pasid : Option Nat
  ctx : Nat
  off : Nat
  data : List Byte
  deriving DecidableEq, Repr

/-- The four argument words of a command window (R255). -/
structure Args where
  a0 : Word
  a1 : Word
  a2 : Word
  a3 : Word
  deriving DecidableEq, Repr

/-- A command of an invalidation queue as fetched (*Invalidation command*), without its opcode; rsv holds the bits that
the layout marks reserved. -/
structure IqCmd where
  iflags : Nat
  ctx : Nat
  count : Nat
  addr : Nat
  value : Word
  rsv : Nat
  deriving DecidableEq, Repr

/-- The bytes of the control line as written (*Control line*); rest holds bytes 0x11 to 0x7F as one number. -/
structure CtlLine where
  len : Nat
  hintLo : Nat
  hintHi : Nat
  cls : Nat
  rest : Nat
  deriving DecidableEq, Repr

/-- A transaction header and its data (R341), with the transport fields that deliver it. -/
structure Txn where
  resp : Bool
  relay : Bool
  err : Bool
  rsv : Nat
  gen16 : Nat
  rid : Nat
  widx : Nat
  wgen : Nat
  offset : Nat
  sctx : Nat
  sepoch : Nat
  arg : Nat
  psn : Nat
  data : List Byte
  deriving DecidableEq, Repr

/-- A greeting (*GREETING payload*) with what the security core finds on its bytes: the sender's identity digest, whether
its signature verifies (R333). -/
structure Greeting where
  verMaj : Nat
  verMin : Nat
  eth : Bool
  caps : Nat
  srcPrt : Nat
  dstPrt : Nat
  nexp : Nat
  maxdata : Nat
  dsess : Nat
  gen : Nat
  digest8 : Nat
  pub : Nat
  nonce : Nat
  sigOk : Bool
  ports : Nat
  deriving DecidableEq, Repr

/-- A flit of the link layer (R329): sequence number, virtual channel, start of packet, whether FEC and CRC pass, payload. -/
structure Flit where
  ok : Bool
  seq : Nat
  vc : Nat
  sop : Bool
  eop : Bool
  data : List Byte
  deriving DecidableEq, Repr

/-- A site of a march test failure (R181). -/
structure MarchFail where
  bank : Nat
  row : Nat
  lane : Nat
  deriving DecidableEq, Repr

/-- A management message context: whether it came inside a secured SPDM session (R453) and over which path (R434). -/
structure Mgmt where
  secured : Bool
  overDoe : Bool
  func : Nat
  sess : Nat
  deriving DecidableEq, Repr

/-- What the tests of a start-up or a chip warm reset find (R181 to R183, R203, R447): galleries whose march test fails, with the
sites it finds and those the verification pass finds, HBM channels and DDR5 channels that fail training. -/
structure Tests where
  march : List (Nat × List MarchFail × List MarchFail)
  hbm : List Nat
  ddr : List Nat
  deriving DecidableEq, Repr

/-- A DDR5 channel's slot: whether a DIMM is fitted; its extents of 1 GiB, 0 where R185 does not support it, speed code and x8
devices, as MEM_DDR_STAT shows them. -/
structure Dimm where
  fitted : Bool
  ext : Nat
  speed : Nat
  x8 : Bool
  deriving DecidableEq, Repr

/-- What a start-up finds: whether mesh and seals measure within their windows (R439), the DIMMs by channel, and the tests. -/
structure Boot where
  intact : Bool
  dimms : List Dimm
  tests : Tests
  deriving DecidableEq, Repr

/-- The commands. -/
inductive Instr where
  -- registers and snapshots
  | registerWrite (src : Src) (f : Fld) (i v : Nat)
  | pwrPkgPeakRead (src : Src)
  | trcSnapshot (src : Src)
  | snapshotDone
  -- span start and stream (g is a gallery ID)
  | dispatchMessage (g task : Nat)
  | readyReport (head from_ : Nat)
  | startToken (head : Nat)
  | startTokenReceive (g : Nat)
  | aEntryArrival (g : Nat) (e : AEntry)
  | spanHoldFault (g : Nat)
  | humEnd (g grp : Nat)
  -- slots S0 and S1
  | nop (g : Nat) (sl : Slot) (p : Pred)
  | add (g : Nat) (o : RR)
  | sub (g : Nat) (o : RR)
  | mul (g : Nat) (o : RR)
  | and (g : Nat) (o : RR)
  | or (g : Nat) (o : RR)
  | xor (g : Nat) (o : RR)
  | shl (g : Nat) (o : RR)
  | shr (g : Nat) (o : RR)
  | sar (g : Nat) (o : RR)
  | min (g : Nat) (o : RR)
  | max (g : Nat) (o : RR)
  | addi (g : Nat) (o : RI)
  | li (g : Nat) (o : RI)
  | lih (g : Nat) (o : RI)
  | lit (g : Nat) (o : RI)
  | aadd (g : Nat) (o : RR)
  | aaddi (g : Nat) (o : RI)
  | amov (g : Nat) (o : RR)
  | smova (g : Nat) (o : RR)
  | cmpeq (g : Nat) (o : RRP)
  | cmplt (g : Nat) (o : RRP)
  | cmpltu (g : Nat) (o : RRP)
  | cmpeqi (g : Nat) (o : RIP)
  | cmplti (g : Nat) (o : RIP)
  | pand (g : Nat) (o : PPP)
  | por (g : Nat) (o : PPP)
  | pxor (g : Nat) (o : PPP)
  | pnot (g : Nat) (o : PPP)
  | rdctl (g : Nat) (o : RI)
  | br (g : Nat) (o : CT)
  | bri (g : Nat) (o : CT)
  | call (g : Nat) (o : CT)
  | ret (g : Nat) (o : CT)
  | loop (g : Nat) (o : CT)
  | yield (g : Nat) (p : Pred)
  | endTask (g : Nat) (p : Pred)
  | trap (g : Nat) (o : CT)
  | yieldSpacing (g : Nat)
  | trapStop (g : Nat)
  -- slot V
  | vadd (g : Nat) (o : VOp)
  | vsub (g : Nat) (o : VOp)
  | vmul (g : Nat) (o : VOp)
  | vfma (g : Nat) (o : VOp)
  | vmin (g : Nat) (o : VOp)
  | vmax (g : Nat) (o : VOp)
  | vabs (g : Nat) (o : VOp)
  | vneg (g : Nat) (o : VOp)
  | vadds (g : Nat) (o : VOp)
  | vcvt (g : Nat) (o : VOp)
  | vrcp (g : Nat) (o : VOp)
  | vrsq (g : Nat) (o : VOp)
  | vsqrt (g : Nat) (o : VOp)
  | vcmpeq (g : Nat) (o : VOp)
  | vcmplt (g : Nat) (o : VOp)
  | vcmple (g : Nat) (o : VOp)
  | vsel (g : Nat) (o : VOp)
  | vand (g : Nat) (o : VOp)
  | vor (g : Nat) (o : VOp)
  | vxor (g : Nat) (o : VOp)
  | vhsum (g : Nat) (o : VOp)
  | vbcast (g : Nat) (o : VOp)
  | vext (g : Nat) (o : VOp)
  | vany (g : Nat) (o : VOp)
  -- slot A and its completions
  | aop (g : Nat) (o : AOpd)
  | aldb (g : Nat) (o : AOpd)
  | adrn (g : Nat) (o : AOpd)
  | aclr (g : Nat) (o : AOpd)
  | aopComplete (g : Nat)
  | aldbComplete (g : Nat)
  | adrnComplete (g : Nat)
  | aclrComplete (g : Nat)
  -- slot M
  | vld (g : Nat) (o : MemOp)
  | vldb (g : Nat) (o : MemOp)
  | vst (g : Nat) (o : MemOp)
  | sld (g : Nat) (o : MemOp)
  | sst (g : Nat) (o : MemOp)
  | ald (g : Nat) (o : MemOp)
  | padd64 (g : Nat) (o : AtmOp)
  | padd32 (g : Nat) (o : AtmOp)
  | pswp64 (g : Nat) (o : AtmOp)
  | pswp32 (g : Nat) (o : AtmOp)
  | mget (g : Nat) (o : FarOp)
  | mput (g : Nat) (o : FarOp)
  | farMoveComplete (g k : Nat)
  -- slot E
  | epost (g : Nat) (o : PostOp)
  | sinc (g : Nat) (o : SemOp)
  | sinc1 (g : Nat) (o : SemOp)
  | swait (g : Nat) (o : SemOp)
  | swaitEnd (g : Nat)
  | srd (g : Nat) (o : SemOp)
  | ssig (g : Nat) (o : SemOp)
  | ssigArrival (g sem : Nat)
  | fetchLineArrival (g line : Nat)
  | requestPromotion (g : Nat) (r : PoolReq) (bank : Nat)
  -- marks, completion, sequencer control
  | preemptionRequest (g : Nat)
  | yieldDecision (g : Nat) (yes : Bool)
  | taskComplete (g : Nat)
  | galSeqCtrlRun (src : Src) (g v : Nat)
  | galSeqCtrlStep (src : Src) (g : Nat)
  -- engines: the command at the head of the ring of engine e of gallery g runs
  | engineNop (g e : Nat)
  | attend (g : Nat)
  | lnorm (g : Nat)
  | rmsnorm (g : Nat)
  | act (g : Nat)
  | actGated (g : Nat)
  | actTable (g : Nat)
  | gather (g : Nat)
  | dispatch (g : Nat)
  | combine (g : Nat)
  | transpose (g : Nat)
  | convert (g : Nat)
  | quant (g : Nat)
  | dequant (g : Nat)
  | reduce (g : Nat)
  | send (g : Nat)
  | relay (g : Nat)
  | relayTimeout (g slot : Nat)
  | words (g : Nat)
  | uniform (g : Nat)
  | dropMask (g : Nat)
  | dropApply (g : Nat)
  | copy (g e : Nat)
  | copy2d (g e : Nat)
  | fill (g e : Nat)
  | compress (g : Nat)
  | decompress (g : Nat)
  | commandComplete (g e : Nat)
  | galEngRing (src : Src) (g e base size en : Nat)
  | galEngRst (src : Src) (g e : Nat)
  | engineWatchdog (g e : Nat)
  | missedStopTime (g e : Nat)
  | staleArrival (g e : Nat)
  -- pool
  | patrolScrub (g : Nat)
  | geodeWipe (g : Nat)
  | geodeWipeDone (g : Nat)
  | marchStart (src : Src) (g : Nat)
  | marchTestDone (g : Nat) (fails verify : List MarchFail)
  | bankOwnerWrite (src : Src) (g bank ctx valid : Nat)
  | bankClear (src : Src) (g bank ctx valid : Nat)
  | bankClearDone (g bank : Nat)
  -- memory controllers
  | hbmRead (r : MemReq)
  | hbmWrite (r : MemReq) (data : List Byte)
  | parityWrite (chan line : Nat)
  | ddr5Read (r : MemReq)
  | ddr5Write (r : MemReq) (data : List Byte)
  | memoryAtomic (r : MemReq) (op : AtomicOp) (operand : Word)
  | channelLoss (ddr : Bool) (chan : Nat)
  | rebuildDone (chan : Nat)
  | recalibration (ddr : Bool) (chan : Nat)
  | refresh (ddr : Bool) (chan : Nat)
  | memoryScrub (ddr : Bool) (chan : Nat)
  | memOwnCmdGo (src : Src) (p : Nat)
  | ownerPropagationDone (p : Nat)
  | zeroFillDone (ddr : Bool) (unit : Nat)
  -- sequence pager
  | sequenceApertureAccess (g ctx addr len : Nat) (wr : Option (List Byte))
  | controlLineWrite (g ctx idx : Nat) (l : CtlLine)
  | controlLineRead (g ctx idx : Nat)
  | pageMoveDone (idx page : Nat)
  | backgroundSpill (p : Nat)
  | seqCreate (src : Src) (p : Nat)
  | seqDestroy (src : Src) (p : Nat)
  | seqDestroyDone (p : Nat)
  | seqSetClass (src : Src) (p : Nat)
  | seqQuery (src : Src) (p : Nat)
  -- Survey
  | surveyLoad (src : Src)
  | surveyFetchDone (bytes : Option (List Byte))
  | relayoutDone (p : Nat)
  | svyCommit (src : Src)
  | svyAbort (src : Src)
  | commitSequence
  | drainBound
  | bind
  | windowClose
  | nakMoved (p : Nat)
  | seal (src : Src) (p : Nat)
  -- CTX and FEN command windows of function f
  | ctxCreate (f : Nat) (a : Args)
  | ctxAbort (f : Nat) (a : Args)
  | ctxDestroy (f : Nat) (a : Args)
  | ctxSet (f : Nat) (a : Args)
  | ctxEvring (f : Nat) (a : Args)
  | ctxQuery (f : Nat) (a : Args)
  | qCreate (f : Nat) (a : Args)
  | qDestroy (f : Nat) (a : Args)
  | qResume (f : Nat) (a : Args)
  | qQuery (f : Nat) (a : Args)
  | mobjCreate (f : Nat) (a : Args)
  | mobjRetain (f : Nat) (a : Args)
  | mobjRelease (f : Nat) (a : Args)
  | mobjQuery (f : Nat) (a : Args)
  | fenCreate (f : Nat) (a : Args)
  | fenSignal (f : Nat) (a : Args)
  | fenError (f : Nat) (a : Args)
  | fenArm (f : Nat) (a : Args)
  | fenQuery (f : Nat) (a : Args)
  | fenDestroy (f : Nat) (a : Args)
  -- portals, queues, scheduling
  | inlineDescriptor (w : PortalReq)
  | extension (w : PortalReq)
  | tailDoorbell (w : PortalReq)
  | eventRingHead (w : PortalReq)
  | ringFetch (q : Nat) (entries : Option (List (List Byte)))
  | descriptorStart (q : Nat)
  | bestEffortPlacement (p : Nat)
  | latencyCriticalPlacement (p : Nat)
  | resume (task : Nat)
  | retire (task : Nat)
  | dlogSwap (src : Src) (f : Nat)
  | dlogEnable (src : Src) (f : Nat)
  | mlogSwap (src : Src) (p : Nat)
  | mlogEnable (src : Src) (p : Nat)
  | swapped (mlog : Bool) (i : Nat)
  | deviceMemoryApertureAccess (f off len : Nat) (wr : Option (List Byte))
  | functionLevelReset (f : Nat)
  | vfEnableClear
  | d3hotEntry (f : Nat)
  | d0Return (f : Nat)
  -- address translation
  | setRoot (f : Nat) (a : Args)
  | winExport (f : Nat) (a : Args)
  | winImport (f : Nat) (a : Args)
  | winClose (f : Nat) (a : Args)
  | winQuery (f : Nat) (a : Args)
  | xltIqTail (src : Src) (f v : Nat)
  | invVa (f : Nat) (c : IqCmd)
  | invCtx (f : Nat) (c : IqCmd)
  | invFunc (f : Nat) (c : IqCmd)
  | wait (f : Nat) (c : IqCmd)
  | faultReply (f : Nat) (c : IqCmd)
  | invalidationComplete (f : Nat)
  | xltIqStatErrClear (src : Src) (f : Nat)
  | atsInvalidation (f addr len : Nat)
  | faultRecordPost (g e : Nat)
  | xltFrHead (src : Src) (f v : Nat)
  | priResponse (g e : Nat) (ok : Bool)
  | priTimeout (g e : Nat)
  -- programs, deadlines, regulation
  | progReg (src : Src) (p : Nat) (a : Args)
  | progLoad (src : Src) (p : Nat) (a : Args)
  | progLoadCopyDone (p slot g : Nat)
  | progUnload (src : Src) (p : Nat) (a : Args)
  | progUnreg (src : Src) (p : Nat) (a : Args)
  | progQuery (src : Src) (p : Nat) (a : Args)
  | deadlineMiss (task : Nat)
  | deadlineCounterWrap (p : Nat)
  | latencyUpdate (p cls port ns : Nat)
  | bucketRefill (p cls port : Nat)
  -- Huaton links (n is a port, ses a session)
  | renego (src : Src) (n : Nat)
  | autoNegotiation (n lpAbility lpEth : Nat)
  | linkUp (n lanesTrained : Nat)
  | laneLoss (n lane : Nat)
  | payloadFlit (n : Nat) (f : Flit)
  | controlFlit (n ack : Nat) (credits : List Nat)
  | replayRequest (n seq : Nat)
  | linkDown (n : Nat)
  | ack (ses apsn bitmap : Nat)
  | nak (ses first count : Nat)
  | ackCoalescing (ses : Nat)
  | nakDelay (ses : Nat)
  | retransmissionTime (ses psn : Nat)
  | requestTime (ses rid : Nat)
  | write (n ses : Nat) (t : Txn)
  | read (n ses : Nat) (t : Txn)
  | atomic (n ses : Nat) (t : Txn)
  | reduceTransaction (n ses : Nat) (t : Txn)
  | reduceHold (p tag : Nat)
  | message (n ses : Nat) (t : Txn)
  | fenceSignal (n ses : Nat) (t : Txn)
  | revoke (n ses : Nat) (t : Txn)
  | response (n ses : Nat) (t : Txn)
  | greetingOffer (n : Nat) (gr : Greeting)
  | greetingConfirm (n : Nat) (gr : Greeting)
  | greetingLeave (n ses ports : Nat)
  | greetingUpdate (n ses gen : Nat)
  | greetingStep (n ses : Nat)
  | packetCountRekey (ses : Nat)
  | keyOverlap (ses : Nat)
  | htnSess (f n : Nat) (a : Args)
  | htnFlink (f n : Nat) (a : Args)
  | htnFunlink (f n : Nat) (a : Args)
  | htnRekey (f n : Nat) (a : Args)
  | htnAtomic (f n : Nat) (a : Args)
  | arpRequest (n ip : Nat)
  | neighbourSolicitation (n ip : Nat)
  -- clocks, power, temperature (h is a hall)
  | refclkLoss (ref : Nat)
  | phaseWindow (g cls measured : Nat)
  | redistribution (avgW otherW leakW : Nat)
  | voltageReport (h : Nat)
  | voltageReportTimeout (h : Nat)
  | avsbusTimeout (h : Nat)
  | fastThrottle
  | droopTrip (g : Nat)
  | stretchEnd (g : Nat)
  | deferralEnd (h : Nat)
  | regulatorAlert
  | alertRelease
  | thermalSample (temps : List (Option Int))
  | temperatureClamp (h : Nat)
  | thermalTrip
  -- faults and recovery
  | contextWatchdog (g : Nat)
  | echoTimeout (g : Nat)
  | internalCheck (g : Nat)
  | sharedStructureFault (structure_ copy : Nat) (logic : Bool)
  | meshStopFence (g : Nat)
  | escalation (row unit : Nat)
  | partitionReset (src : Src) (p : Nat)
  | chipWarmReset (src : Src) (t : Tests)
  | powerCycle (src : Src)
  | dump (src : Src)
  | dumpReadTimeout (kind unit : Nat)
  | dumpBound
  | dumpCopy (src : Src)
  | dumpCopyDone (ok : Bool)
  -- firmware
  | emuRead (f off : Nat)
  | emuBusy (f off : Nat)
  | emuWrite (f off v : Nat)
  | clearLog (f seq : Nat)
  | reportTelemetry (f seq : Nat)
  | coreCrash (core : Nat)
  | leaseClaim (f id : Nat)
  | leaseRenew (f id : Nat)
  | rings (f : Nat)
  | leaseExpiry
  | firmwareUpdate (m : Mgmt) (comp : Nat) (image : List Byte)
  | liveActivation
  -- security
  | lifeCycleTransition (m : Mgmt) (goal : Nat) (authorised : Bool) (keys : List Nat) (cert : List Byte)
  | keyStage (m : Mgmt) (slot pub : Nat) (chainOk : Bool)
  | keySwap (m : Mgmt) (slot : Nat) (sigOk : Bool)
  | drainFence (slot : Nat)
  | slotFree (slot : Nat)
  | drbgReseed
  | getVersion (m : Mgmt)
  | getCapabilities (m : Mgmt)
  | negotiateAlgorithms (m : Mgmt)
  | getDigests (m : Mgmt)
  | getCertificate (m : Mgmt) (slot : Nat)
  | challenge (m : Mgmt)
  | getMeasurements (m : Mgmt) (index : Nat)
  | keyExchange (m : Mgmt)
  | finish (m : Mgmt)
  | heartbeat (m : Mgmt)
  | heartbeatTimeout (m : Mgmt)
  | keyUpdate (m : Mgmt)
  | endSession (m : Mgmt)
  | vendorDefinedRequest (m : Mgmt) (proto code arg : Nat)
  | lockInterfaceRequest (m : Mgmt) (f : Nat)
  | stopInterfaceRequest (m : Mgmt) (f : Nat)
  | tamperCheck (ok : Bool)
  -- management
  | setEndpointId (eid : Nat)
  | getEndpointId
  | getVersionSupport (ty : Nat)
  | getMessageTypeSupport
  | getVendorDefinedMessageSupport
  | getTid
  | getPldmVersion (ty : Nat)
  | getPldmTypes
  | getPldmCommands (ty : Nat)
  | surveyBegin (m : Mgmt) (len : Nat)
  | surveyData (m : Mgmt) (off : Nat) (bytes : List Byte)
  | surveyApply (m : Mgmt) (hold : Bool)
  | surveyCommit (m : Mgmt)
  | surveyAbort (m : Mgmt)
  | surveyStatus (m : Mgmt)
  | defaultSurveyWrite (m : Mgmt)
  | dumpRead (m : Mgmt) (off len : Nat)
  | resetRequest (m : Mgmt) (kind p : Nat) (t : Tests)
  -- board
  | powerGood (b : Boot)
  | railDropBeforeReady
  | railOutOfRange
  | perstNDeassert
  | perstNAssert
  | pciExpressLinkDown
  | entdaa (dynAddr : Nat)
  | entropyHealthTest (ok : Bool)
  | pciExpressLinkUp
  deriving DecidableEq, Repr

end Sys2Proof
end

