-- ==== Sys2Proof/WellFormed.lean ====
section
/-! DEFINITION. Which commands exist: every unit a command names is one the part has (R2, R11 to R13, R250), and every
immediate of an instruction is a value its field can hold (R89, R97). -/

namespace Sys2Proof

/-- A signed value that fits w bits. -/
def sfits (w : Nat) (i : Int) : Bool := decide (-(2 ^ (w - 1) : Nat) ≤ i) && decide (i < (2 ^ (w - 1) : Nat))

/-- The PCI functions are 0 to 127 (R250). -/
def Src.ok : Src → Bool
  | .func f => decide (f < 128)
  | .mgmt => true

/-- Width of the immediate of format RI (R89). -/
def SSlot.immBits : SSlot → Nat
  | .s0 => 22
  | .s1 => 14

def RI.ok (o : RI) : Bool := sfits o.sl.immBits o.imm
def RIP.ok (o : RIP) : Bool := sfits o.sl.immBits o.imm
def CT.ok (o : CT) : Bool := sfits 22 o.imm
def MemOp.ok (o : MemOp) : Bool := sfits 26 o.imm
def AtmOp.ok (o : AtmOp) : Bool := sfits 21 o.imm

/-- Whether the part can take a command. -/
def Instr.wf : Instr → Bool
  | .registerWrite src f i _ => src.ok && decide (i < f.desc.reg.place.count)
  | .pwrPkgPeakRead src => src.ok
  | .trcSnapshot src => src.ok
  | .snapshotDone => true
  | .dispatchMessage g _ => decide (g < 32)
  | .readyReport head from_ => decide (head < 32) && decide (from_ < 32)
  | .startToken head => decide (head < 32)
  | .startTokenReceive g => decide (g < 32)
  | .aEntryArrival g _ => decide (g < 32)
  | .spanHoldFault g => decide (g < 32)
  | .humEnd g grp => decide (g < 32) && decide (grp < 64)
  | .nop g _ _ => decide (g < 32)
  | .add g _ => decide (g < 32)
  | .sub g _ => decide (g < 32)
  | .mul g _ => decide (g < 32)
  | .and g _ => decide (g < 32)
  | .or g _ => decide (g < 32)
  | .xor g _ => decide (g < 32)
  | .shl g _ => decide (g < 32)
  | .shr g _ => decide (g < 32)
  | .sar g _ => decide (g < 32)
  | .min g _ => decide (g < 32)
  | .max g _ => decide (g < 32)
  | .addi g o => decide (g < 32) && o.ok
  | .li g o => decide (g < 32) && o.ok
  | .lih g o => decide (g < 32) && o.ok
  | .lit g o => decide (g < 32) && o.ok
  | .aadd g _ => decide (g < 32)
  | .aaddi g o => decide (g < 32) && o.ok
  | .amov g _ => decide (g < 32)
  | .smova g _ => decide (g < 32)
  | .cmpeq g _ => decide (g < 32)
  | .cmplt g _ => decide (g < 32)
  | .cmpltu g _ => decide (g < 32)
  | .cmpeqi g o => decide (g < 32) && o.ok
  | .cmplti g o => decide (g < 32) && o.ok
  | .pand g _ => decide (g < 32)
  | .por g _ => decide (g < 32)
  | .pxor g _ => decide (g < 32)
  | .pnot g _ => decide (g < 32)
  | .rdctl g o => decide (g < 32) && o.ok
  | .br g o => decide (g < 32) && o.ok
  | .bri g o => decide (g < 32) && o.ok
  | .call g o => decide (g < 32) && o.ok
  | .ret g o => decide (g < 32) && o.ok
  | .loop g o => decide (g < 32) && o.ok
  | .yield g _ => decide (g < 32)
  | .endTask g _ => decide (g < 32)
  | .trap g o => decide (g < 32) && o.ok
  | .yieldSpacing g => decide (g < 32)
  | .trapStop g => decide (g < 32)
  | .vadd g _ => decide (g < 32)
  | .vsub g _ => decide (g < 32)
  | .vmul g _ => decide (g < 32)
  | .vfma g _ => decide (g < 32)
  | .vmin g _ => decide (g < 32)
  | .vmax g _ => decide (g < 32)
  | .vabs g _ => decide (g < 32)
  | .vneg g _ => decide (g < 32)
  | .vadds g _ => decide (g < 32)
  | .vcvt g _ => decide (g < 32)
  | .vrcp g _ => decide (g < 32)
  | .vrsq g _ => decide (g < 32)
  | .vsqrt g _ => decide (g < 32)
  | .vcmpeq g _ => decide (g < 32)
  | .vcmplt g _ => decide (g < 32)
  | .vcmple g _ => decide (g < 32)
  | .vsel g _ => decide (g < 32)
  | .vand g _ => decide (g < 32)
  | .vor g _ => decide (g < 32)
  | .vxor g _ => decide (g < 32)
  | .vhsum g _ => decide (g < 32)
  | .vbcast g _ => decide (g < 32)
  | .vext g _ => decide (g < 32)
  | .vany g _ => decide (g < 32)
  | .aop g _ => decide (g < 32)
  | .aldb g _ => decide (g < 32)
  | .adrn g _ => decide (g < 32)
  | .aclr g _ => decide (g < 32)
  | .aopComplete g => decide (g < 32)
  | .aldbComplete g => decide (g < 32)
  | .adrnComplete g => decide (g < 32)
  | .aclrComplete g => decide (g < 32)
  | .vld g o => decide (g < 32) && o.ok
  | .vldb g o => decide (g < 32) && o.ok
  | .vst g o => decide (g < 32) && o.ok
  | .sld g o => decide (g < 32) && o.ok
  | .sst g o => decide (g < 32) && o.ok
  | .ald g o => decide (g < 32) && o.ok
  | .padd64 g o => decide (g < 32) && o.ok
  | .padd32 g o => decide (g < 32) && o.ok
  | .pswp64 g o => decide (g < 32) && o.ok
  | .pswp32 g o => decide (g < 32) && o.ok
  | .mget g _ => decide (g < 32)
  | .mput g _ => decide (g < 32)
  | .farMoveComplete g _ => decide (g < 32)
  | .epost g _ => decide (g < 32)
  | .sinc g _ => decide (g < 32)
  | .sinc1 g _ => decide (g < 32)
  | .swait g _ => decide (g < 32)
  | .swaitEnd g => decide (g < 32)
  | .srd g _ => decide (g < 32)
  | .ssig g _ => decide (g < 32)
  | .ssigArrival g _ => decide (g < 32)
  | .fetchLineArrival g _ => decide (g < 32)
  | .requestPromotion g _ bank => decide (g < 32) && decide (bank < 64)
  | .preemptionRequest g => decide (g < 32)
  | .yieldDecision g _ => decide (g < 32)
  | .taskComplete g => decide (g < 32)
  | .galSeqCtrlRun src g _ => src.ok && decide (g < 32)
  | .galSeqCtrlStep src g => src.ok && decide (g < 32)
  | .engineNop g e => decide (g < 32) && decide (e < 9)
  | .attend g => decide (g < 32)
  | .lnorm g => decide (g < 32)
  | .rmsnorm g => decide (g < 32)
  | .act g => decide (g < 32)
  | .actGated g => decide (g < 32)
  | .actTable g => decide (g < 32)
  | .gather g => decide (g < 32)
  | .dispatch g => decide (g < 32)
  | .combine g => decide (g < 32)
  | .transpose g => decide (g < 32)
  | .convert g => decide (g < 32)
  | .quant g => decide (g < 32)
  | .dequant g => decide (g < 32)
  | .reduce g => decide (g < 32)
  | .send g => decide (g < 32)
  | .relay g => decide (g < 32)
  | .relayTimeout g _ => decide (g < 32)
  | .words g => decide (g < 32)
  | .uniform g => decide (g < 32)
  | .dropMask g => decide (g < 32)
  | .dropApply g => decide (g < 32)
  | .copy g e => decide (g < 32) && decide (e < 9)
  | .copy2d g e => decide (g < 32) && decide (e < 9)
  | .fill g e => decide (g < 32) && decide (e < 9)
  | .compress g => decide (g < 32)
  | .decompress g => decide (g < 32)
  | .commandComplete g e => decide (g < 32) && decide (e < 9)
  | .galEngRing src g e _ _ _ => src.ok && decide (g < 32) && decide (e < 9)
  | .galEngRst src g e => src.ok && decide (g < 32) && decide (e < 9)
  | .engineWatchdog g e => decide (g < 32) && decide (e < 9)
  | .missedStopTime g e => decide (g < 32) && decide (e < 9)
  | .staleArrival g e => decide (g < 32) && decide (e < 9)
  | .patrolScrub g => decide (g < 32)
  | .geodeWipe g => decide (g < 32)
  | .geodeWipeDone g => decide (g < 32)
  | .marchStart src g => src.ok && decide (g < 32)
  | .marchTestDone g _ _ => decide (g < 32)
  | .bankOwnerWrite src g bank _ _ => src.ok && decide (g < 32) && decide (bank < 64)
  | .bankClear src g bank _ _ => src.ok && decide (g < 32) && decide (bank < 64)
  | .bankClearDone g bank => decide (g < 32) && decide (bank < 64)
  | .hbmRead r => decide (r.prt < 32)
  | .hbmWrite r _ => decide (r.prt < 32)
  | .parityWrite chan _ => decide (chan < 256)
  | .ddr5Read r => decide (r.prt < 32)
  | .ddr5Write r _ => decide (r.prt < 32)
  | .memoryAtomic r _ _ => decide (r.prt < 32)
  | .channelLoss ddr chan => decide (chan < (if ddr then 12 else 256))
  | .rebuildDone chan => decide (chan < 256)
  | .recalibration ddr chan => decide (chan < (if ddr then 12 else 256))
  | .refresh ddr chan => decide (chan < (if ddr then 12 else 256))
  | .memoryScrub ddr chan => decide (chan < (if ddr then 12 else 256))
  | .memOwnCmdGo src p => src.ok && decide (p < 32)
  | .ownerPropagationDone p => decide (p < 32)
  | .zeroFillDone ddr unit => decide (unit < (if ddr then 3072 else 32))
  | .sequenceApertureAccess g _ _ _ _ => decide (g < 32)
  | .controlLineWrite g _ idx _ => decide (g < 32) && decide (idx < 8192)
  | .controlLineRead g _ idx => decide (g < 32) && decide (idx < 8192)
  | .pageMoveDone idx _ => decide (idx < 8192)
  | .backgroundSpill p => decide (p < 32)
  | .seqCreate src p => src.ok && decide (p < 32)
  | .seqDestroy src p => src.ok && decide (p < 32)
  | .seqDestroyDone p => decide (p < 32)
  | .seqSetClass src p => src.ok && decide (p < 32)
  | .seqQuery src p => src.ok && decide (p < 32)
  | .surveyLoad src => src.ok
  | .surveyFetchDone _ => true
  | .relayoutDone p => decide (p < 32)
  | .svyCommit src => src.ok
  | .svyAbort src => src.ok
  | .commitSequence => true
  | .drainBound => true
  | .bind => true
  | .windowClose => true
  | .nakMoved p => decide (p < 32)
  | .seal src p => src.ok && decide (p < 32)
  | .ctxCreate f _ => decide (f < 128)
  | .ctxAbort f _ => decide (f < 128)
  | .ctxDestroy f _ => decide (f < 128)
  | .ctxSet f _ => decide (f < 128)
  | .ctxEvring f _ => decide (f < 128)
  | .ctxQuery f _ => decide (f < 128)
  | .qCreate f _ => decide (f < 128)
  | .qDestroy f _ => decide (f < 128)
  | .qResume f _ => decide (f < 128)
  | .qQuery f _ => decide (f < 128)
  | .mobjCreate f _ => decide (f < 128)
  | .mobjRetain f _ => decide (f < 128)
  | .mobjRelease f _ => decide (f < 128)
  | .mobjQuery f _ => decide (f < 128)
  | .fenCreate f _ => decide (f < 128)
  | .fenSignal f _ => decide (f < 128)
  | .fenError f _ => decide (f < 128)
  | .fenArm f _ => decide (f < 128)
  | .fenQuery f _ => decide (f < 128)
  | .fenDestroy f _ => decide (f < 128)
  | .inlineDescriptor w => decide (w.func < 128)
  | .extension w => decide (w.func < 128)
  | .tailDoorbell w => decide (w.func < 128)
  | .eventRingHead w => decide (w.func < 128)
  | .ringFetch _ _ => true
  | .descriptorStart _ => true
  | .bestEffortPlacement p => decide (p < 32)
  | .latencyCriticalPlacement p => decide (p < 32)
  | .resume _ => true
  | .retire _ => true
  | .dlogSwap src f => src.ok && decide (f < 128)
  | .dlogEnable src f => src.ok && decide (f < 128)
  | .mlogSwap src p => src.ok && decide (p < 32)
  | .mlogEnable src p => src.ok && decide (p < 32)
  | .swapped _ _ => true
  | .deviceMemoryApertureAccess f _ _ _ => decide (f < 128)
  | .functionLevelReset f => decide (f < 128)
  | .vfEnableClear => true
  | .d3hotEntry f => decide (f < 128)
  | .d0Return f => decide (f < 128)
  | .setRoot f _ => decide (f < 128)
  | .winExport f _ => decide (f < 128)
  | .winImport f _ => decide (f < 128)
  | .winClose f _ => decide (f < 128)
  | .winQuery f _ => decide (f < 128)
  | .xltIqTail src f _ => src.ok && decide (f < 128)
  | .invVa f _ => decide (f < 128)
  | .invCtx f _ => decide (f < 128)
  | .invFunc f _ => decide (f < 128)
  | .wait f _ => decide (f < 128)
  | .faultReply f _ => decide (f < 128)
  | .invalidationComplete f => decide (f < 128)
  | .xltIqStatErrClear src f => src.ok && decide (f < 128)
  | .atsInvalidation f _ _ => decide (f < 128)
  | .faultRecordPost g e => decide (g < 32) && decide (e < 9)
  | .xltFrHead src f _ => src.ok && decide (f < 128)
  | .priResponse g e _ => decide (g < 32) && decide (e < 9)
  | .priTimeout g e => decide (g < 32) && decide (e < 9)
  | .progReg src p _ => src.ok && decide (p < 32)
  | .progLoad src p _ => src.ok && decide (p < 32)
  | .progLoadCopyDone p _ g => decide (p < 32) && decide (g < 32)
  | .progUnload src p _ => src.ok && decide (p < 32)
  | .progUnreg src p _ => src.ok && decide (p < 32)
  | .progQuery src p _ => src.ok && decide (p < 32)
  | .deadlineMiss _ => true
  | .deadlineCounterWrap p => decide (p < 32)
  | .latencyUpdate p _ _ _ => decide (p < 32)
  | .bucketRefill p _ _ => decide (p < 32)
  | .renego src n => src.ok && decide (n < 32)
  | .autoNegotiation n _ _ => decide (n < 32)
  | .linkUp n _ => decide (n < 32)
  | .laneLoss n lane => decide (n < 32) && decide (lane < 4)
  | .payloadFlit n _ => decide (n < 32)
  | .controlFlit n _ _ => decide (n < 32)
  | .replayRequest n _ => decide (n < 32)
  | .linkDown n => decide (n < 32)
  | .ack _ _ _ => true
  | .nak _ _ _ => true
  | .ackCoalescing _ => true
  | .nakDelay _ => true
  | .retransmissionTime _ _ => true
  | .requestTime _ _ => true
  | .write n _ _ => decide (n < 32)
  | .read n _ _ => decide (n < 32)
  | .atomic n _ _ => decide (n < 32)
  | .reduceTransaction n _ _ => decide (n < 32)
  | .reduceHold p _ => decide (p < 32)
  | .message n _ _ => decide (n < 32)
  | .fenceSignal n _ _ => decide (n < 32)
  | .revoke n _ _ => decide (n < 32)
  | .response n _ _ => decide (n < 32)
  | .greetingOffer n _ => decide (n < 32)
  | .greetingConfirm n _ => decide (n < 32)
  | .greetingLeave n _ _ => decide (n < 32)
  | .greetingUpdate n _ _ => decide (n < 32)
  | .greetingStep n _ => decide (n < 32)
  | .packetCountRekey _ => true
  | .keyOverlap _ => true
  | .htnSess f n _ => decide (f < 128) && decide (n < 32)
  | .htnFlink f n _ => decide (f < 128) && decide (n < 32)
  | .htnFunlink f n _ => decide (f < 128) && decide (n < 32)
  | .htnRekey f n _ => decide (f < 128) && decide (n < 32)
  | .htnAtomic f n _ => decide (f < 128) && decide (n < 32)
  | .arpRequest n _ => decide (n < 32)
  | .neighbourSolicitation n _ => decide (n < 32)
  | .refclkLoss ref => decide (ref < 4)
  | .phaseWindow g cls _ => decide (g < 32) && decide (cls < 64)
  | .redistribution _ _ _ => true
  | .voltageReport h => decide (h < 2)
  | .voltageReportTimeout h => decide (h < 2)
  | .avsbusTimeout h => decide (h < 2)
  | .fastThrottle => true
  | .droopTrip g => decide (g < 32)
  | .stretchEnd g => decide (g < 32)
  | .deferralEnd h => decide (h < 2)
  | .regulatorAlert => true
  | .alertRelease => true
  | .thermalSample temps => decide (temps.length = 44)
  | .temperatureClamp h => decide (h < 2)
  | .thermalTrip => true
  | .contextWatchdog g => decide (g < 32)
  | .echoTimeout g => decide (g < 32)
  | .internalCheck g => decide (g < 32)
  | .sharedStructureFault _ _ _ => true
  | .meshStopFence g => decide (g < 32)
  | .escalation row unit => decide (2 ≤ row) && decide (row ≤ 6) && (if row = 2 then decide (unit < 512) && decide (unit % 16 < 9) else decide (unit < 32))
  | .partitionReset src p => src.ok && decide (p < 32)
  | .chipWarmReset src _ => src.ok
  | .powerCycle src => src.ok
  | .dump src => src.ok
  | .dumpReadTimeout _ _ => true
  | .dumpBound => true
  | .dumpCopy src => src.ok
  | .dumpCopyDone _ => true
  | .emuRead f _ => decide (f < 128)
  | .emuBusy f _ => decide (f < 128)
  | .emuWrite f _ _ => decide (f < 128)
  | .clearLog f _ => decide (f < 128)
  | .reportTelemetry f _ => decide (f < 128)
  | .coreCrash core => decide (core < 4)
  | .leaseClaim f _ => decide (f < 128)
  | .leaseRenew f _ => decide (f < 128)
  | .rings f => decide (f < 128)
  | .leaseExpiry => true
  | .firmwareUpdate _ _ _ => true
  | .liveActivation => true
  | .lifeCycleTransition _ _ _ _ _ => true
  | .keyStage _ _ _ _ => true
  | .keySwap _ _ _ => true
  | .drainFence slot => decide (slot < 4096)
  | .slotFree slot => decide (slot < 4096)
  | .drbgReseed => true
  | .getVersion _ => true
  | .getCapabilities _ => true
  | .negotiateAlgorithms _ => true
  | .getDigests _ => true
  | .getCertificate _ _ => true
  | .challenge _ => true
  | .getMeasurements _ _ => true
  | .keyExchange _ => true
  | .finish _ => true
  | .heartbeat _ => true
  | .heartbeatTimeout _ => true
  | .keyUpdate _ => true
  | .endSession _ => true
  | .vendorDefinedRequest _ _ _ _ => true
  | .lockInterfaceRequest _ f => decide (f < 128)
  | .stopInterfaceRequest _ f => decide (f < 128)
  | .tamperCheck _ => true
  | .setEndpointId _ => true
  | .getEndpointId => true
  | .getVersionSupport _ => true
  | .getMessageTypeSupport => true
  | .getVendorDefinedMessageSupport => true
  | .getTid => true
  | .getPldmVersion _ => true
  | .getPldmTypes => true
  | .getPldmCommands _ => true
  | .surveyBegin _ _ => true
  | .surveyData _ _ _ => true
  | .surveyApply _ _ => true
  | .surveyCommit _ => true
  | .surveyAbort _ => true
  | .surveyStatus _ => true
  | .defaultSurveyWrite _ => true
  | .dumpRead _ _ _ => true
  | .resetRequest _ _ p _ => decide (p < 32)
  | .powerGood _ => true
  | .railDropBeforeReady => true
  | .railOutOfRange => true
  | .perstNDeassert => true
  | .perstNAssert => true
  | .pciExpressLinkDown => true
  | .entdaa _ => true
  | .entropyHealthTest _ => true
  | .pciExpressLinkUp => true

end Sys2Proof
end

