-- ==== Sys2Proof/Decode.lean ====
section
/-! DEFINITION. Decoding. The command table spells no command in bits, so decodeTableWord reads none. The words that the
part itself reads are the bundles of a program: the slots of a bundle and their encodings (R85 to R103), first read, then
written. -/

namespace Sys2Proof

/-- The command a table word spells: the table gives no row any bits. -/
def decodeTableWord (_nbits _w : Nat) : Option Instr := none

-- Fields --------------------------------------------------------------------------------------------------------------

/-- n bits of a word from bit lo. -/
def fieldOf (w lo n : Nat) : Nat := w / 2 ^ lo % 2 ^ n

/-- A register number. -/
def finOf (n : Nat) (h : 0 < n) (v : Nat) : Fin n := ⟨v % n, Nat.mod_lt v h⟩

/-- An n-bit two's-complement field. -/
def signedField (n v : Nat) : Int := if v < 2 ^ (n - 1) then (v : Int) else (v : Int) - (2 ^ n : Nat)

/-- The field of a signed value. -/
def unsignedField (n : Nat) (i : Int) : Nat := (i % (2 ^ n : Nat)).toNat

/-- The predicate field (R86). -/
def predOf (w : Nat) : Pred := ⟨finOf 16 (by decide) (fieldOf w 0 4), fieldOf w 4 1 == 1⟩

def encPred (p : Pred) : Nat := p.p.val + (if p.neg then 16 else 0)

/-- A slot's bits in a bundle (*Bundle layout*). -/
def slotBits : Slot → Nat × Nat
  | .s0 => (0, 48)
  | .s1 => (48, 40)
  | .v => (88, 48)
  | .a => (136, 40)
  | .m => (176, 48)
  | .e => (224, 32)

def slotOfS : SSlot → Slot
  | .s0 => .s0
  | .s1 => .s1

-- Scalar formats (R89) ------------------------------------------------------------------------------------------------

def rrOf (sl : SSlot) (w : Nat) : Option RR :=
  if w / 2 ^ 26 = 0 then some ⟨sl, predOf w, finOf 32 (by decide) (fieldOf w 11 5), finOf 32 (by decide) (fieldOf w 16 5),
    finOf 32 (by decide) (fieldOf w 21 5)⟩ else none

def riOf (sl : SSlot) (w : Nat) : Option RI :=
  if fieldOf w 21 5 = 0 then some ⟨sl, predOf w, finOf 32 (by decide) (fieldOf w 11 5),
    finOf 32 (by decide) (fieldOf w 16 5), signedField sl.immBits (fieldOf w 26 sl.immBits)⟩ else none

def rrpOf (sl : SSlot) (w : Nat) : Option RRP :=
  if w / 2 ^ 26 = 0 ∧ fieldOf w 15 1 = 0 then some ⟨sl, predOf w, finOf 16 (by decide) (fieldOf w 11 4),
    finOf 32 (by decide) (fieldOf w 16 5), finOf 32 (by decide) (fieldOf w 21 5)⟩ else none

def ripOf (sl : SSlot) (w : Nat) : Option RIP :=
  if fieldOf w 21 5 = 0 ∧ fieldOf w 15 1 = 0 then some ⟨sl, predOf w, finOf 16 (by decide) (fieldOf w 11 4),
    finOf 32 (by decide) (fieldOf w 16 5), signedField sl.immBits (fieldOf w 26 sl.immBits)⟩ else none

def pppOf (sl : SSlot) (w : Nat) : Option PPP :=
  if w / 2 ^ 25 = 0 ∧ fieldOf w 15 1 = 0 ∧ fieldOf w 20 1 = 0 then
    some ⟨sl, predOf w, finOf 16 (by decide) (fieldOf w 11 4), finOf 16 (by decide) (fieldOf w 16 4),
      finOf 16 (by decide) (fieldOf w 21 4)⟩ else none

def ctOf (sl : SSlot) (w : Nat) : Option CT :=
  if sl = .s0 ∧ fieldOf w 11 5 = 0 ∧ fieldOf w 21 5 = 0 then
    some ⟨predOf w, finOf 32 (by decide) (fieldOf w 16 5), signedField 22 (fieldOf w 26 22)⟩ else none

/-- YIELD and END: slot S0, every bit from 11 up reserved. -/
def bareOf (sl : SSlot) (w : Nat) : Option Pred := if sl = .s0 ∧ w / 2 ^ 11 = 0 then some (predOf w) else none

/-- *Scalar opcodes*. -/
def decodeScalar (g : Nat) (sl : SSlot) (w : Nat) : Option Instr :=
  match fieldOf w 5 6 with
  | 0 => if w / 2 ^ 11 = 0 then some (.nop g (slotOfS sl) (predOf w)) else none
  | 1 => (rrOf sl w).map (.add g)
  | 2 => (rrOf sl w).map (.sub g)
  | 3 => (rrOf sl w).map (.mul g)
  | 4 => (rrOf sl w).map (.and g)
  | 5 => (rrOf sl w).map (.or g)
  | 6 => (rrOf sl w).map (.xor g)
  | 7 => (rrOf sl w).map (.shl g)
  | 8 => (rrOf sl w).map (.shr g)
  | 9 => (rrOf sl w).map (.sar g)
  | 10 => (rrOf sl w).map (.min g)
  | 11 => (rrOf sl w).map (.max g)
  | 16 => (riOf sl w).map (.addi g)
  | 17 => (riOf sl w).map (.li g)
  | 18 => (riOf sl w).map (.lih g)
  | 19 => (riOf sl w).map (.lit g)
  | 24 => (rrOf sl w).map (.aadd g)
  | 25 => (riOf sl w).map (.aaddi g)
  | 26 => (rrOf sl w).map (.amov g)
  | 27 => (rrOf sl w).map (.smova g)
  | 32 => (rrpOf sl w).map (.cmpeq g)
  | 33 => (rrpOf sl w).map (.cmplt g)
  | 34 => (rrpOf sl w).map (.cmpltu g)
  | 35 => (ripOf sl w).map (.cmpeqi g)
  | 36 => (ripOf sl w).map (.cmplti g)
  | 40 => (pppOf sl w).map (.pand g)
  | 41 => (pppOf sl w).map (.por g)
  | 42 => (pppOf sl w).map (.pxor g)
  | 43 => (pppOf sl w).map (.pnot g)
  | 44 => (riOf sl w).map (.rdctl g)
  | 48 => (ctOf sl w).map (.br g)
  | 49 => (ctOf sl w).map (.bri g)
  | 50 => (ctOf sl w).map (.call g)
  | 51 => (ctOf sl w).map (.ret g)
  | 52 => (ctOf sl w).map (.loop g)
  | 56 => (bareOf sl w).map (.yield g)
  | 57 => (bareOf sl w).map (.endTask g)
  | 58 => (ctOf sl w).map (.trap g)
  | _ => none

-- Vector, array, memory and engine formats (R93 to R104) --------------------------------------------------------------

def vopOf (w : Nat) : VOp :=
  ⟨predOf w, finOf 64 (by decide) (fieldOf w 11 6), finOf 64 (by decide) (fieldOf w 17 6),
    finOf 64 (by decide) (fieldOf w 23 6), finOf 64 (by decide) (fieldOf w 29 6), finOf 4 (by decide) (fieldOf w 35 2),
    finOf 4 (by decide) (fieldOf w 37 2), finOf 32 (by decide) (fieldOf w 39 5), finOf 16 (by decide) (fieldOf w 44 4)⟩

/-- *Vector opcodes*. -/
def decodeV (g w : Nat) : Option Instr :=
  match fieldOf w 5 6 with
  | 0 => if w / 2 ^ 11 = 0 then some (.nop g .v (predOf w)) else none
  | 1 => some (.vadd g (vopOf w))
  | 2 => some (.vsub g (vopOf w))
  | 3 => some (.vmul g (vopOf w))
  | 4 => some (.vfma g (vopOf w))
  | 5 => some (.vmin g (vopOf w))
  | 6 => some (.vmax g (vopOf w))
  | 7 => some (.vabs g (vopOf w))
  | 8 => some (.vneg g (vopOf w))
  | 9 => some (.vadds g (vopOf w))
  | 10 => some (.vcvt g (vopOf w))
  | 11 => some (.vrcp g (vopOf w))
  | 12 => some (.vrsq g (vopOf w))
  | 13 => some (.vsqrt g (vopOf w))
  | 16 => some (.vcmpeq g (vopOf w))
  | 17 => some (.vcmplt g (vopOf w))
  | 18 => some (.vcmple g (vopOf w))
  | 19 => some (.vsel g (vopOf w))
  | 20 => some (.vand g (vopOf w))
  | 21 => some (.vor g (vopOf w))
  | 22 => some (.vxor g (vopOf w))
  | 24 => some (.vhsum g (vopOf w))
  | 28 => some (.vbcast g (vopOf w))
  | 29 => some (.vext g (vopOf w))
  | 30 => some (.vany g (vopOf w))
  | _ => none

def aopdOf (w : Nat) : AOpd :=
  ⟨predOf w, finOf 32 (by decide) (fieldOf w 11 5), finOf 256 (by decide) (fieldOf w 16 8),
    finOf 65536 (by decide) (fieldOf w 24 16)⟩

/-- *Array opcodes*. -/
def decodeA (g w : Nat) : Option Instr :=
  match fieldOf w 5 6 with
  | 0 => if w / 2 ^ 11 = 0 then some (.nop g .a (predOf w)) else none
  | 1 => some (.aop g (aopdOf w))
  | 2 => some (.aldb g (aopdOf w))
  | 3 => some (.adrn g (aopdOf w))
  | 4 => some (.aclr g (aopdOf w))
  | _ => none

def memOf (w : Nat) : MemOp :=
  ⟨predOf w, finOf 64 (by decide) (fieldOf w 11 6), finOf 32 (by decide) (fieldOf w 17 5),
    signedField 26 (fieldOf w 22 26)⟩

def atmOf (w : Nat) : Option AtmOp :=
  if fieldOf w 16 1 = 0 then some ⟨predOf w, finOf 32 (by decide) (fieldOf w 11 5),
    finOf 32 (by decide) (fieldOf w 17 5), finOf 32 (by decide) (fieldOf w 22 5), signedField 21 (fieldOf w 27 21)⟩ else none

def farOf (w : Nat) : Option FarOp :=
  if w / 2 ^ 42 = 0 then some ⟨predOf w, finOf 32 (by decide) (fieldOf w 11 5), finOf 32 (by decide) (fieldOf w 16 5),
    finOf 32 (by decide) (fieldOf w 21 5), finOf 65536 (by decide) (fieldOf w 26 16)⟩ else none

/-- *Memory opcodes*. -/
def decodeM (g w : Nat) : Option Instr :=
  match fieldOf w 5 6 with
  | 0 => if w / 2 ^ 11 = 0 then some (.nop g .m (predOf w)) else none
  | 1 => some (.vld g (memOf w))
  | 2 => some (.vldb g (memOf w))
  | 3 => some (.vst g (memOf w))
  | 4 => some (.sld g (memOf w))
  | 5 => some (.sst g (memOf w))
  | 6 => some (.ald g (memOf w))
  | 8 => (atmOf w).map (.padd64 g)
  | 9 => (atmOf w).map (.padd32 g)
  | 10 => (atmOf w).map (.pswp64 g)
  | 11 => (atmOf w).map (.pswp32 g)
  | 16 => (farOf w).map (.mget g)
  | 17 => (farOf w).map (.mput g)
  | _ => none

def postOf (w : Nat) : Option PostOp :=
  if w / 2 ^ 19 = 0 then some ⟨predOf w, finOf 16 (by decide) (fieldOf w 10 4), finOf 32 (by decide) (fieldOf w 14 5)⟩
  else none

def semOf (w : Nat) : Option SemOp :=
  if w / 2 ^ 31 = 0 then some ⟨predOf w, finOf 65536 (by decide) (fieldOf w 10 16), finOf 32 (by decide) (fieldOf w 26 5)⟩
  else none

/-- *Engine opcodes*; the opcode is bits [9:5] (R86). -/
def decodeE (g w : Nat) : Option Instr :=
  match fieldOf w 5 5 with
  | 0 => if w / 2 ^ 10 = 0 then some (.nop g .e (predOf w)) else none
  | 1 => (postOf w).map (.epost g)
  | 2 => (semOf w).map (.sinc g)
  | 3 => (semOf w).map (.sinc1 g)
  | 4 => (semOf w).map (.swait g)
  | 5 => (semOf w).map (.srd g)
  | 6 => (semOf w).map (.ssig g)
  | _ => none

/-- What a slot word says; none is a reserved encoding. -/
def decodeSlot (g : Nat) (sl : Slot) (w : Nat) : Option Instr :=
  match sl with
  | .s0 => decodeScalar g .s0 w
  | .s1 => decodeScalar g .s1 w
  | .v => decodeV g w
  | .a => decodeA g w
  | .m => decodeM g w
  | .e => decodeE g w

/-- The word of a slot in a bundle, whose bit k is bit k mod 8 of byte k / 8 (R85). -/
def slotWord (bundle : Nat) (sl : Slot) : Nat := fieldOf bundle (slotBits sl).1 (slotBits sl).2

/-- The six slots of a bundle. -/
def decodeBundle (g bundle : Nat) : List (Slot × Option Instr) :=
  [Slot.s0, .s1, .v, .a, .m, .e].map (fun sl => (sl, decodeSlot g sl (slotWord bundle sl)))

-- The encoder ---------------------------------------------------------------------------------------------------------

def encHead (op : Nat) (p : Pred) : Nat := encPred p + 32 * op

def encRR (op : Nat) (o : RR) : Slot × Nat :=
  (slotOfS o.sl, encHead op o.p + o.d.val * 2 ^ 11 + o.x.val * 2 ^ 16 + o.y.val * 2 ^ 21)

def encRI (op : Nat) (o : RI) : Slot × Nat :=
  (slotOfS o.sl, encHead op o.p + o.d.val * 2 ^ 11 + o.x.val * 2 ^ 16 + unsignedField o.sl.immBits o.imm * 2 ^ 26)

def encRRP (op : Nat) (o : RRP) : Slot × Nat :=
  (slotOfS o.sl, encHead op o.p + o.d.val * 2 ^ 11 + o.x.val * 2 ^ 16 + o.y.val * 2 ^ 21)

def encRIP (op : Nat) (o : RIP) : Slot × Nat :=
  (slotOfS o.sl, encHead op o.p + o.d.val * 2 ^ 11 + o.x.val * 2 ^ 16 + unsignedField o.sl.immBits o.imm * 2 ^ 26)

def encPPP (op : Nat) (o : PPP) : Slot × Nat :=
  (slotOfS o.sl, encHead op o.p + o.d.val * 2 ^ 11 + o.x.val * 2 ^ 16 + o.y.val * 2 ^ 21)

def encCT (op : Nat) (o : CT) : Slot × Nat :=
  (.s0, encHead op o.p + o.x.val * 2 ^ 16 + unsignedField 22 o.imm * 2 ^ 26)

def encV (op : Nat) (o : VOp) : Slot × Nat :=
  (.v, encHead op o.p + o.vd.val * 2 ^ 11 + o.vx.val * 2 ^ 17 + o.vy.val * 2 ^ 23 + o.vz.val * 2 ^ 29 + o.rm.val * 2 ^ 35
    + o.ty.val * 2 ^ 37 + o.s.val * 2 ^ 39 + o.cv.val * 2 ^ 44)

def encA (op : Nat) (o : AOpd) : Slot × Nat :=
  (.a, encHead op o.p + o.a.val * 2 ^ 11 + o.mask.val * 2 ^ 16 + o.sem.val * 2 ^ 24)

def encMem (op : Nat) (o : MemOp) : Slot × Nat :=
  (.m, encHead op o.p + o.r.val * 2 ^ 11 + o.base.val * 2 ^ 17 + unsignedField 26 o.imm * 2 ^ 22)

def encAtm (op : Nat) (o : AtmOp) : Slot × Nat :=
  (.m, encHead op o.p + o.d.val * 2 ^ 11 + o.base.val * 2 ^ 17 + o.y.val * 2 ^ 22 + unsignedField 21 o.imm * 2 ^ 27)

def encFar (op : Nat) (o : FarOp) : Slot × Nat :=
  (.m, encHead op o.p + o.pa.val * 2 ^ 11 + o.fa.val * 2 ^ 16 + o.len.val * 2 ^ 21 + o.sem.val * 2 ^ 26)

def encPost (op : Nat) (o : PostOp) : Slot × Nat := (.e, encHead op o.p + o.eng.val * 2 ^ 10 + o.a.val * 2 ^ 14)

def encSem (op : Nat) (o : SemOp) : Slot × Nat := (.e, encHead op o.p + o.sem.val * 2 ^ 10 + o.s.val * 2 ^ 26)

/-- The slot and the word of an instruction; none for a command that is no instruction. -/
def encodeSlot : Instr → Option (Slot × Nat)
  | .nop _ sl p => some (sl, encPred p)
  | .add _ o => some (encRR 1 o)
  | .sub _ o => some (encRR 2 o)
  | .mul _ o => some (encRR 3 o)
  | .and _ o => some (encRR 4 o)
  | .or _ o => some (encRR 5 o)
  | .xor _ o => some (encRR 6 o)
  | .shl _ o => some (encRR 7 o)
  | .shr _ o => some (encRR 8 o)
  | .sar _ o => some (encRR 9 o)
  | .min _ o => some (encRR 10 o)
  | .max _ o => some (encRR 11 o)
  | .addi _ o => some (encRI 16 o)
  | .li _ o => some (encRI 17 o)
  | .lih _ o => some (encRI 18 o)
  | .lit _ o => some (encRI 19 o)
  | .aadd _ o => some (encRR 24 o)
  | .aaddi _ o => some (encRI 25 o)
  | .amov _ o => some (encRR 26 o)
  | .smova _ o => some (encRR 27 o)
  | .cmpeq _ o => some (encRRP 32 o)
  | .cmplt _ o => some (encRRP 33 o)
  | .cmpltu _ o => some (encRRP 34 o)
  | .cmpeqi _ o => some (encRIP 35 o)
  | .cmplti _ o => some (encRIP 36 o)
  | .pand _ o => some (encPPP 40 o)
  | .por _ o => some (encPPP 41 o)
  | .pxor _ o => some (encPPP 42 o)
  | .pnot _ o => some (encPPP 43 o)
  | .rdctl _ o => some (encRI 44 o)
  | .br _ o => some (encCT 48 o)
  | .bri _ o => some (encCT 49 o)
  | .call _ o => some (encCT 50 o)
  | .ret _ o => some (encCT 51 o)
  | .loop _ o => some (encCT 52 o)
  | .yield _ p => some (.s0, encHead 56 p)
  | .endTask _ p => some (.s0, encHead 57 p)
  | .trap _ o => some (encCT 58 o)
  | .vadd _ o => some (encV 1 o)
  | .vsub _ o => some (encV 2 o)
  | .vmul _ o => some (encV 3 o)
  | .vfma _ o => some (encV 4 o)
  | .vmin _ o => some (encV 5 o)
  | .vmax _ o => some (encV 6 o)
  | .vabs _ o => some (encV 7 o)
  | .vneg _ o => some (encV 8 o)
  | .vadds _ o => some (encV 9 o)
  | .vcvt _ o => some (encV 10 o)
  | .vrcp _ o => some (encV 11 o)
  | .vrsq _ o => some (encV 12 o)
  | .vsqrt _ o => some (encV 13 o)
  | .vcmpeq _ o => some (encV 16 o)
  | .vcmplt _ o => some (encV 17 o)
  | .vcmple _ o => some (encV 18 o)
  | .vsel _ o => some (encV 19 o)
  | .vand _ o => some (encV 20 o)
  | .vor _ o => some (encV 21 o)
  | .vxor _ o => some (encV 22 o)
  | .vhsum _ o => some (encV 24 o)
  | .vbcast _ o => some (encV 28 o)
  | .vext _ o => some (encV 29 o)
  | .vany _ o => some (encV 30 o)
  | .aop _ o => some (encA 1 o)
  | .aldb _ o => some (encA 2 o)
  | .adrn _ o => some (encA 3 o)
  | .aclr _ o => some (encA 4 o)
  | .vld _ o => some (encMem 1 o)
  | .vldb _ o => some (encMem 2 o)
  | .vst _ o => some (encMem 3 o)
  | .sld _ o => some (encMem 4 o)
  | .sst _ o => some (encMem 5 o)
  | .ald _ o => some (encMem 6 o)
  | .padd64 _ o => some (encAtm 8 o)
  | .padd32 _ o => some (encAtm 9 o)
  | .pswp64 _ o => some (encAtm 10 o)
  | .pswp32 _ o => some (encAtm 11 o)
  | .mget _ o => some (encFar 16 o)
  | .mput _ o => some (encFar 17 o)
  | .epost _ o => some (encPost 1 o)
  | .sinc _ o => some (encSem 2 o)
  | .sinc1 _ o => some (encSem 3 o)
  | .swait _ o => some (encSem 4 o)
  | .srd _ o => some (encSem 5 o)
  | .ssig _ o => some (encSem 6 o)
  | _ => none

/-- The gallery an instruction names. -/
def instrGal : Instr → Nat
  | .nop g _ _ => g
  | .add g _ => g
  | .sub g _ => g
  | .mul g _ => g
  | .and g _ => g
  | .or g _ => g
  | .xor g _ => g
  | .shl g _ => g
  | .shr g _ => g
  | .sar g _ => g
  | .min g _ => g
  | .max g _ => g
  | .addi g _ => g
  | .li g _ => g
  | .lih g _ => g
  | .lit g _ => g
  | .aadd g _ => g
  | .aaddi g _ => g
  | .amov g _ => g
  | .smova g _ => g
  | .cmpeq g _ => g
  | .cmplt g _ => g
  | .cmpltu g _ => g
  | .cmpeqi g _ => g
  | .cmplti g _ => g
  | .pand g _ => g
  | .por g _ => g
  | .pxor g _ => g
  | .pnot g _ => g
  | .rdctl g _ => g
  | .br g _ => g
  | .bri g _ => g
  | .call g _ => g
  | .ret g _ => g
  | .loop g _ => g
  | .yield g _ => g
  | .endTask g _ => g
  | .trap g _ => g
  | .vadd g _ => g
  | .vsub g _ => g
  | .vmul g _ => g
  | .vfma g _ => g
  | .vmin g _ => g
  | .vmax g _ => g
  | .vabs g _ => g
  | .vneg g _ => g
  | .vadds g _ => g
  | .vcvt g _ => g
  | .vrcp g _ => g
  | .vrsq g _ => g
  | .vsqrt g _ => g
  | .vcmpeq g _ => g
  | .vcmplt g _ => g
  | .vcmple g _ => g
  | .vsel g _ => g
  | .vand g _ => g
  | .vor g _ => g
  | .vxor g _ => g
  | .vhsum g _ => g
  | .vbcast g _ => g
  | .vext g _ => g
  | .vany g _ => g
  | .aop g _ => g
  | .aldb g _ => g
  | .adrn g _ => g
  | .aclr g _ => g
  | .vld g _ => g
  | .vldb g _ => g
  | .vst g _ => g
  | .sld g _ => g
  | .sst g _ => g
  | .ald g _ => g
  | .padd64 g _ => g
  | .padd32 g _ => g
  | .pswp64 g _ => g
  | .pswp32 g _ => g
  | .mget g _ => g
  | .mput g _ => g
  | .epost g _ => g
  | .sinc g _ => g
  | .sinc1 g _ => g
  | .swait g _ => g
  | .srd g _ => g
  | .ssig g _ => g
  | _ => 0

end Sys2Proof
end

