-- ==== Sys2Proof/Machine/Flags.lean ====
section
/-! DEFINITION. Number formats, rounding and the numeric flags (R58 to R60, R69 to R75, R77). A finite value is
(-1)^neg × m × 2^e exactly; every operation computes exactly and rounds once. Flags are the bits of GAL_NUM_FLAGS. -/

namespace Sys2Proof.Machine

/-- GAL_NUM_FLAGS bits: invalid, division by zero, overflow, underflow, inexact, array NaN, array infinity, saturation. -/
def fINV : Nat := 1
def fDZ : Nat := 2
def fOVF : Nat := 4
def fUNF : Nat := 8
def fINX : Nat := 16
def fARRNAN : Nat := 32
def fARRINF : Nat := 64
def fSAT : Nat := 128

/-- The element formats of R58; the number is the array operand format code of R38, FP32 and E8M0 apart. -/
inductive Fmt where
  | e4m3 | e5m2 | e3m2 | e2m3 | e2m1 | int8 | bf16 | fp16 | fp32
  deriving DecidableEq, Repr

/-- Array operand formats (R38). -/
def Fmt.ofCode : Nat → Option Fmt
  | 0 => some .e4m3
  | 1 => some .e5m2
  | 2 => some .e3m2
  | 3 => some .e2m3
  | 4 => some .e2m1
  | 5 => some .int8
  | 6 => some .bf16
  | 7 => some .fp16
  | _ => none

/-- Element width in bits. -/
def Fmt.bits : Fmt → Nat
  | .e4m3 | .e5m2 | .int8 => 8
  | .e3m2 | .e2m3 => 6
  | .e2m1 => 4
  | .bf16 | .fp16 => 16
  | .fp32 => 32

/-- Mantissa field width. -/
def Fmt.mant : Fmt → Nat
  | .e4m3 => 3
  | .e5m2 => 2
  | .e3m2 => 2
  | .e2m3 => 3
  | .e2m1 => 1
  | .int8 => 7
  | .bf16 => 7
  | .fp16 => 10
  | .fp32 => 23

/-- Exponent bias. -/
def Fmt.bias : Fmt → Nat
  | .e4m3 => 7
  | .e5m2 => 15
  | .e3m2 => 3
  | .e2m3 => 1
  | .e2m1 => 1
  | .int8 => 0
  | .bf16 => 127
  | .fp16 => 15
  | .fp32 => 127

/-- Magnitude bits of the largest finite value. -/
def Fmt.maxMag : Fmt → Nat
  | .e4m3 => 0x7E
  | .e5m2 => 0x7B
  | .e3m2 => 0x1F
  | .e2m3 => 0x1F
  | .e2m1 => 0x07
  | .int8 => 127
  | .bf16 => 0x7F7F
  | .fp16 => 0x7BFF
  | .fp32 => 0x7F7FFFFF

/-- Formats whose all-ones exponent encodes infinities and NaNs. -/
def Fmt.ieee : Fmt → Bool
  | .e5m2 | .bf16 | .fp16 | .fp32 => true
  | _ => false

/-- Largest normal exponent (R78). -/
def Fmt.emax : Fmt → Int
  | .e4m3 => 8
  | .e5m2 => 15
  | .e3m2 => 4
  | .e2m3 => 2
  | .e2m1 => 2
  | .int8 => 0
  | .bf16 => 127
  | .fp16 => 15
  | .fp32 => 127

/-- Weight of bit 0 of the smallest subnormal, as an exponent of two. -/
def Fmt.qmin (f : Fmt) : Int := 1 - (f.bias : Int) - (f.mant : Int)

/-- A decoded value. -/
inductive Val where
  /-- A NaN: signalling, sign bit. -/
  | nan (sig neg : Bool)
  | inf (neg : Bool)
  /-- (-1)^neg × m × 2^e; m = 0 is a signed zero. -/
  | fin (neg : Bool) (m : Nat) (e : Int)
  deriving DecidableEq, Repr

def Val.isNan : Val → Bool
  | .nan _ _ => true
  | _ => false

def Val.isSNan : Val → Bool
  | .nan s _ => s
  | _ => false

def Val.isInf : Val → Bool
  | .inf _ => true
  | _ => false

def Val.isZero : Val → Bool
  | .fin _ 0 _ => true
  | _ => false

def Val.neg : Val → Bool
  | .nan _ n => n
  | .inf n => n
  | .fin n _ _ => n

/-- Change the sign. -/
def Val.flip : Val → Val
  | .nan s n => .nan s n
  | .inf n => .inf (!n)
  | .fin n m e => .fin (!n) m e

/-- Decode an element (R59, R70). -/
def Fmt.decode (f : Fmt) (x : Nat) : Val :=
  match f with
  | .int8 =>
    let b := x % 256
    if b < 128 then .fin false b (-6) else .fin true (256 - b) (-6)
  | _ =>
    let x := x % 2 ^ f.bits
    let neg := x >>> (f.bits - 1) == 1
    let mag := x % 2 ^ (f.bits - 1)
    let ex := mag >>> f.mant
    let m := mag % 2 ^ f.mant
    let top := 2 ^ (f.bits - 1 - f.mant) - 1
    if f.ieee && ex == top then
      if m == 0 then .inf neg else .nan (m >>> (f.mant - 1) == 0) neg
    else if f == .e4m3 && mag == 0x7F then .nan false neg
    else if ex == 0 then .fin neg m f.qmin
    else .fin neg (m + 2 ^ f.mant) (f.qmin + (ex - 1))

/-- Rounding modes of R72; sr carries the 32-bit random word of the element. -/
inductive Rnd where
  | rne
  | rtz
  | sr (r : Nat)
  deriving DecidableEq, Repr

/-- Whether a truncated value steps to its neighbour away from zero: t is the truncation, rem the discarded part out of
2^s, sticky says that something non-zero lies below rem (R72, R73). -/
def roundsUp (md : Rnd) (t rem s : Nat) (sticky : Bool) : Bool :=
  match md with
  | .rtz => false
  | .rne =>
    let half := 2 ^ s / 2
    if s == 0 then false
    else decide (half < rem) || (rem == half && (sticky || t % 2 == 1))
  | .sr r => (rem != 0 || sticky) && decide (2 ^ 32 ≤ rem * 2 ^ 32 / 2 ^ s + r)

/-- Round m × 2^e (plus something below one unit when sticky) to a multiple of 2^q: the multiple and whether inexact. -/
def roundAt (md : Rnd) (m : Nat) (e : Int) (sticky : Bool) (q : Int) : Nat × Bool :=
  if q ≤ e then (m * 2 ^ (e - q).toNat, sticky)
  else
    let s := (q - e).toNat
    let t := m >>> s
    let rem := m % 2 ^ s
    (if roundsUp md t rem s sticky then t + 1 else t, rem != 0 || sticky)

/-- floor(log2 (m × 2^e)) for m > 0. -/
def expOf (m : Nat) (e : Int) : Int := (m.log2 : Int) + e

/-- Sign bit and magnitude bits together. -/
def Fmt.pack (f : Fmt) (neg : Bool) (mag : Nat) : Nat := if neg then mag + 2 ^ (f.bits - 1) else mag

/-- The canonical NaN of R70. -/
def Fmt.canon : Fmt → Nat
  | .fp32 => 0x7FC00000
  | .bf16 => 0x7FC0
  | .fp16 => 0x7E00
  | .e5m2 => 0x7F
  | .e4m3 => 0x7F
  | _ => 0

/-- The encoding of an infinity, in formats that have one. -/
def Fmt.infBits (f : Fmt) (neg : Bool) : Nat := f.pack neg (f.maxMag + 1)

/-- A rounded result with the flags it raises. -/
structure FpRes where
  bits : Nat
  flags : Nat
  deriving DecidableEq, Repr

/-- Round a finite non-zero value to a floating-point format: overflow and saturation by Conversion rules (R77),
tininess after rounding (R71). sat is the command's sat option. -/
def Fmt.roundFin (f : Fmt) (md : Rnd) (sat : Bool) (neg : Bool) (m : Nat) (e : Int) (sticky : Bool) : FpRes :=
  let ex := expOf m e
  let qn := ex - (f.mant : Int)
  let q := max qn f.qmin
  let (t, inx) := roundAt md m e sticky q
  let mag := (q - f.qmin).toNat * 2 ^ f.mant + t
  let (tu, _) := roundAt md m e sticky qn
  let tiny := decide (expOf tu qn < f.qmin + (f.mant : Int)) && decide (0 < tu)
  if f.maxMag < mag then
    if f.ieee && !sat then
      match md with
      | .rtz => ⟨f.pack neg f.maxMag, fOVF ||| fINX⟩
      | _ => ⟨f.infBits neg, fOVF ||| fINX⟩
    else ⟨f.pack neg f.maxMag, fSAT ||| fINX⟩
  else ⟨f.pack neg mag, (if inx then fINX else 0) ||| (if tiny && inx then fUNF else 0)⟩

/-- Round to an MXINT8 element, n × 2^-6 (R59, R77). -/
def roundInt8 (md : Rnd) (neg : Bool) (m : Nat) (e : Int) : FpRes :=
  let (t, inx) := roundAt md m e false (-6)
  let fl := if inx then fINX else 0
  if neg then
    if 128 < t then ⟨128, fSAT ||| fINX⟩ else ⟨(256 - t) % 256, fl⟩
  else
    if 127 < t then ⟨127, fSAT ||| fINX⟩ else ⟨t, fl⟩

/-- Round to a plain integer of w bits, two's complement (R77). -/
def roundPlain (w : Nat) (md : Rnd) (neg : Bool) (m : Nat) (e : Int) : FpRes :=
  let (t, inx) := roundAt md m e false 0
  let fl := if inx then fINX else 0
  if neg then
    if 2 ^ (w - 1) < t then ⟨2 ^ (w - 1), fSAT ||| fINX⟩ else ⟨(2 ^ w - t) % 2 ^ w, fl⟩
  else
    if 2 ^ (w - 1) - 1 < t then ⟨2 ^ (w - 1) - 1, fSAT ||| fINX⟩ else ⟨t, fl⟩

/-- Encode a value in a format by Conversion rules (R77). A NaN or infinity reaching a format without one
(E3M2, E2M3, E2M1, MXINT8) is the block's business (R78) and encodes as 0 here. -/
def Fmt.encode (f : Fmt) (md : Rnd) (sat : Bool) (x : Val) : FpRes :=
  match x with
  | .nan sig neg =>
    match f with
    | .e4m3 => ⟨f.pack neg 0x7F, fINV⟩
    | .e5m2 => ⟨f.pack neg 0x7F, if sig then fINV else 0⟩
    | .fp32 | .bf16 | .fp16 => ⟨f.canon, if sig then fINV else 0⟩
    | _ => ⟨0, 0⟩
  | .inf neg =>
    match f with
    | .e4m3 => ⟨f.pack neg f.maxMag, fSAT⟩
    | .e5m2 | .fp32 | .bf16 | .fp16 => ⟨f.infBits neg, 0⟩
    | _ => ⟨0, 0⟩
  | .fin neg m e =>
    if m = 0 then (match f with
      | .int8 => ⟨0, 0⟩
      | _ => ⟨f.pack neg 0, 0⟩)
    else match f with
      | .int8 => roundInt8 md neg m e
      | _ => f.roundFin md sat neg m e false

/-- Convert to a plain integer of w bits (R77): infinities saturate, NaN gives 0 and invalid. -/
def encodePlain (w : Nat) (md : Rnd) (x : Val) : FpRes :=
  match x with
  | .nan _ _ => ⟨0, fINV⟩
  | .inf neg => ⟨if neg then 2 ^ (w - 1) else 2 ^ (w - 1) - 1, fSAT⟩
  | .fin neg m e => if m = 0 then ⟨0, 0⟩ else roundPlain w md neg m e

-- Philox ---------------------------------------------------------------------------------------------------------------

/-- One round of Philox-4×32 (R74). -/
def philoxRound (c : Nat × Nat × Nat × Nat) (k0 k1 : Nat) : Nat × Nat × Nat × Nat :=
  let (c0, c1, c2, c3) := c
  let p0 := 0xD2511F53 * c0
  let p1 := 0xCD9E8D57 * c2
  ((p1 >>> 32) ^^^ c1 ^^^ k0, p1 % 2 ^ 32, (p0 >>> 32) ^^^ c3 ^^^ k1, p0 % 2 ^ 32)

/-- n further rounds; the keys advance between rounds. -/
def philoxRounds : Nat → Nat × Nat × Nat × Nat → Nat → Nat → Nat × Nat × Nat × Nat
  | 0, c, _, _ => c
  | n + 1, c, k0, k1 =>
    philoxRounds n (philoxRound c k0 k1) ((k0 + 0x9E3779B9) % 2 ^ 32) ((k1 + 0xBB67AE85) % 2 ^ 32)

/-- The generator of R74. -/
def philox (c0 c1 c2 c3 k0 k1 : Nat) : Nat × Nat × Nat × Nat := philoxRounds 10 (c0, c1, c2, c3) k0 k1

/-- The four words drawn for a 64-bit index, stream and purpose under a 64-bit seed (R75). -/
def drawWords (seed index stream purpose : Nat) : Nat × Nat × Nat × Nat :=
  philox (index % 2 ^ 32) (index >>> 32 % 2 ^ 32) (stream % 2 ^ 32) purpose (seed % 2 ^ 32) (seed >>> 32 % 2 ^ 32)

/-- Generator purposes (R75). -/
def purposeVSR : Nat := 0
def purposeCSR : Nat := 1
def purposeRNG : Nat := 2
def purposeDROP : Nat := 3

/-- The stochastic-rounding word of one element (R75). -/
def srWord (seed index stream purpose : Nat) : Nat := (drawWords seed (index % 2 ^ 64) stream purpose).1

end Sys2Proof.Machine
end

