-- ==== Sys2Proof/Machine/Fp.lean ====
section
/-! DEFINITION. Floating-point operations on decoded values, each exact and rounded once (R69 to R71, R93): sums,
products, fused products, reciprocals, roots, comparisons, minimum and maximum, exact sums of many values (R79). -/

namespace Sys2Proof.Machine

/-- A signed dyadic: i × 2^e. -/
def signedOf (neg : Bool) (m : Nat) : Int := if neg then -(m : Int) else (m : Int)

/-- Round an exact signed dyadic; a zero result is +0 unless negZero says that it is -0. -/
def Fmt.roundInt (f : Fmt) (md : Rnd) (i : Int) (e : Int) (negZero : Bool) : FpRes :=
  if i = 0 then ⟨f.pack negZero 0, 0⟩
  else f.roundFin md false (decide (i < 0)) i.natAbs e false

/-- The invalid flag for a signalling NaN among the operands (R70). -/
def sNanFlag (xs : List Val) : Nat := if xs.any Val.isSNan then fINV else 0

/-- The canonical NaN with flags. -/
def Fmt.nanRes (f : Fmt) (fl : Nat) : FpRes := ⟨f.canon, fl⟩

/-- Add flags to a result. -/
def FpRes.withFlags (r : FpRes) (fl : Nat) : FpRes := ⟨r.bits, r.flags ||| fl⟩

/-- Align two finite values and add. -/
def addDyadic (n1 : Bool) (m1 : Nat) (e1 : Int) (n2 : Bool) (m2 : Nat) (e2 : Int) : Int × Int :=
  let e := min e1 e2
  (signedOf n1 (m1 * 2 ^ (e1 - e).toNat) + signedOf n2 (m2 * 2 ^ (e2 - e).toNat), e)

/-- Addition: R69, R70 for NaNs and exact zero sums. -/
def fpAdd (f : Fmt) (md : Rnd) (x y : Val) : FpRes :=
  let sn := sNanFlag [x, y]
  match x, y with
  | .nan _ _, _ => f.nanRes sn
  | _, .nan _ _ => f.nanRes sn
  | .inf a, .inf b => if a == b then ⟨f.infBits a, 0⟩ else f.nanRes fINV
  | .inf a, _ => ⟨f.infBits a, 0⟩
  | _, .inf b => ⟨f.infBits b, 0⟩
  | .fin n1 m1 e1, .fin n2 m2 e2 =>
    let (i, e) := addDyadic n1 m1 e1 n2 m2 e2
    f.roundInt md i e (n1 && n2)

/-- The exact product, before rounding. -/
def mulVal (x y : Val) : Option Val :=
  match x, y with
  | .nan _ _, _ => none
  | _, .nan _ _ => none
  | .inf a, .inf b => some (.inf (a != b))
  | .inf a, .fin b m _ => if m = 0 then none else some (.inf (a != b))
  | .fin a m _, .inf b => if m = 0 then none else some (.inf (a != b))
  | .fin a m e, .fin b n k => some (.fin (a != b) (m * n) (e + k))

/-- Whether a product or sum without a NaN operand is an invalid operation. -/
def newNanFlag (xs : List Val) : Nat := if xs.any Val.isNan then sNanFlag xs else fINV

/-- Multiplication. -/
def fpMul (f : Fmt) (md : Rnd) (x y : Val) : FpRes :=
  match mulVal x y with
  | none => f.nanRes (newNanFlag [x, y])
  | some (.inf n) => ⟨f.infBits n, 0⟩
  | some (.fin n m e) => if m = 0 then ⟨f.pack n 0, 0⟩ else f.roundFin md false n m e false
  | some (.nan _ _) => f.nanRes 0

/-- Fused multiply-add, rounded once. -/
def fpFma (f : Fmt) (md : Rnd) (x y z : Val) : FpRes :=
  match mulVal x y with
  | none => f.nanRes (newNanFlag [x, y] ||| sNanFlag [z])
  | some p => (fpAdd f md p z).withFlags (sNanFlag [x, y])

/-- The reciprocal: m × 2^e becomes 2^k / m with enough quotient bits and a sticky remainder. -/
def fpRcp (f : Fmt) (md : Rnd) (x : Val) : FpRes :=
  match x with
  | .nan s _ => f.nanRes (if s then fINV else 0)
  | .inf n => ⟨f.pack n 0, 0⟩
  | .fin n m e =>
    if m = 0 then ⟨f.infBits n, fDZ⟩
    else
      let k := m.log2 + 96
      f.roundFin md false n (2 ^ k / m) (-(k : Int) - e) (2 ^ k % m != 0)

/-- Integer square root, one result bit per step from bit n - 1 down: r is the root found, x the radicand. -/
def isqrtGo (x : Nat) : Nat → Nat → Nat
  | 0, r => r
  | n + 1, r =>
    let c := r + 2 ^ n
    isqrtGo x n (if c * c ≤ x then c else r)

/-- floor(√x). -/
def isqrt (x : Nat) : Nat := isqrtGo x (x.log2 / 2 + 1) 0

/-- √(m × 2^e) as root × 2^q with a sticky flag, at least 64 root bits. -/
def sqrtDyadic (m : Nat) (e : Int) : Nat × Int × Bool :=
  let odd := e % 2 == 1
  let m1 := if odd then 2 * m else m
  let e1 := if odd then e - 1 else e
  let m2 := m1 * 2 ^ 192
  let r := isqrt m2
  (r, e1 / 2 - 96, r * r != m2)

/-- Square root. -/
def fpSqrt (f : Fmt) (md : Rnd) (x : Val) : FpRes :=
  match x with
  | .nan s _ => f.nanRes (if s then fINV else 0)
  | .inf n => if n then f.nanRes fINV else ⟨f.infBits false, 0⟩
  | .fin n m e =>
    if m = 0 then ⟨f.pack n 0, 0⟩
    else if n then f.nanRes fINV
    else
      let (r, q, st) := sqrtDyadic m e
      f.roundFin md false false r q st

/-- Reciprocal square root: 1/√(m × 2^e) = √(2^k / m) scaled, correctly rounded through the root of a quotient. -/
def fpRsqrt (f : Fmt) (md : Rnd) (x : Val) : FpRes :=
  match x with
  | .nan s _ => f.nanRes (if s then fINV else 0)
  | .inf n => if n then f.nanRes fINV else ⟨f.pack false 0, 0⟩
  | .fin n m e =>
    if m = 0 then ⟨f.infBits n, fDZ⟩
    else if n then f.nanRes fINV
    else
      let odd := e % 2 == 1
      let m1 := if odd then 2 * m else m
      let e1 := if odd then e - 1 else e
      let k := 2 * (m1.log2 + 128)
      let t := 2 ^ k / m1
      let r := isqrt t
      f.roundFin md false false r (-(k : Int) / 2 - e1 / 2) (r * r != t || 2 ^ k % m1 != 0)

/-- Numeric order of two non-NaN values: -1, 0 or 1; the two zeros are equal. -/
def cmpVal (x y : Val) : Int :=
  match x, y with
  | .inf a, .inf b => if a == b then 0 else if a then -1 else 1
  | .inf a, _ => if a then -1 else 1
  | _, .inf b => if b then 1 else -1
  | .fin n1 m1 e1, .fin n2 m2 e2 =>
    let (i, _) := addDyadic n1 m1 e1 (!n2) m2 e2
    if i < 0 then -1 else if i = 0 then 0 else 1
  | _, _ => 0

/-- IEEE 754-2019 minimum (isMax false) or maximum on encodings (R70). -/
def fpMinMax (f : Fmt) (isMax : Bool) (a b : Nat) : FpRes :=
  let x := f.decode a
  let y := f.decode b
  if x.isNan || y.isNan then f.nanRes (sNanFlag [x, y])
  else
    let c := cmpVal x y
    let aLess := decide (c < 0) || (c == 0 && x.neg)
    ⟨if aLess != isMax then a else b, 0⟩

/-- Exact sum of values, rounded once; an exact zero is +0 (R79). -/
def sumFin (xs : List Val) : Int × Int :=
  let lo := xs.foldl (fun acc x => match x with
    | .fin _ m e => if m = 0 then acc else min acc e
    | _ => acc) (0 : Int)
  (xs.foldl (fun acc x => match x with
    | .fin n m e => acc + signedOf n (m * 2 ^ (e - lo).toNat)
    | _ => acc) (0 : Int), lo)

/-- Exact-then-round sum (R79): NaN, or both infinities, gives the canonical NaN. -/
def exactSum (f : Fmt) (md : Rnd) (xs : List Val) : FpRes :=
  let sn := sNanFlag xs
  if xs.any Val.isNan then f.nanRes sn
  else
    let pinf := xs.any (fun x => x == .inf false)
    let ninf := xs.any (fun x => x == .inf true)
    if pinf && ninf then f.nanRes fINV
    else if pinf then ⟨f.infBits false, 0⟩
    else if ninf then ⟨f.infBits true, 0⟩
    else
      let (i, e) := sumFin xs
      f.roundInt md i e false

/-- Two's-complement value of the low w bits. -/
def sInt (w x : Nat) : Int :=
  let x := x % 2 ^ w
  if x < 2 ^ (w - 1) then (x : Int) else (x : Int) - (2 ^ w : Nat)

/-- The low w bits of an integer. -/
def wrapInt (w : Nat) (i : Int) : Nat := (i % (2 ^ w : Nat)).toNat

/-- Saturate to w bits two's complement (R79): result and whether it saturated. -/
def satInt (w : Nat) (i : Int) : Nat × Bool :=
  if i < -(2 ^ (w - 1) : Nat) then (2 ^ (w - 1), true)
  else if (2 ^ (w - 1) : Nat) ≤ i then (2 ^ (w - 1) - 1, true)
  else (wrapInt w i, false)

end Sys2Proof.Machine
end

