-- ==== Sys2Proof/Config.lean ====
section
/-! DEFINITION. What the spec leaves open: constants and functions without a body, so that no proof can see a value.
Where a value has no operands to depend on, the step supplies State.tick, a counter that every use advances. -/

namespace Sys2Proof.Config

/-- Which of two results of one slot, reaching one register in one local cycle, is kept: R87 ranks slots only. -/
opaque sameSlotKeepsLater : Nat → Bool

/-- Whether a sequencer pool access loses its bank to the array feed: R167 lets the feed read up to 16 cycles ahead. -/
opaque feedWins : Nat → Bool

/-- Whether the array feed saw the new value of a line written between issue and consumption (R167). -/
opaque feedSawNew : Nat → Nat → Bool

/-- Bytes of the save area after a pre-emption: their layout is not architectural (R112). -/
opaque saveByte : Nat → Nat → Byte

/-- Whether ATS reports a host page present with the permission asked for: the host's answer (R294). -/
opaque atsPresent : Nat → Bool

/-- Which byte of the source range a byte of an overlapping destination holds (R158). -/
opaque copyOverlap : Nat → Nat → Nat

/-- An element of a block whose supplied scale is 0xFF, the NaN scale: R77 gives such an element no value. -/
opaque nanScaleElem : Nat → Nat → Nat

/-- Which free index, frame or cache entry the device takes where the spec leaves the choice open: a starting point for the
search among the free ones (R254, R257). -/
opaque pick : Nat → Nat

/-- Byte k of an output of the random-bit generator: keys and nonces are unpredictable (R425). -/
opaque randomByte : Nat → Nat → Byte

/-- Host error code of an HTN_ATOMIC that the peer refused or that failed: R350 gives none. -/
opaque linkErr : Nat → Nat

/-- The MSI-X vector of an interrupt for which no register names one (R206, R366, SVY_CFG.ie). -/
opaque openVector : Nat → Nat

/-- `code` of a RAS record whose fault stands in neither *Single faults* nor *Escalation* (R356). -/
opaque rasCode : Nat → Nat

/-- Whether the division by 8 of a learned power is rounded up: R359 names no rounding. -/
opaque phaseUp : Nat → Bool

/-- Power that a phase seen first takes while its gallery's table is empty (R359). -/
opaque phaseFirst : Nat → Nat

/-- Byte k of the fused unique device secret (R418). -/
opaque deviceSecret : Nat → Byte

/-- Byte k of the substitute test root, which Ohmair publishes elsewhere (R419). -/
opaque testRoot : Nat → Byte

/-- Arguments of a gap record beyond the first, and the number of records that were not produced (R407). -/
opaque gapCount : Nat → Nat

/-- A byte that a relayout does not copy, by its key (R239). -/
opaque relayoutByte : Nat → Nat → Byte

/-- The payload of a SEQ_STATE dump record: R393 names its contents and gives no layout. -/
opaque seqState : Nat → List Byte

/-- How many records a dump has read when it reaches its bound (R391). -/
opaque dumpDone : Nat → Nat

/-- The detail of a NOREPLAY fault caused by a started remote command: R371 lists none for it (R383). -/
opaque replayDetail : Nat → Nat

/-- Times that a start-up took, in ms (DEV_BOOT_TIME): only their bounds are stated (R445). -/
opaque bootMs : Nat → Nat

/-- Byte k of the substitute-root certificate chain, and its length (R420). -/
opaque testChain : List Byte

/-- Fused maximum hall steps and the digest of the mask ROM, which measurement blocks 4 and 1 hold (R435). -/
opaque maxSteps : List Byte
opaque romDigest : List Byte

/-- The PLDM terminus ID that GetTID returns (R452). -/
opaque pldmTid : Nat

/-- The contents of a management reply whose bytes another standard lays out (R434, R452). -/
opaque protocolByte : Nat → Nat → Byte

end Sys2Proof.Config
end

