-- ==== Sys2Proof/Machine/State.lean ====
section
/-! DEFINITION. The state of the part: plain data. Registers are held per field (State.regs); memories and object
tables are sparse tables in canonical form. -/

namespace Sys2Proof.Machine

/-- Why the machine stops with a fault. The spec gives every error of this part an effect (a status code, a trap, a
record), so no command of the table ends in one. -/
inductive Fault where
  /-- Raised by no meaning: kept because the outcome type asks for a fault type. Safe. -/
  | none
  deriving DecidableEq, Repr

/-- Why a command has no meaning. -/
inductive Refusal where
  /-- Raised by an arm of exec for a command without a meaning yet. Safe. -/
  | notModelled (mnemonic : String)
  /-- Raised by every meaning for a command that Instr.wf rejects: it names a gallery, port, partition or other unit
  that the part does not have, so no such command exists. Safe. -/
  | illFormed
  deriving DecidableEq, Repr

-- Galleries -----------------------------------------------------------------------------------------------------------

/-- One level of the loop stack (R92): pool offsets of the first and last bundle of the body, iterations left. -/
structure LoopFrame where
  first : Nat
  last : Nat
  left : Nat
  /-- Whether the first iteration is done, so that the loop buffer serves the body. -/
  looped : Bool
  deriving DecidableEq, Repr

/-- A result on its way to a register (R82, R87, R106). -/
inductive Result where
  | s (d : Nat) (v : Word)
  | a (d : Nat) (v : Addr)
  | p (d : Nat) (b : Bool)
  | v (d : Nat) (c0 c1 c2 c3 : VWord)
  /-- One byte quarter of a vector register (R94). -/
  | vq (d q : Nat) (c0 c1 c2 c3 : BitVec 1024)
  deriving DecidableEq, Repr

/-- A pending result: the local cycle from which bundles see it, its slot, and the numeric flags it sets then (R71). -/
structure Pending where
  due : Nat
  slot : Nat
  res : Result
  flags : Nat
  deriving DecidableEq, Repr

/-- An outstanding far move (R100, R101). -/
structure FarMove where
  get : Bool
  pa : Nat
  fa : Nat
  len : Nat
  sem : Nat
  /-- Its number, which the requests it sends carry. -/
  id : Nat
  /-- The window it goes through, or none for a translated address. -/
  win : Option Nat
  /-- The outcome when it is already known: 0 in progress or good, otherwise a trap code. -/
  err : Nat
  deriving DecidableEq, Repr

/-- What a gallery waits for (R81, R105, R113). -/
inductive Wait where
  | none
  /-- At an SWAIT: semaphore, threshold, whether the head's continue decision has come. -/
  | swait (sem : Nat) (val : Nat) (go : Bool)
  /-- At a YIELD of a span, away from the head: the decision has not come. -/
  | decision
  /-- After END, for the far moves of the task (R115). -/
  | drain
  deriving DecidableEq, Repr

/-- What is saved at a mark (R112, R380). -/
structure Saved where
  s : Tab Word
  a : Tab Addr
  p : Tab Bool
  pc : Nat
  loops : List LoopFrame
  rets : List Nat
  marks : Nat
  lcycle : Nat
  flags : Nat
  /-- The semaphore and threshold of the SWAIT at which the task resumes, if the mark is one. -/
  atSwait : Option (Nat × Nat)
  deriving DecidableEq, Repr

/-- A bundle line in the fetch queue or the loop buffer: pool offset and bytes. -/
structure Line where
  off : Nat
  bytes : List Byte
  deriving DecidableEq, Repr

/-- The fields of an array-operation descriptor (R36). -/
structure Desc where
  kind : Nat
  fmtA : Nat
  fmtB : Nat
  init : Nat
  drain : Bool
  bsrc : Bool
  flagsRsv : Nat
  mActive : Nat
  bHalf : Nat
  nGroups : Nat
  kLen : Nat
  kBase : Nat
  aAddr : Nat
  aScale : Nat
  bAddr : Nat
  bScale : Nat
  bMeta : Nat
  cAddr : Nat
  sem : Nat
  rsvZero : Bool
  deriving DecidableEq, Repr

/-- An AOP between issue and completion, or an ALDB being loaded: its descriptor, issue cycle, streaming time, and the
operand cells as they stood at issue (R167). -/
structure ArrOp where
  opno : Nat
  addr : Nat
  d : Desc
  t0 : Nat
  tk : Nat
  /-- The pool of the gallery at issue, in the regions the operation reads. -/
  snap : List Host.Cell
  /-- Operand and scale bytes of A received on the edge-forwarding link, away from the head. -/
  aData : List Byte
  aScale : List Byte
  /-- Whether the first A entry has been accepted (R37); true at once in the head. -/
  started : Bool
  /-- A entries received. -/
  got : Nat
  deriving DecidableEq, Repr

/-- An ADRN or ACLR between issue and completion. -/
structure BandOp where
  addr : Nat
  mask : Nat
  sem : Nat
  t0 : Nat
  m : Nat
  n : Nat
  deriving DecidableEq, Repr

/-- A half of the B buffer (R43). -/
structure BHalf where
  full : Bool
  kLen : Nat
  kind : Nat
  fmtB : Nat
  /-- The loaded values, scales and metadata, keyed by their pool offsets, with the descriptor that named them. -/
  bAddr : Nat
  bScale : Nat
  bMeta : Nat
  cells : List Host.Cell
  deriving DecidableEq, Repr

/-- An empty half. -/
def BHalf.empty : BHalf := ⟨false, 0, 0, 0, 0, 0, 0, []⟩

/-- One gallery: the state its registers of BAR0 do not hold. -/
structure Gal where
  /-- The task loaded, by its identifier in State.subs. -/
  task : Option Nat
  /-- Whether local cycle 0 has come. -/
  started : Bool
  /-- The gallery's local cycle count (R31). -/
  lcycle : Nat
  /-- The pool offset of the bundle due. -/
  pc : Nat
  s : Tab Word
  a : Tab Addr
  p : Tab Bool
  /-- Vector registers, keyed register × 4 + core. -/
  v : Tab VWord
  loops : List LoopFrame
  rets : List Nat
  /-- A taken branch: its target and the delay bundles left (R90). -/
  delay : Option (Nat × Nat)
  /-- NOP bundles left of an empty loop (R92). -/
  nops : Nat
  pend : List Pending
  fars : List FarMove
  wait : Wait
  /-- Marks passed since the task started, and local cycles issued since the last one (R111). -/
  marks : Nat
  sinceMark : Nat
  /-- END has issued (R115). -/
  ended : Bool
  /-- A trap raised and not yet spread over the span: its code and TRAP_PC (R116). -/
  trapped : Option (Nat × Nat)
  /-- At the head: the galleries that reported ready (R32). -/
  ready : List Nat
  /-- Decisions of the head that arrived before their mark (R113). -/
  decisions : List Bool
  fetchq : List Line
  loopBuf : List Line
  /-- Array operations in flight, oldest first; the operation counter of the stream. -/
  aops : List ArrOp
  opno : Nat
  aldb : Option ArrOp
  adrns : List BandOp
  aclrs : List BandOp
  /-- Issue cycle and streaming time of the last AOP of the task, issue cycle of the last ADRN (R35). -/
  lastAop : Option (Nat × Nat)
  lastAdrn : Option Nat
  /-- m_active and n_groups of the last AOP since the last mark (R474). -/
  lastShape : Option (Nat × Nat)
  /-- Running sums, FP32, keyed row × 768 + column (R27). -/
  sums : Tab Nat
  half0 : BHalf
  half1 : BHalf
  /-- Entries of A received before the operation they belong to. -/
  ingress : List AEntry
  /-- Hold cycles in a row with no issue cycle between (R54). -/
  holdRun : Nat
  /-- Column groups that hum (R51). -/
  hum : List Nat
  /-- The two last marks in the hall's mark shadow, newest first (R380). -/
  shadow : List Saved
  /-- Semaphore journal of the pool domain (R381): semaphore, amount, mark; whether it has overflowed. -/
  journal : List (Nat × Nat × Nat)
  journalFull : Bool
  /-- Promoted pool requests and their banks (R166). -/
  promoted : List (PoolReq × Nat)
  /-- The next row of the patrol scrub (R173). -/
  scrubRow : Nat
  /-- Cycles the running task has used, not yet charged (R306). -/
  used : Nat
  deriving DecidableEq, Repr

/-- A gallery with nothing loaded. -/
def Gal.idle : Gal :=
  { task := none, started := false, lcycle := 0, pc := 0, s := [], a := [], p := [], v := [], loops := [], rets := [],
    delay := none, nops := 0, pend := [], fars := [], wait := .none, marks := 0, sinceMark := 0, ended := false,
    trapped := Option.none, ready := [], decisions := [], fetchq := [], loopBuf := [], aops := [], opno := 0, aldb := none,
    adrns := [], aclrs := [], lastAop := none, lastAdrn := none, lastShape := none, sums := [], half0 := .empty,
    half1 := .empty, ingress := [], holdRun := 0, hum := [], shadow := [], journal := [], journalFull := false, promoted := [], scrubRow := 0, used := 0 }


-- Engines -------------------------------------------------------------------------------------------------------------

/-- What EPOST captures with a command (R123). -/
structure Captured where
  task : Nat
  ctx : Nat
  epoch : Nat
  base : Nat
  limit : Nat
  seed : Nat
  relaxed : Bool
  /-- The mark after which it was posted (R381). -/
  mark : Nat
  deriving DecidableEq, Repr

/-- An armed relay slot of a collective engine (R153): the RELAY command, what was captured with it, its ring index, the
upstream blocks that arrived and wait, in their order of arrival, and the blocks forwarded or written. -/
structure RelaySlot where
  slot : Nat
  cmd : List Byte
  cap : Captured
  idx : Nat
  arrived : List (Nat × List Byte)
  done : List Nat
  deriving DecidableEq, Repr

/-- A parked copy command (R291): fault record fields, whether the record is posted. Cause 2, which no record carries, is the
model's own: the command is held until its function returns to D0 (R278). -/
structure Parked where
  va : Nat
  cause : Nat
  access : Nat
  level : Nat
  posted : Bool
  /-- The progress unit at which the command resumes. -/
  unit : Nat
  /-- Waiting for a PRI response (R294). -/
  pri : Bool
  deriving DecidableEq, Repr

/-- How far the command at the ring head has come. -/
inductive EngPhase where
  /-- No command is taken, or the one taken is to be run from its start. -/
  | idle
  /-- Taken from the ring, waiting for something outside the engine (a remote response, a relay, a parked page). -/
  | waiting (step : Nat)
  /-- All its writes are made: completion code, info and count wait for COMMAND_COMPLETE (R124 to R128). -/
  | finished (code info count : Nat)
  deriving DecidableEq, Repr

/-- An engine: what its registers do not hold. -/
structure Eng where
  /-- Captured data of the ring entries, keyed by ring index. -/
  caps : List (Nat × Captured)
  /-- The command taken from the ring: its 64 bytes, what was captured, its ring index. -/
  cur : Option (List Byte × Captured × Nat)
  phase : EngPhase
  parked : Option Parked
  relays : List RelaySlot
  /-- Echo times of the watchdog expiries within the last second (R375). -/
  expiries : List Nat
  deriving DecidableEq, Repr

/-- An idle engine. -/
def Eng.idle : Eng := ⟨[], none, .idle, none, [], []⟩

-- Contexts and shared objects -----------------------------------------------------------------------------------------

/-- A context (R256); the epoch and nothing else outlives the freeing of the ID. State codes are Context states. -/
structure Ctx where
  st : Nat
  epoch : Nat
  prt : Nat
  pasid : Nat
  nopasid : Bool
  relaxed : Bool
  weight : Nat
  seed : Nat
  /-- The function through whose window it was created (R278). -/
  func : Nat
  /-- Code of the last fault or halt (CTX_QUERY). -/
  code : Nat
  flags : Nat
  acct : Nat
  acctSat : Bool
  pass : Nat
  /-- The slot served last (R304); 15 before the first, so that the search starts at slot 0. -/
  lastSlot : Nat
  /-- The root table (R282): none before the first SET_ROOT. -/
  root : Option Nat
  /-- Extensions buffered in the portal, keyed by slot (R263). -/
  exts : Tab (List Byte)
  /-- Event ring: enable, function, vector, log2 size, base, head, tail, passes, sequence number, records dropped. -/
  evEn : Bool
  evFunc : Nat
  evVec : Nat
  evLog : Nat
  evBase : Nat
  evHead : Nat
  evTail : Nat
  evPass : Nat
  evSeq : Nat
  evDrop : Nat
  /-- Records dropped since creation, saturating (CTX_QUERY). -/
  evLost : Nat
  deriving DecidableEq, Repr

/-- A free context ID. -/
def Ctx.free : Ctx :=
  { st := 0, epoch := 0, prt := 0, pasid := 0, nopasid := false, relaxed := false, weight := 0, seed := 0, func := 0,
    code := 0, flags := 0, acct := 0, acctSat := false, pass := 0, lastSlot := 15, root := none,
    exts := [], evEn := false, evFunc := 0, evVec := 0, evLog := 0, evBase := 0, evHead := 0, evTail := 0, evPass := 0,
    evSeq := 0, evDrop := 0, evLost := 0 }

/-- A queue (R257). -/
structure Queue where
  gen : Nat
  live : Bool
  ctx : Nat
  slot : Nat
  log : Nat
  devmem : Bool
  pin : Bool
  held : Bool
  base : Nat
  cookie : Nat
  head : Nat
  tail : Nat
  /-- The ring index of the next entry to read (R260, R266). -/
  next : Nat
  halted : Bool
  code : Nat
  cached : Bool
  /-- Submissions read and not retired, in ring order. -/
  subs : List Nat
  deriving DecidableEq, Repr

/-- A free queue index. -/
def Queue.free : Queue :=
  { gen := 0, live := false, ctx := 0, slot := 0, log := 0, devmem := false, pin := false, held := false, base := 0,
    cookie := 0, head := 0, tail := 0, next := 0, halted := false, code := 0, cached := false, subs := [] }

/-- A memory object (R267). -/
structure MObj where
  gen : Nat
  live : Bool
  ctx : Nat
  shared : Bool
  base : Nat
  size : Nat
  cookie : Nat
  host : Nat
  dev : Nat
  deriving DecidableEq, Repr

/-- A free memory-object index. -/
def MObj.free : MObj := ⟨0, false, 0, false, 0, 0, 0, 0, 0⟩

/-- A fence (R269): st is 0 unsignalled, 1 signalled, 2 signalled-with-error. -/
structure Fence where
  gen : Nat
  live : Bool
  ctx : Nat
  value : Nat
  st : Nat
  mode : Nat
  cookie : Nat
  thr : Nat
  deriving DecidableEq, Repr

/-- A free fence index. -/
def Fence.free : Fence := ⟨0, false, 0, 0, 0, 0, 0, 0⟩

/-- Where a submission stands. -/
inductive Stage where
  /-- Unused identifier. -/
  | none
  /-- Read, and refused by a check of R260: it stays at its place until Q_RESUME (R262). -/
  | rejected
  /-- Accepted, waiting for its order or its fence (R261). -/
  | accepted
  /-- May start (R304). -/
  | ready
  /-- On a run of galleries. -/
  | placed
  /-- Yielded, reserving its galleries (R309). -/
  | suspended
  /-- Copied to the park range (R242). -/
  | parked
  /-- Every gallery has ended and reported (R115); engine commands may still run. -/
  | complete
  /-- Discarded because its fallback took its place; its release waits for the fallback (R316). -/
  | replaced
  deriving DecidableEq, Repr

/-- A submission, and the task it becomes (R258 to R261). -/
structure Sub where
  stage : Stage
  q : Nat
  ctx : Nat
  prt : Nat
  /-- Ring index of its first entry, and its 64 or 128 bytes. -/
  ring : Nat
  raw : List Byte
  isTask : Bool
  lc : Bool
  conc : Bool
  span : Nat
  prog : Nat
  args : List Word
  wfence : Nat
  sfence : Nat
  wval : Nat
  sval : Nat
  deadline : Option Nat
  fallback : Nat
  mobjs : List Nat
  /-- When it became ready, in the order of the dispatch block. -/
  seq : Nat
  started : Bool
  /-- The seed captured at dispatch (R76). -/
  seed : Nat
  /-- Its run in chaining order; galleries that have ended; galleries that have yielded. -/
  gals : List Nat
  endedGals : List Nat
  yielded : List Nat
  /-- State saved at the yielded mark, per position (R112). -/
  saved : List (Nat × Saved)
  /-- Contents of its windows while parked, per position (R242). -/
  parkedMem : List (Nat × List Host.Cell)
  /-- Engine commands posted and not completed (R131). -/
  posted : Nat
  /-- Deadline missed (R315); a fallback's submission that replaces this one, or the one this replaces (R316). -/
  missed : Bool
  replacedBy : Option Nat
  replaces : Option Nat
  deriving DecidableEq, Repr

/-- An unused submission. -/
def Sub.none : Sub :=
  { stage := .none, q := 0, ctx := 0, prt := 0, ring := 0, raw := [], isTask := false, lc := false, conc := false,
    span := 0, prog := 0, args := [], wfence := 0, sfence := 0, wval := 0, sval := 0, deadline := Option.none,
    fallback := 0, mobjs := [], seq := 0, started := false, seed := 0, gals := [], endedGals := [], yielded := [],
    saved := [], parkedMem := [], posted := 0, missed := false, replacedBy := Option.none, replaces := Option.none }

/-- A program slot (R300 to R302). -/
structure Prog where
  gen : Nat
  reg : Bool
  image : Nat
  codeOff : Nat
  codeSize : Nat
  dataOff : Nat
  dataSize : Nat
  span : Nat
  base : Nat
  size : Nat
  entry : Nat
  save : Nat
  ymax : Nat
  replay : Bool
  resident : List Nat
  /-- Galleries whose copy has not ended (R302). -/
  loading : List Nat
  deriving DecidableEq, Repr

/-- A free program slot. -/
def Prog.free : Prog := ⟨0, false, 0, 0, 0, 0, 0, 0, 0, 0, 0, 0, 0, false, [], []⟩

/-- A window table entry (R295): kind is 0 free, 1 export, 2 import. -/
structure Win where
  gen : Nat
  kind : Nat
  ctx : Nat
  peer : Nat
  peerPrt : Nat
  peerIdx : Nat
  peerGen : Nat
  base : Nat
  size : Nat
  rights : Nat
  arrivals : Nat
  deriving DecidableEq, Repr

/-- A free window. -/
def Win.free : Win := ⟨0, 0, 0, 0, 0, 0, 0, 0, 0, 0, 0⟩

/-- A message held back at the PCI Express controller (D3hot, R278). -/
inductive HostMsg where
  | write (pasid : Option Nat) (addr : Nat) (data : List Byte)
  | msix (v : Nat)
  deriving DecidableEq, Repr

/-- A PCI function (R278, R289, R291). -/
structure Func where
  d3 : Bool
  /-- Messages held while in D3hot, oldest first. -/
  held : List HostMsg
  /-- The MSI-X table, by entry (cleared by a Function Level Reset). -/
  msix : Tab Nat
  /-- Fault ring: passes and record number. -/
  frPass : Nat
  frSeq : Nat
  /-- Invalidation queue: the invalidation at the head that is being executed, with its opcode. -/
  iqCur : Option (Nat × IqCmd)
  /-- Writes of the dirty log that still go to the old bitmap (R275), and the base they use. -/
  dlOld : Option Nat
  deriving DecidableEq, Repr

/-- A function after reset. -/
def Func.reset : Func := ⟨false, [], [], 0, 0, none, none⟩

-- Partitions and the Survey -------------------------------------------------------------------------------------------

/-- A peer of ROUTES (R227). -/
structure Peer where
  id : Nat
  prt : Nat
  ports : Nat
  deriving DecidableEq, Repr

/-- One partition as the Survey in force describes it (R227). -/
structure Part where
  defined : Bool
  owner : Nat
  func : Nat
  pflags : Nat
  ctxQuota : Nat
  qQuota : Nat
  fenceQuota : Nat
  winQuota : Nat
  /-- Non-spare slices in no order, spares, the chaining order of the Survey, by which octets and ports serve, and the
  chaining order of the galleries, in which a spare may have taken a lost gallery's place (R246). -/
  slices : List Nat
  spares : List Nat
  octets : List Nat
  order : List Nat
  gran64 : Bool
  parity : Bool
  w : Nat
  pgrPages : Nat
  pgrBase : Nat
  exts : List Nat
  ownBase : Nat
  parkBase : Nat
  parkFrames : Nat
  phbmBase : Nat
  phbmFrames : Nat
  pddrBase : Nat
  pddrFrames : Nat
  seqQuota : Nat
  sumpBase : Nat
  sumpFrames : Nat
  peers : List Peer
  /-- Latency targets and limits of compute, copy, link and host. -/
  targets : List Nat
  limits : List Nat
  share : Nat
  conf : Nat
  geode : Nat
  cflags : Nat
  oflags : Nat
  engMask : Nat
  hum : Nat
  deriving DecidableEq, Repr

/-- A partition that does not exist, with the defaults of R229 for every section. -/
def Part.absent : Part :=
  { defined := false, owner := 0, func := 0, pflags := 0, ctxQuota := 0, qQuota := 0, fenceQuota := 0, winQuota := 0,
    slices := [], spares := [], octets := [], order := [], gran64 := false, parity := false, w := 0, pgrPages := 0, pgrBase := 0,
    exts := [], ownBase := 0, parkBase := 0, parkFrames := 0, phbmBase := 0, phbmFrames := 0, pddrBase := 0,
    pddrFrames := 0, seqQuota := 0, sumpBase := 0, sumpFrames := 0, peers := [], targets := [0, 0, 0, 0],
    limits := [0, 0, 0, 0], share := 1, conf := 0, geode := 0, cflags := 0, oflags := 7, engMask := 0x1FF, hum := 0 }

/-- Device settings of the POWER and OBSERVABILITY sections (R227, R229). -/
structure DevSet where
  limit : Nat
  wMode : Nat
  wStep : Nat
  eMode : Nat
  eStep : Nat
  fw : Nat
  deriving DecidableEq, Repr

/-- The defaults of R229. -/
def DevSet.default : DevSet := ⟨2200, 0, 15, 0, 15, 0⟩

/-- A composition: the partitions and the device settings. -/
structure Map where
  parts : Tab Part
  dev : DevSet
  deriving DecidableEq, Repr

/-- The state of Survey loading beside the SVY registers (R233, R241, R242, R244). -/
structure Svy where
  /-- The bytes on chip, the source, and whether management asked to hold. -/
  bytes : List Byte
  mgmt : Bool
  hold : Bool
  /-- The management buffer that SurveyBegin opens: declared length and bytes received. -/
  bufLen : Nat
  buf : List Byte
  bufOpen : Bool
  /-- The pending composition and its generation; the previous composition while the window is open. -/
  pend : Option Map
  pendGen : Nat
  old : Option Map
  oldGen : Nat
  /-- Partitions with a shrink relayout to finish before the commit; partitions with a grow relayout after it. -/
  shrinks : List Nat
  grows : List Nat
  /-- Galleries that leave their partition in this commit; commit steps reached. -/
  leaving : List Nat
  step : Nat
  /-- Tasks parked by this commit, for the rollback of R246. -/
  parkedNow : List Nat
  /-- Partitions to be created that wait for a memory key slot, and the slots generated for others (R425). -/
  needKeys : List Nat
  newKeys : List (Nat × Nat)
  /-- Echo count at commit start (SVY_TIME). -/
  startAt : Nat
  deriving DecidableEq, Repr

/-- No load. -/
def Svy.idle : Svy :=
  { bytes := [], mgmt := false, hold := false, bufLen := 0, buf := [], bufOpen := false, pend := none, pendGen := 0,
    old := none, oldGen := 0, shrinks := [], grows := [], leaving := [], step := 0, parkedNow := [], needKeys := [],
    newKeys := [], startAt := 0 }

-- Faults, dumps, outputs ----------------------------------------------------------------------------------------------

/-- Kinds of packet on a Huaton port. -/
inductive PktKind where
  | write | read | atomic | reduce | message | fenceSignal | revoke | response | ack | nak | greetingOffer
  | greetingConfirm | greetingLeave | greetingUpdate | credits | replay | replayRequest | arpReply | neighbourAdvert
  | mirror
  deriving DecidableEq, Repr

/-- Messages of the Echo network. -/
inductive EchoKind where
  | dispatch | ready | startToken | decisionYield | decisionContinue | trapStop | ssig | preempt | stop
  deriving DecidableEq, Repr

/-- What leaves the part, oldest first in State.out. -/
inductive Out where
  /-- MSI-X vector v of function f. -/
  | msix (f v : Nat)
  /-- A RAS record sent to management as an OEM PLDM event (R372). -/
  | rasEvent (rec : List Byte)
  /-- Another event to management. -/
  | mgmtEvent (code unit : Nat)
  /-- An answer to the command: values and bytes. -/
  | reply (vals : List Nat) (data : List Byte)
  /-- A packet or control message on port n. -/
  | link (n : Nat) (k : PktKind) (vals : List Nat) (data : List Byte)
  /-- A message on the Echo network, from one gallery to another. -/
  | echo (k : EchoKind) (src dst arg : Nat)
  /-- A request to the host: an ATS or PRI request of a function. -/
  | pri (f pasid addr : Nat) (wr : Bool)
  deriving DecidableEq, Repr

/-- A dump that captures (R390, R391): its trigger and partition, SVY_GEN, the Echo counter, TRC_SNAP_DOM and TRC_SNAP_DL values
and the RAS records at the trigger, and the units marked UNREADABLE as kind and index. -/
structure Capture where
  trigger : Nat
  prt : Nat
  gen : Nat
  echo : Nat
  snap : List Nat
  faults : List (List Byte)
  marked : List (Nat × Nat)
  deriving DecidableEq, Repr

/-- A reset that an escalation has made due (R375): the partition or, for a chip warm reset, none; the *Escalation* row that
triggered it. -/
structure Due where
  prt : Option Nat
  row : Nat
  deriving DecidableEq, Repr

/-- Reset, dump and escalation state beside the RAS registers. -/
structure Ras where
  /-- Record sequence numbers per clock domain (R372), passes of the RAS ring. -/
  seqs : Tab Nat
  pass : Nat
  /-- The stored dump, whether it has been read, the dump that captures. -/
  dump : List Byte
  dumpRead : Bool
  cap : Option Capture
  /-- Echo times of the last chip warm resets, for the escalation of row 5. -/
  chipTimes : List Nat
  /-- RAS records since the last dump, newest last (the FAULTS dump record). -/
  recent : List (List Byte)
  /-- Fenced copies of shared structures, structure × 2 + copy (R376); fenced mesh stops (R377). -/
  fencedCopies : List Nat
  fencedStops : List Nat
  /-- Galleries lost since the last chip warm reset (R385); RAS_LOST keeps its bits across one. -/
  lost : List Nat
  /-- Partitions whose units are held frozen until their reset (R375), and the resets that run without a request. -/
  frozen : List Nat
  due : List Due
  deriving DecidableEq, Repr

/-- RAS state at power-up. -/
def Ras.reset : Ras :=
  { seqs := [], pass := 0, dump := [], dumpRead := true, cap := none, chipTimes := [], recent := [], fencedCopies := [],
    fencedStops := [], lost := [], frozen := [], due := [] }

-- Huaton links --------------------------------------------------------------------------------------------------------

/-- A packet kept for retransmission (R336): PSN, the port that carried it, header values, data. -/
structure Pkt where
  psn : Nat
  port : Nat
  kind : PktKind
  vals : List Nat
  data : List Byte
  deriving DecidableEq, Repr

/-- Who sent a request and takes its response. -/
inductive ReqOwner where
  | far (g id : Nat)
  | engine (k : Nat)
  /-- A block that relay slot `slot` of engine k forwards. -/
  | relay (k slot : Nat)
  /-- HTN_ATOMIC through the command window of a port. -/
  | window (n : Nat)
  | fence
  /-- What sent it has been stopped: the response is dropped (R132). -/
  | gone
  deriving DecidableEq, Repr

/-- A request of this device (R337): st is 0 outstanding, 1 answered, 2 failed; status and resp are the response. -/
structure Req where
  sess : Nat
  rid : Nat
  op : Nat
  win : Nat
  widx : Nat
  wgen : Nat
  offset : Nat
  arg : Nat
  err : Bool
  data : List Byte
  ctx : Nat
  epoch : Nat
  owner : ReqOwner
  reissues : Nat
  /-- Whether a packet of it has left: a request waits while 4,096 are outstanding. -/
  sent : Bool
  st : Nat
  status : Nat
  resp : List Byte
  deriving DecidableEq, Repr

/-- A session (R333 to R339): st is 0 free, 1 greeting, 2 open, 3 closing. -/
structure Sess where
  st : Nat
  prt : Nat
  peer : Nat
  peerPrt : Nat
  ports : Nat
  dsess : Nat
  gen : Nat
  maxdata : Nat
  caps : Nat
  eth : Bool
  /-- Ports whose exchange has passed phase 0, and the X25519 key and nonce last offered on them. -/
  offered : Nat
  peerPub : Nat
  peerNonce : Nat
  lower : Bool
  txPsn : Nat
  unacked : List Pkt
  rxNext : Nat
  rxSet : List Nat
  ridNext : Nat
  /-- Highest rid applied and the marks below it, with the stored old value of an ATOMIC (R338). -/
  high : Option Nat
  marks : List (Nat × Option Nat)
  /-- The mirror partner's copy of the marks of ATOMIC and REDUCE (R339). -/
  mirror : List (Nat × Option Nat)
  /-- The port after which its home slice was lost, when the partner is home. -/
  homeLost : List Nat
  phase : Nat
  txCount : Nat
  rxCount : Nat
  oldPhase : Bool
  /-- A rekey's greeting exchange runs; ports that hold at step 4 of their exchange for two key slots, and a rekey deferred
  for them (R428). -/
  rekey : Bool
  confirmed : Nat
  rekeyWait : Bool
  /-- Key slots of the two directions, 0 for none (R428), and of the old phase. -/
  txSlot : Nat
  rxSlot : Nat
  oldTx : Nat
  oldRx : Nat
  pathIdx : Nat
  deriving DecidableEq, Repr

/-- A free session. -/
def Sess.free : Sess :=
  { st := 0, prt := 0, peer := 0, peerPrt := 0, ports := 0, dsess := 0, gen := 0, maxdata := 4096, caps := 0, eth := false,
    offered := 0, peerPub := 0, peerNonce := 0, lower := false, txPsn := 0, unacked := [], rxNext := 0, rxSet := [],
    ridNext := 0, high := none, marks := [], mirror := [], homeLost := [], phase := 0, txCount := 0, rxCount := 0,
    oldPhase := false, rekey := false, confirmed := 0, rekeyWait := false, txSlot := 0, rxSlot := 0, oldTx := 0, oldRx := 0, pathIdx := 0 }

/-- A port's link layer (R329 to R332). -/
structure Port where
  /-- Next flit to send, oldest unacknowledged flit, replays of the same flit in a row. -/
  txSeq : Nat
  ackSeq : Nat
  replays : Nat
  replayOf : Nat
  /-- Next flit expected, and whether flits are discarded until it arrives. -/
  rxSeq : Nat
  discarding : Bool
  /-- Credits held per virtual channel. -/
  credits : List Nat
  /-- Packets that wait for credits or replay room: virtual channel, flits, message. -/
  txq : List (Nat × Nat × Out)
  /-- Bytes of the packet that arrives on each virtual channel, and its flits so far. -/
  partials : List (Nat × Nat × List Byte)
  /-- Completed VC0 and VC2 packets in the sump ring: flits, bytes. -/
  sump : List (Nat × Nat)
  /-- Where the next packet goes in the sump ring, from its start. -/
  sumpPos : Nat
  /-- Completed packets in the elastic region, oldest first: flits, bytes. -/
  elastic : List (Nat × Nat)
  /-- Lanes that failed in this negotiation, and the Ethernet ranks the partner's pages offer, bit r for rank r (R327). -/
  failed : Nat
  lpEth : Nat
  deriving DecidableEq, Repr

/-- A port with no traffic. -/
def Port.idle : Port := ⟨0, 0, 0, 0, 0, false, [0, 0, 0, 0], [], [], [], 0, [], 0, 0⟩

/-- A held REDUCE block (R343): partition, tag, block offset, bytes. -/
structure HeldReduce where
  prt : Nat
  tag : Nat
  offset : Nat
  port : Nat
  data : List Byte
  deriving DecidableEq, Repr

/-- A fence binding (R344): local fence index, import window, peer handle. -/
structure FLink where
  fence : Nat
  win : Nat
  peer : Nat
  deriving DecidableEq, Repr

-- Memory controllers --------------------------------------------------------------------------------------------------

/-- A memory channel beside its registers: the running window of R206 and its corrected count, the scrub position, and
whether every line was poisoned by the loss of the channel (R197). -/
structure Chan where
  winIdx : Nat
  winCnt : Nat
  scrubPos : Nat
  dead : Bool
  deriving DecidableEq, Repr

/-- A channel at reset. -/
def Chan.reset : Chan := ⟨0, 0, 0, false⟩

/-- A relayout of a partition's HBM (R239, R240): direction, the chaining orders before and after. -/
structure Relay where
  active : Bool
  grow : Bool
  oldOrder : List Nat
  newOrder : List Nat
  deriving DecidableEq, Repr

/-- No relayout. -/
def Relay.none : Relay := ⟨false, false, [], []⟩

-- Sequence pager ------------------------------------------------------------------------------------------------------

/-- A page-list entry (R211): tier is 0 unallocated, 1 pool region, 2 HBM, 3 DDR5; frame is PPA bits [47:16], or gallery × 256
+ page; tgt is where a move in progress goes. -/
structure PageEnt where
  tier : Nat
  cmp : Bool
  busy : Bool
  clen : Nat
  frame : Nat
  tgt : Nat
  deriving DecidableEq, Repr

/-- An unallocated page. -/
def PageEnt.none : PageEnt := ⟨0, false, false, 0, 0, 0⟩

/-- A sequence table entry (R209): st is 0 free, 1 live, 2 condemned; lists are the frames of its list pages. -/
structure Seq where
  gen : Nat
  st : Nat
  prt : Nat
  ctx : Nat
  fmt : Nat
  hd : Nat
  nkvh : Nat
  cls : Nat
  shared : Bool
  cmp : Bool
  len : Nat
  groups : Nat
  stamp : Nat
  lists : List Nat
  hintLo : Nat
  hintHi : Nat
  hintGal : Nat
  pages : Tab PageEnt
  deriving DecidableEq, Repr

/-- A free entry. -/
def Seq.free : Seq :=
  { gen := 0, st := 0, prt := 0, ctx := 0, fmt := 0, hd := 0, nkvh := 0, cls := 0, shared := false, cmp := false, len := 0,
    groups := 0, stamp := 0, lists := [], hintLo := 0, hintHi := 0, hintGal := 0, pages := [] }

/-- The free lists of a partition's pager ranges (R212): frames never used start at next, frames returned stand in back; skip
holds frames of the ranges that were in use when a Survey moved the ranges. -/
structure Pgr where
  hbmNext : Nat
  hbmBack : List Nat
  ddrNext : Nat
  ddrBack : List Nat
  skip : List Nat
  deriving DecidableEq, Repr

/-- Free lists before the first use. -/
def Pgr.fresh : Pgr := ⟨0, [], 0, [], []⟩

/-- A gallery's pager unit: the pages of its pool region, oldest first, as sequence and list index; its active slots in the
order they were taken, as attend and sequence (R217, R218). -/
structure PGal where
  order : List (Nat × Nat)
  slots : List (Bool × Nat)
  deriving DecidableEq, Repr

/-- An empty pager unit. -/
def PGal.empty : PGal := ⟨[], []⟩

-- Security ------------------------------------------------------------------------------------------------------------

/-- A key slot (R424 to R427): st is 0 free, 1 live, 2 retiring, 3 waiting out the 100 ms of R427; order numbers its last
retirement among all, 0 for none; own is the partition or the session whose key it holds. -/
structure KeySlot where
  st : Nat
  gen : Nat
  order : Nat
  own : Nat
  deriving DecidableEq, Repr

/-- A slot that has never been used. -/
def KeySlot.free : KeySlot := ⟨0, 0, 0, 0⟩

/-- The enrolled public keys as the key store holds them and as a copy of the enrolment record keeps them (R421), each as the
little-endian number of its 32 bytes: the owner key and the four firmware-signing keys, active and shadow. -/
structure Enrol where
  owner : Option Nat
  ownerSh : Option Nat
  fw : List (Option Nat)
  fwSh : List (Option Nat)
  deriving DecidableEq, Repr

/-- No key enrolled. -/
def Enrol.none : Enrol := ⟨Option.none, Option.none, List.replicate 4 Option.none, List.replicate 4 Option.none⟩

/-- Where a secured SPDM session stands (R434): over DOE of a function or over MCTP, its number, whether FINISH has come. -/
structure Spdm where
  doe : Bool
  func : Nat
  id : Nat
  live : Bool
  deriving DecidableEq, Repr

/-- The security core beside the SEC registers (R413 to R440). -/
structure Sec where
  keys : Enrol
  /-- Fuses: transition records blown, oldest first, as the state entered and the state left; whether the unique device
  secret is fused, and whether the root-kill fuse is blown. -/
  records : List (Nat × Nat)
  udsFused : Bool
  rootKill : Bool
  /-- Fused minimum security version numbers of the keeper and the runtime (R399). -/
  svnK : Nat
  svnR : Nat
  /-- The transition whose geode wipes and chip warm reset have not ended (R414). -/
  goal : Option Nat
  /-- Requests to the generator since it was seeded (R425). -/
  drbg : Nat
  /-- The Survey chain of measurement block 7 (R435). -/
  chain : List Byte
  /-- SPDM: connections that have negotiated version, capabilities, algorithms (bits 0 to 2), over DOE by function and over
  MCTP as 128; sessions; and the number of the next. -/
  conns : Tab Nat
  spdm : List Spdm
  spdmNext : Nat
  deriving DecidableEq, Repr

/-- A fresh part: no fuse blown, no key enrolled. -/
def Sec.fresh : Sec :=
  { keys := .none, records := [], udsFused := false, rootKill := false, svnK := 0, svnR := 0, goal := Option.none, drbg := 0,
    chain := List.replicate 64 0#8, conns := [], spdm := [], spdmNext := 0 }

/-- The xSPI flash (R450, R451): image slots, directory, enrolment record copies with their sequence numbers, certificate
chain, default Survey. -/
structure Flash where
  keeper : List (List Byte)
  runtime : List (List Byte)
  actK : Nat
  actR : Nat
  pendK : Bool
  pendR : Bool
  dirSeq : Nat
  enrol : List (Option (Nat × Enrol))
  cert : List Byte
  survey : List Byte
  deriving DecidableEq, Repr

/-- A blank flash. -/
def Flash.blank : Flash :=
  { keeper := [[], []], runtime := [[], []], actK := 0, actR := 0, pendK := false, pendR := false, dirSeq := 0,
    enrol := [none, none], cert := [], survey := [] }

-- Power, firmware, board ----------------------------------------------------------------------------------------------

/-- A hall's supply and clock beside PWR_HALL_STAT: the voltage last requested in mV; whether a step up waits for the
regulator's report and how many such waits failed in a row (R356); the step above which the hall stays until the next chip
warm reset (R356) and the step the temperature clamp holds it to (R365); whether boost waits for 95 °C (R365). -/
structure Hall where
  mv : Nat
  wait : Bool
  fails : Nat
  held : Option Nat
  cap : Option Nat
  noBoost : Bool
  deriving DecidableEq, Repr

/-- A hall at the regulator's boot voltage (R442). -/
def Hall.reset : Hall := ⟨600, false, 0, none, none, false⟩

/-- An entry of a gallery's phase table (R359): program ID, slot-mix class, learned power at step 15 in 0.25 W. -/
structure Phase where
  prog : Nat
  cls : Nat
  power : Nat
  deriving DecidableEq, Repr

/-- Power and clocks. stop is 0 while the part runs, 1 from a power cycle request on (R388), 2 once the clocks have stopped
(R367, R443, R469); trip is THERMTRIP_N. -/
structure Pwr where
  halls : Tab Hall
  /-- Phase tables by gallery, the entry used last first; effective steps that the galleries were given (R358). -/
  phases : Tab (List Phase)
  want : Tab Nat
  stop : Nat
  trip : Bool
  deriving DecidableEq, Repr

/-- Power at power-good. -/
def Pwr.reset : Pwr := ⟨[], [], [], 0, false⟩

/-- The control processor complex beside the EMU registers (R396 to R410). -/
structure Fw where
  /-- The standby core, and the cores held in reset. -/
  standby : Option Nat
  crashed : List Nat
  /-- The write queue: offset and value, oldest first; the last sequence number of EMU_CMD applied. -/
  wq : List (Nat × Nat)
  lastCmd : Option Nat
  /-- Log and trace settings that wait for the visibility (R412), and those in force: log base, enable, size, trace points. -/
  logBase : Nat
  logEn : Bool
  logSize : Nat
  trace : Nat
  /-- The on-chip log buffer, its next sequence number and the passes of the host ring. -/
  log : List (List Byte)
  logSeq : Nat
  logPass : Nat
  /-- CPC count of the last claim or renewal (R404). -/
  leaseAt : Nat
  deriving DecidableEq, Repr

/-- The complex before it is released. -/
def Fw.reset : Fw := ⟨none, [], [], none, 0, false, 6, 0, [], 0, 0, 0⟩

/-- Pins and buses: PERST_N asserted, PCI Express link up, I3C dynamic address and MCTP endpoint ID (0 for none). -/
structure Board where
  perst : Bool
  pcie : Bool
  dyn : Nat
  eid : Nat
  deriving DecidableEq, Repr

/-- The board at power-good. -/
def Board.reset : Board := ⟨true, false, 0, 0⟩

-- The state -----------------------------------------------------------------------------------------------------------

/-- The state of the part. -/
structure State where
  /-- Register fields, keyed Fld.key. -/
  regs : Tab Nat
  gals : Tab Gal
  /-- Engines, keyed 16 × gallery + engine. -/
  engs : Tab Eng
  /-- Pool bytes, keyed gallery × 2^25 + offset; pools are zeroed at reset. -/
  pool : List Host.Cell
  /-- Bad symbols in pool codewords, keyed gallery × 2^20 + (row × 64 + bank) × 4 + codeword; 255 is poisoned (R172). -/
  poolErr : Tab Nat
  /-- Spare rows and spare lanes that soft repair has used (R183), keyed gallery × 64 + bank. -/
  softRows : Tab Nat
  softLanes : Tab Nat
  /-- Partition memory as its key decrypts it, keyed partition × 2^48 + PPA. -/
  pmem : List Host.Cell
  /-- Memory channels: HBM 0 to 255, DDR5 channel d as 256 + d. -/
  chans : Tab Chan
  /-- Bad symbols in memory lines, keyed channel × 2^32 + usable line; 255 is poisoned (R188, R190). -/
  lineErr : Tab Nat
  /-- Page-owner entries the controllers hold, keyed partition × 2^32 + index, value entry + 1 (R202). -/
  ownCache : Tab Nat
  /-- The page-owner write that is propagating: partition keyed, frame × 2^32 + entry + 1. -/
  ownPend : Tab Nat
  relays : Tab Relay
  /-- Zero fills that run (R199): octet n as n, DDR5 extent e as 32 + e. -/
  fills : List Nat
  /-- Key slots 0 to 4,095, and the number of retirements so far. -/
  slots : Tab KeySlot
  retired : Nat
  sec : Sec
  flash : Flash
  pwr : Pwr
  fw : Fw
  board : Board
  /-- Host memory as DMA sees it: (PASID + 1) × 2^64 + address with a PASID, the address alone without. -/
  host : List Host.Cell
  ctxs : Tab Ctx
  queues : Tab Queue
  mobjs : Tab MObj
  fences : Tab Fence
  subs : Tab Sub
  /-- The next submission identifier and the next readiness number. -/
  nextSub : Nat
  nextSeq : Nat
  /-- Program slots, keyed partition × 256 + slot. -/
  progs : Tab Prog
  wins : Tab Win
  funcs : Tab Func
  /-- Bandwidth regulation by port, keyed partition × 1024 + class × 256 + port: average latency in ns (R319), tokens in the
  bucket (R320). -/
  lats : Tab Nat
  tokens : Tab Nat
  /-- Partitions whose memory-log swap is not finished (R275). -/
  mlSwap : List Nat
  map : Map
  svy : Svy
  ras : Ras
  sesss : Tab Sess
  ports : Tab Port
  reqs : List Req
  heldReduce : List HeldReduce
  flinks : List FLink
  seqs : Tab Seq
  pgrs : Tab Pgr
  pgals : Tab PGal
  /-- Domain counters (R23), keyed by domain ID. -/
  clocks : Tab Nat
  /-- A snapshot is in progress (R368). -/
  snapping : Bool
  /-- Records to host memory are stopped: from the loss of the lease until the driver writes rings (R405, R406). -/
  hostStop : Bool
  out : List Out
  /-- The model's own counter for values the spec leaves open; it is no state of the part. -/
  tick : Nat
  pending : List Instr
  deriving DecidableEq, Repr

/-- The part at the power-good moment: every field at its reset value, no partition, nothing queued. -/
def State.reset : State :=
  { regs := [], gals := [], engs := [], pool := [], poolErr := [], softRows := [], softLanes := [], pmem := [], chans := [], lineErr := [], ownCache := [], ownPend := [], relays := [], fills := [], slots := [], retired := 0, sec := .fresh, flash := .blank, pwr := .reset, fw := .reset, board := .reset, host := [], ctxs := [], queues := [],
    mobjs := [], fences := [], subs := [], nextSub := 1, nextSeq := 0, progs := [], wins := [], funcs := [], lats := [], tokens := [], mlSwap := [],
    map := ⟨[], .default⟩, svy := .idle, ras := .reset, sesss := [], ports := [], reqs := [],
    heldReduce := [], flinks := [], seqs := [], pgrs := [], pgals := [], clocks := [], snapping := false, hostStop := true, out := [], tick := 0, pending := [] }

end Sys2Proof.Machine
end

