-- ==== Sys2Proof/Machine/Ops.lean ====
section
/-! DEFINITION. The named operations over registers, tables and memories that every meaning is written with. -/

namespace Sys2Proof.Machine

/-- Every meaning: a command the part has leads to its next state, any other is refused. Once the clocks have stopped or
the units are frozen for a power cycle, nothing happens until power is removed (R367, R455, R469). -/
def gate (s : State) (ok : Bool) (k : State) : Host.Outcome State Fault Refusal :=
  if ok then .next (if s.pwr.stop == 0 then k else s) else .refused .illFormed

/-- The same, by the command: ok is what Instr.wf says of it. -/
def checked (s : State) (c : Instr) (k : State) : Host.Outcome State Fault Refusal := gate s c.wf k

/-- The management messages that only read: they are answered while a power cycle is asked for, and not once the clocks have
stopped (R388, R455, R469). -/
def gateRead (s : State) (ok : Bool) (k : State) : Host.Outcome State Fault Refusal :=
  if ok then .next (if s.pwr.stop ≤ 1 then k else s) else .refused .illFormed

/-- What acts while the units are frozen: resets, dumps and what a reset waits for (R375, R391). -/
def gateHeld (s : State) (ok : Bool) (k : State) : Host.Outcome State Fault Refusal := gateRead s ok k

/-- What acts whatever has stopped: power. -/
def gatePower (ok : Bool) (k : State) : Host.Outcome State Fault Refusal :=
  if ok then .next k else .refused .illFormed

-- Bits and bytes ------------------------------------------------------------------------------------------------------

/-- Bits [hi:lo] of a number. -/
def bits (x hi lo : Nat) : Nat := (x >>> lo) % 2 ^ (hi + 1 - lo)

/-- Bit n of a number. -/
def bit (x n : Nat) : Bool := x.testBit n

/-- Set n bits of a field's value at a bit. -/
def setBits (v at_ n x : Nat) : Nat := v - bits v (at_ + n - 1) at_ * 2 ^ at_ + x % 2 ^ n * 2 ^ at_

/-- 1 or 0. -/
def b2n (b : Bool) : Nat := if b then 1 else 0

/-- Little-endian bytes as a number. -/
def leNat : List Byte → Nat
  | [] => 0
  | b :: t => b.toNat + 256 * leNat t

/-- The n little-endian bytes of a number. -/
def natLe : Nat → Nat → List Byte
  | 0, _ => []
  | n + 1, v => BitVec.ofNat 8 v :: natLe n (v / 256)

/-- n bytes of a list from an offset, little-endian. -/
def fieldAt (l : List Byte) (off n : Nat) : Nat := leNat ((l.drop off).take n)

/-- Whether all bytes are zero. -/
def allZero (l : List Byte) : Bool := l.all (fun b => b == 0#8)

/-- a divided by b, rounded up. -/
def ceilDiv (a b : Nat) : Nat := (a + b - 1) / b

-- Registers -----------------------------------------------------------------------------------------------------------

/-- The value of a register field. -/
def State.rd (s : State) (f : Fld) (i : Nat) : Nat := s.regs.get (f.resetAt i) (f.key i)

/-- Set a register field: the value is cut to the field's width. -/
def State.wr (s : State) (f : Fld) (i v : Nat) : State :=
  { s with regs := s.regs.set (f.resetAt i) (f.key i) (v % 2 ^ f.width) }

/-- Whether a one-bit field is set. -/
def State.flag (s : State) (f : Fld) (i : Nat) : Bool := s.rd f i != 0

/-- Return every field of instance i of a register to its reset value. -/
def State.resetReg (s : State) (r : Reg) (i : Nat) : State :=
  r.fields.foldl (fun s f => s.wr f i (f.resetAt i)) s

/-- Add n to a 48-bit counter that wraps and sets its ovf bit (R57 and the other register tables). -/
def State.count (s : State) (cnt ovf : Fld) (i n : Nat) : State :=
  let v := s.rd cnt i + n
  let s := s.wr cnt i v
  if 2 ^ 48 ≤ v then s.wr ovf i 1 else s

/-- Add n to a field that saturates at its width. -/
def State.countSat (s : State) (f : Fld) (i n : Nat) : State :=
  s.wr f i (min (s.rd f i + n) (2 ^ f.width - 1))

/-- The whole word of a register, reserved bits zero. -/
def State.word (s : State) (r : Reg) (i : Nat) : Nat :=
  r.fields.foldl (fun acc f => acc + s.rd f i * 2 ^ f.desc.lo) 0

-- Tables --------------------------------------------------------------------------------------------------------------

def State.gal (s : State) (g : Nat) : Gal := s.gals.get .idle g
def State.setGal (s : State) (g : Nat) (x : Gal) : State := { s with gals := s.gals.set .idle g x }
def State.modGal (s : State) (g : Nat) (f : Gal → Gal) : State := s.setGal g (f (s.gal g))

def State.eng (s : State) (k : Nat) : Eng := s.engs.get .idle k
def State.setEng (s : State) (k : Nat) (x : Eng) : State := { s with engs := s.engs.set .idle k x }
def State.modEng (s : State) (k : Nat) (f : Eng → Eng) : State := s.setEng k (f (s.eng k))

def State.ctx (s : State) (c : Nat) : Ctx := s.ctxs.get .free c
def State.setCtx (s : State) (c : Nat) (x : Ctx) : State := { s with ctxs := s.ctxs.set .free c x }
def State.modCtx (s : State) (c : Nat) (f : Ctx → Ctx) : State := s.setCtx c (f (s.ctx c))

def State.queue (s : State) (q : Nat) : Queue := s.queues.get .free q
def State.setQueue (s : State) (q : Nat) (x : Queue) : State := { s with queues := s.queues.set .free q x }
def State.modQueue (s : State) (q : Nat) (f : Queue → Queue) : State := s.setQueue q (f (s.queue q))

def State.mobj (s : State) (m : Nat) : MObj := s.mobjs.get .free m
def State.setMobj (s : State) (m : Nat) (x : MObj) : State := { s with mobjs := s.mobjs.set .free m x }

def State.fence (s : State) (x : Nat) : Fence := s.fences.get .free x
def State.setFence (s : State) (x : Nat) (v : Fence) : State := { s with fences := s.fences.set .free x v }

def State.sub (s : State) (t : Nat) : Sub := s.subs.get .none t
def State.setSub (s : State) (t : Nat) (x : Sub) : State := { s with subs := s.subs.set .none t x }
def State.modSub (s : State) (t : Nat) (f : Sub → Sub) : State := s.setSub t (f (s.sub t))

def State.prog (s : State) (k : Nat) : Prog := s.progs.get .free k
def State.setProg (s : State) (k : Nat) (x : Prog) : State := { s with progs := s.progs.set .free k x }

def State.win (s : State) (w : Nat) : Win := s.wins.get .free w
def State.setWin (s : State) (w : Nat) (x : Win) : State := { s with wins := s.wins.set .free w x }

def State.func (s : State) (f : Nat) : Func := s.funcs.get .reset f
def State.setFunc (s : State) (f : Nat) (x : Func) : State := { s with funcs := s.funcs.set .reset f x }
def State.modFunc (s : State) (f : Nat) (g : Func → Func) : State := s.setFunc f (g (s.func f))

def State.part (s : State) (p : Nat) : Part := s.map.parts.get .absent p
def State.setPart (s : State) (p : Nat) (x : Part) : State :=
  { s with map := { s.map with parts := s.map.parts.set .absent p x } }

def State.hall (s : State) (h : Nat) : Hall := s.pwr.halls.get .reset h
def State.setHall (s : State) (h : Nat) (x : Hall) : State :=
  { s with pwr := { s.pwr with halls := s.pwr.halls.set .reset h x } }
def State.modHall (s : State) (h : Nat) (f : Hall → Hall) : State := s.setHall h (f (s.hall h))

/-- Append to the output of the part. -/
def State.emit (s : State) (o : Out) : State := { s with out := s.out ++ [o] }

/-- Take a number for a free value. -/
def State.ticked (s : State) : State := { s with tick := s.tick + 1 }

/-- Run a list of changes in order. -/
def State.each {α : Type} (s : State) (l : List α) (f : State → α → State) : State := l.foldl f s

-- Memories ------------------------------------------------------------------------------------------------------------

/-- One byte of a memory: what nothing has written reads 0. -/
def memGet (m : List Host.Cell) (a : Nat) : Byte := Tab.get 0#8 m a

/-- n bytes of a memory. -/
def memRead (m : List Host.Cell) (a n : Nat) : List Byte := Tab.getMany 0#8 m a n

/-- Write bytes to a memory; zero bytes leave no entry. -/
def memWrite (m : List Host.Cell) (a : Nat) (l : List Byte) : List Host.Cell := Tab.setMany 0#8 m a l

/-- Write n bytes of zero. -/
def memZero (m : List Host.Cell) (a n : Nat) : List Host.Cell := Tab.clearRange m a (a + n)

/-- The canonical form of a memory: addresses strictly rising, no byte that reads as an unlisted one does. -/
def Memory.wf (m : List Host.Cell) : Bool := Tab.wf 0#8 m

/-- Key of a pool offset. -/
def poolKey (g off : Nat) : Nat := g * 2 ^ 25 + off

/-- Key of a partition physical address. -/
def pmemKey (p ppa : Nat) : Nat := p * 2 ^ 48 + ppa

/-- Key of a host address under an optional PASID. -/
def hostKey (pasid : Option Nat) (a : Nat) : Nat :=
  match pasid with
  | none => a % 2 ^ 64
  | some p => (p + 1) * 2 ^ 64 + a % 2 ^ 64

/-- Pool bytes as stored, no checks. -/
def State.poolRd (s : State) (g off n : Nat) : List Byte := memRead s.pool (poolKey g off) n

/-- Store pool bytes, no checks. -/
def State.poolWr (s : State) (g off : Nat) (l : List Byte) : State :=
  { s with pool := memWrite s.pool (poolKey g off) l }

/-- Zero pool bytes. -/
def State.poolZero (s : State) (g off n : Nat) : State := { s with pool := memZero s.pool (poolKey g off) n }

-- Partitions, functions, interrupts -----------------------------------------------------------------------------------

/-- The partition a gallery is bound to. -/
def State.prtOf (s : State) (g : Nat) : Option Nat :=
  (s.map.parts.find? (fun e => e.2.slices.contains g || e.2.spares.contains g)).map (·.1)

/-- Whether a gallery's partition is held frozen (R375). -/
def State.heldGal (s : State) (g : Nat) : Bool :=
  match s.prtOf g with
  | some p => s.ras.frozen.contains p
  | none => false

/-- Whether a function serves a partition: the physical function serves every one (R250). -/
def State.serves (s : State) (f p : Nat) : Bool :=
  (s.part p).defined && (f == 0 || (s.part p).func == f)

/-- Whether a partition is confidential: the field is 1 at sealing (R236). -/
def State.confidential (s : State) (p : Nat) : Bool :=
  s.rd .PRT_STAT_state p == 2 && s.flag .PRT_CTRL_conf p

/-- Raise an MSI-X vector, or hold it in D3hot (R278). -/
def State.raise (s : State) (f v : Nat) : State :=
  if (s.func f).d3 then s.modFunc f (fun x => { x with held := x.held ++ [.msix v] })
  else s.emit (.msix f v)

/-- Raise an interrupt of the device for which no register names a vector: it goes to the physical function, the vector is
open (R206, SVY_CFG.ie, PWR_THERM.warn_ie). -/
def State.raiseOpen (s : State) : State := (s.raise 0 (Config.openVector s.tick % 2048)).ticked

/-- The function that serves a gallery's partition (R473): the physical function when it is bound to none. -/
def State.galFunc (s : State) (g : Nat) : Nat :=
  match s.prtOf g with
  | none => 0
  | some p => (s.part p).func

/-- Raise a gallery's interrupt vector (R473). -/
def State.galIrq (s : State) (g : Nat) : State := s.raise (s.galFunc g) (s.rd .GAL_INT_VEC_vec g)

/-- Count in a gallery counter and raise the gallery's vector when ovf sets and ie is on (R473). -/
def State.galCount (s : State) (cnt ovf ie : Fld) (g n : Nat) : State :=
  let wraps := decide (2 ^ 48 ≤ s.rd cnt g + n)
  let s := s.count cnt ovf g n
  if wraps && s.flag ie g then s.galIrq g else s

/-- Whether records for a partition are stopped by orphan mode (R405): owner 0 only. -/
def State.recStopped (s : State) (p : Nat) : Bool := s.hostStop && (s.part p).owner == 0

/-- Set the bit of one 4 KiB page in a dirty bitmap by read, merge and write (R275). -/
def setBitmap (m : List Host.Cell) (base idx : Nat) : List Host.Cell :=
  let a := base + idx / 8
  memWrite m a [memGet m a ||| BitVec.ofNat 8 (2 ^ (idx % 8))]

/-- Pages of a byte range. -/
def pagesOf (a n sz : Nat) : List Nat :=
  if n = 0 then [] else (List.range ((a + n - 1) / sz - a / sz + 1)).map (· + a / sz)

/-- Log a DMA write of a function in its active bitmap (R273). -/
def State.dlog (s : State) (f : Nat) (pasid : Option Nat) (a n : Nat) : State :=
  if s.flag .DSP_DLOG_CTRL_en f && (!s.flag .DSP_DLOG_CTRL_pfilt f || pasid == some (s.rd .DSP_DLOG_CTRL_pasid f)) then
    let start := s.rd .DSP_DLOG_RANGE_addr f
    (pagesOf a n 4096).foldl (fun s pg =>
      if start ≤ pg && pg < start + s.rd .DSP_DLOG_LEN_pages f then
        if s.hostStop then s.countSat .EMU_ORPHAN_dlog 0 1 else
        { s with host := setBitmap s.host (s.rd .DSP_DLOG_BASE_addr f * 4096) (pg - start) }
      else s.count .DSP_DLOG_MISS_count .DSP_DLOG_MISS_ovf f 1) s
  else s

/-- Whether a function's TDI is in ERROR: MMIO to it completes with Unsupported Request (R437). -/
def State.tdiError (s : State) (f : Nat) : Bool := f != 0 && s.rd .SEC_TDI_state f == 3

/-- Whether a TDI in ERROR binds partitions, whose DMA to host memory is then dropped (R437). -/
def State.tdiDrops (s : State) (f : Nat) : Bool := s.tdiError f && s.rd .SEC_TDI_prt f != 0

/-- A DMA write of a function to host memory: held in D3hot, logged when dirty logging is on. -/
def State.hostWr (s : State) (f : Nat) (pasid : Option Nat) (a : Nat) (l : List Byte) : State :=
  if s.tdiDrops f then s
  else if (s.func f).d3 then s.modFunc f (fun x => { x with held := x.held ++ [.write pasid a l] })
  else
    let s := { s with host := memWrite s.host (hostKey pasid a) l }
    s.dlog f pasid a l.length

/-- A DMA read. -/
def State.hostRd (s : State) (pasid : Option Nat) (a n : Nat) : List Byte := memRead s.host (hostKey pasid a) n

/-- Bytes of partition memory. -/
def State.pmemRd (s : State) (p ppa n : Nat) : List Byte := memRead s.pmem (pmemKey p ppa) n

/-- Data channels per octet: 7 with parity groups, else 8 (R191). -/
def Part.dch (x : Part) : Nat := if x.parity then 7 else 8

/-- H, the size of a partition's HBM in bytes (R191). -/
def Part.hbm (x : Part) : Nat := x.dch * x.octets.length * 1920 * 2 ^ 20

/-- The first DDR5 PPA (R191). -/
def ddrBase : Nat := 0x010000000000

/-- Size of a partition's DDR5 in bytes. -/
def Part.ddr (x : Part) : Nat := x.exts.length * 2 ^ 30

/-- HBM of n octets. -/
def Part.hbmOf (x : Part) (n : Nat) : Nat := x.dch * n * 1920 * 2 ^ 20

/-- Entries in the page-owner table. -/
def Part.frames (x : Part) : Nat := (x.hbm + x.ddr) / 65536

/-- The HBM size by which the page-owner table is laid out: a shrink relayout rewrites it when it ends, before the bind, a grow
relayout when it ends, after the bind (R239). -/
def State.tableH (s : State) (p : Nat) : Nat :=
  let x := s.part p
  let r := s.relays.get .none p
  if r.active && r.grow then x.hbmOf r.oldOrder.length
  else if r.active && !s.flag .PRT_STAT_relayout p then x.hbmOf r.newOrder.length
  else x.hbm

/-- The number of the 64 KiB frame of a PPA in the page-owner table (R200). -/
def State.frameIdx (s : State) (p ppa : Nat) : Nat :=
  if ppa < ddrBase then ppa / 65536 else s.tableH p / 65536 + (ppa - ddrBase) / 65536

/-- Write partition memory and log the frames when memory logging is on (R274). -/
def State.pmemWr (s : State) (p ppa : Nat) (l : List Byte) : State :=
  let s := { s with pmem := memWrite s.pmem (pmemKey p ppa) l }
  if s.flag .DSP_MLOG_BASE_en p && !s.recStopped p then
    (pagesOf ppa l.length 65536).foldl (fun s fr =>
      { s with host := setBitmap s.host (s.rd .DSP_MLOG_BASE_addr p * 4096)
                                 (s.frameIdx p (fr * 65536)) }) s
  else if s.flag .DSP_MLOG_BASE_en p then
    s.countSat .EMU_ORPHAN_dlog 0 (pagesOf ppa l.length 65536).length
  else s

-- Semaphores ----------------------------------------------------------------------------------------------------------

/-- Pool offset of a semaphore (R104). -/
def State.semOff (s : State) (g n : Nat) : Nat := s.rd .GAL_SEM_BASE_base g * 0x80000 + 8 * n

/-- The value of a semaphore. -/
def State.sem (s : State) (g n : Nat) : Nat := leNat (s.poolRd g (s.semOff g n) 8)

/-- Add to a semaphore at the bank, modulo 2^64 (R104), and record it in the journal under a mark (R381). -/
def State.semAdd (s : State) (g n amt mark : Nat) : State :=
  let s := s.poolWr g (s.semOff g n) (natLe 8 ((s.sem g n + amt) % 2 ^ 64))
  s.modGal g (fun x =>
    if x.journal.length < 4096 then { x with journal := x.journal ++ [(n, amt % 2 ^ 64, mark)] }
    else { x with journalFull := true })

end Sys2Proof.Machine
end

