-- ==== Sys2Proof/Machine/LinkCore.lean ====
section
/-! DEFINITION. Sending on Huaton: packets, flits and credits at a port, sessions, requests and their responses (R329 to
R331, R335 to R341). The commands of chapter 13 are in Machine/LinkPhy.lean and Machine/LinkTxn.lean. -/

namespace Sys2Proof.Machine

def State.sess (s : State) (i : Nat) : Sess := s.sesss.get .free i
def State.setSess (s : State) (i : Nat) (x : Sess) : State := { s with sesss := s.sesss.set .free i x }
def State.modSess (s : State) (i : Nat) (f : Sess → Sess) : State := s.setSess i (f (s.sess i))
def State.port (s : State) (n : Nat) : Port := s.ports.get .idle n
def State.setPort (s : State) (n : Nat) (x : Port) : State := { s with ports := s.ports.set .idle n x }
def State.modPort (s : State) (n : Nat) (f : Port → Port) : State := s.setPort n (f (s.port n))

/-- Virtual channel of a packet (R331). -/
def vcOf : PktKind → Nat
  | .write | .read | .atomic | .message | .fenceSignal => 0
  | .response => 1
  | .reduce => 2
  | _ => 3

/-- Flits of a packet with n data bytes: header 16, transaction header 32, tag 16 (R329, R335, R341). -/
def flitsOf (n : Nat) : Nat := ceilDiv (n + 64) 74

/-- Whether a port runs a native mode. -/
def State.native (s : State) (n : Nat) : Bool := !s.flag .HTN_PORT_STAT_eth n

/-- Whether a port's link is up. -/
def State.linkUp (s : State) (n : Nat) : Bool := s.rd .HTN_PORT_STAT_state n == 3 || s.rd .HTN_PORT_STAT_state n == 4

/-- Whether the flits of a packet may leave now: credits of its channel, at most 1,024 flits unacknowledged (R330). -/
def Port.room (x : Port) (vc n : Nat) : Bool :=
  decide (n ≤ x.credits.getD vc 0) && decide ((x.txSeq + 2048 - x.ackSeq) % 2048 + n ≤ 1024)

/-- Take the flits of a packet out of the credits and the sequence. -/
def Port.take (x : Port) (vc n : Nat) : Port :=
  { x with txSeq := (x.txSeq + n) % 2048, credits := x.credits.set vc (x.credits.getD vc 0 - n) }

/-- Put a message on a port: at once, or behind what waits for credits. Ethernet modes have no link layer (R349). -/
def State.onPort (s : State) (n vc flits : Nat) (o : Out) : State :=
  if !s.native n then s.emit o
  else
    let x := s.port n
    if x.txq.isEmpty && x.room vc flits then (s.setPort n (x.take vc flits)).emit o
    else s.setPort n { x with txq := x.txq ++ [(vc, flits, o)] }

/-- Send what waits, highest channel first in its order (R331). -/
def State.drainPort (s : State) (n : Nat) : Nat → State
  | 0 => s
  | k + 1 =>
    let x := s.port n
    match x.txq.find? (fun e => x.room e.1 e.2.1 && x.txq.all (fun e' => decide (e'.1 ≤ e.1) || !x.room e'.1 e'.2.1)) with
    | none => s
    | some (vc, fl, o) =>
      let s := s.setPort n { x.take vc fl with txq := x.txq.erase (vc, fl, o) }
      (s.emit o).drainPort n k

/-- The port of a set with the most free credits, the lowest number first: one whose link is up when there is any, one that does not
leave in a running commit (R242 step 2), and not the excluded one when there is another (R336). -/
def State.choosePort (s : State) (ports vc : Nat) (not : Option Nat) : Nat :=
  let l := (List.range 32).filter (fun n => ports.testBit n)
  let up := l.filter s.linkUp
  let l := if up.isEmpty then l else up
  let stay := l.filter (fun n => !s.svy.leaving.contains n)
  let l := if stay.isEmpty then l else stay
  let l' := l.filter (fun n => not != some n)
  let l := if l'.isEmpty then l else l'
  let best := l.foldl (fun b n => match b with
    | none => some n
    | some m => if (s.port m).credits.getD vc 0 < (s.port n).credits.getD vc 0 then some n else some m) none
  best.getD 0

/-- The mirror partner of a position in a chaining order of n ports (R339). -/
def mirrorOf (n i : Nat) : Nat := if i % 2 = 1 then i - 1 else if i + 1 < n then i + 1 else 0

/-- The home port of a session: the first port of its set in the partition's chaining order; after the loss of a home's slice
its mirror partner (R338, R339). -/
def State.homePort (s : State) (x : Sess) : Nat :=
  let o := (s.part x.prt).octets
  let first := ((o.filter (fun n => x.ports.testBit n && !x.homeLost.contains n)).head?).getD 0
  match x.homeLost.getLast? with
  | none => first
  | some n =>
    let m := o.getD (mirrorOf o.length (o.idxOf n)) n
    if x.homeLost.contains m then first else m

/-- Send one DATA packet of a session: it takes the next PSN and is kept until acknowledged (R335, R336). -/
def State.sendData (s : State) (i : Nat) (k : PktKind) (vals : List Nat) (data : List Byte) : State :=
  let x := s.sess i
  let n := s.choosePort x.ports (vcOf k) none
  let p : Pkt := ⟨x.txPsn, n, k, vals, data⟩
  let s := s.setSess i { x with txPsn := (x.txPsn + 1) % 2 ^ 32, unacked := x.unacked ++ [p],
                                txCount := x.txCount + 1 }
  s.onPort n (vcOf k) (flitsOf data.length) (.link n k ([x.dsess, p.psn, x.rxNext, x.phase] ++ vals) data)

/-- Send a packet again, on another port when there is one (R336). -/
def State.resend (s : State) (i psn : Nat) : State :=
  let x := s.sess i
  match x.unacked.find? (fun p => p.psn == psn) with
  | none => s
  | some p =>
    let n := s.choosePort x.ports (vcOf p.kind) (some p.port)
    let s := s.setSess i { x with unacked := x.unacked.map (fun q => if q.psn == psn then { q with port := n } else q),
                                  pathIdx := (x.pathIdx + 1) % 16, txCount := x.txCount + 1 }
    let s := s.count .HTN_TP_RETX_count .HTN_TP_RETX_ovf n 1
    s.onPort n (vcOf p.kind) (flitsOf p.data.length)
      (.link n p.kind ([x.dsess, p.psn, x.rxNext, x.phase] ++ p.vals) p.data)

/-- Kind of a request by its transaction code (R341). -/
def kindOf : Nat → PktKind
  | 1 => .write
  | 2 => .read
  | 3 => .atomic
  | 4 => .reduce
  | 5 => .message
  | 6 => .fenceSignal
  | _ => .revoke

/-- Whether a request may leave: fewer than 4,096 of its session are outstanding, and 256 ATOMIC (R337). -/
def State.mayIssue (s : State) (i op : Nat) : Bool :=
  let out := s.reqs.filter (fun r => r.sess == i && r.sent && r.st == 0)
  decide (out.length < 4096) && (op != 3 || decide ((out.filter (fun r => r.op == 3)).length < 256))

/-- Header values of a request: op, flags, gen16, rid, widx, wgen, offset, dlen, sctx, sepoch, arg (R341). -/
def Req.vals (r : Req) (gen : Nat) : List Nat :=
  [r.op, (if r.err then 4 else 0) + (match r.owner with
      | .relay _ _ => 2
      | _ => 0), gen % 65536, r.rid, r.widx, r.wgen, r.offset, r.data.length, r.ctx, r.epoch, r.arg]

/-- Send the first unsent requests that may leave. -/
def State.issueReqs (s : State) : State :=
  s.reqs.foldl (fun s r =>
    if !r.sent && r.st == 0 && (s.sess r.sess).st == 2 && s.mayIssue r.sess r.op then
      let s := { s with reqs := s.reqs.map (fun (q : Req) => if q.sess == r.sess && q.rid == r.rid then { q with sent := true } else q) }
      s.sendData r.sess (kindOf r.op) (r.vals (s.sess r.sess).gen) r.data
    else s) s

/-- The open session of an import: local partition, peer and peer partition. -/
def State.sessOf (s : State) (prt peer peerPrt : Nat) : Option Nat :=
  (s.sesss.find? (fun e => e.2.st == 2 && e.2.prt == prt && e.2.peer == peer && e.2.peerPrt == peerPrt)).map (·.1)

/-- Make one request through an import window. Without an open session it has failed (R337). -/
def State.request (s : State) (ctx w op off arg : Nat) (err : Bool) (data : List Byte) (o : ReqOwner) : State :=
  let x := s.win w
  let c := s.ctx ctx
  match s.sessOf c.prt x.peer x.peerPrt with
  | none =>
    { s with reqs := s.reqs ++
        [(⟨1024, s.nextSeq, op, w, x.peerIdx, x.peerGen, off, arg, err, data, ctx, c.epoch, o, 0, true, 2, 1, []⟩ : Req)],
             nextSeq := s.nextSeq + 1 }
  | some i =>
    let rid := (s.sess i).ridNext
    let s := s.modSess i (fun y => { y with ridNext := (y.ridNext + 1) % 2 ^ 32 })
    { s with reqs := s.reqs ++
        [(⟨i, rid, op, w, x.peerIdx, x.peerGen, off, arg, err, data, ctx, c.epoch, o, 0, false, 0, 0, []⟩ : Req)] }.issueReqs

/-- The largest data field of the session that serves a window. -/
def State.maxData (s : State) (ctx w : Nat) : Nat :=
  match s.sessOf (s.ctx ctx).prt (s.win w).peer (s.win w).peerPrt with
  | some i => (s.sess i).maxdata
  | none => 4096

/-- Offsets and lengths of the transactions that carry len bytes from off. -/
def chunks (off len sz : Nat) : List (Nat × Nat) :=
  (List.range (ceilDiv len sz)).map (fun k => (off + k * sz, min sz (len - k * sz)))

/-- Read len bytes of a window: one READ per data field. -/
def State.winRead (s : State) (ctx w off len : Nat) (o : ReqOwner) : State :=
  (chunks off len (s.maxData ctx w)).foldl (fun s (a, n) => s.request ctx w 2 a n false [] o) s

/-- Write bytes to a window with WRITE (op 1) or MESSAGE (op 5), arg as the transaction has it. -/
def State.winWrite (s : State) (ctx w op off arg : Nat) (data : List Byte) (o : ReqOwner) : State :=
  (chunks off data.length (s.maxData ctx w)).foldl (fun s (a, n) =>
    s.request ctx w op a arg false ((data.drop (a - off)).take n) o) s

/-- The requests of an owner, oldest first. -/
def State.reqsOf (s : State) (o : ReqOwner) : List Req := s.reqs.filter (fun r => r.owner == o)

/-- Forget the requests of an owner. -/
def State.dropReqs (s : State) (o : ReqOwner) : State := { s with reqs := s.reqs.filter (fun r => r.owner != o) }

/-- Whether every request of an owner is answered, whether one was refused or failed, and the bytes read. -/
def State.reqsDone (s : State) (o : ReqOwner) : Bool := (s.reqsOf o).all (fun r => r.st != 0)
def State.reqsBad (s : State) (o : ReqOwner) : Bool := (s.reqsOf o).any (fun r => r.st == 2 || r.status != 0)
def State.reqsData (s : State) (o : ReqOwner) : List Byte := (s.reqsOf o).flatMap (fun r => r.resp)

end Sys2Proof.Machine
end

