-- ==== Sys2Proof/Machine/Objects.lean ====
section
/-! DEFINITION. Shared objects of the host: event records, fences, memory objects, the release and discard of submissions,
queue halts (R254, R260 to R262, R267 to R272). -/

namespace Sys2Proof.Machine

/-- Host error codes (R279). -/
def eOK : Nat := 0
def eBAD_OP : Nat := 1
def eBAD_ARG : Nat := 2
def eBAD_HANDLE : Nat := 3
def eRIGHTS : Nat := 4
def eQUOTA : Nat := 5
def eSTATE : Nat := 6
def eCONDEMNED : Nat := 7
def eFENCE_BACK : Nat := 8
def eFENCE_ERR : Nat := 9
def eRING_FULL : Nat := 10
def eMALFORMED : Nat := 11
def eSPAN : Nat := 12
def eDMA : Nat := 13
def eFAULT : Nat := 14
def eABORTED : Nat := 15
def eOVERFLOW : Nat := 16
def eDEADLINE : Nat := 17

/-- Event types (R272). -/
def evFENCE_SIGNAL : Nat := 0
def evFENCE_ERROR : Nat := 1
def evRECLAIM : Nat := 2
def evQUEUE_HALT : Nat := 3
def evCTX_FAULT : Nat := 4
def evOVERFLOW : Nat := 5
def evDRAINED : Nat := 6

-- Handles -------------------------------------------------------------------------------------------------------------

def qHandle (idx gen : Nat) : Nat := idx + gen * 2 ^ 18
def mHandle (idx gen : Nat) : Nat := idx + gen * 2 ^ 18
def fHandle (idx gen : Nat) : Nat := idx + gen * 2 ^ 20

/-- The queue a handle names, when its generation matches (R254). -/
def State.queueOf (s : State) (h : Nat) : Option Nat :=
  let i := h % 2 ^ 18
  let q := s.queue i
  if i ≠ 0 ∧ q.live ∧ q.gen = bits h 31 18 then some i else none

/-- The memory object a handle names. -/
def State.mobjOf (s : State) (h : Nat) : Option Nat :=
  let i := h % 2 ^ 18
  let m := s.mobj i
  if i ≠ 0 ∧ m.live ∧ m.gen = bits h 31 18 then some i else none

/-- The fence a handle names. -/
def State.fenceOf (s : State) (h : Nat) : Option Nat :=
  let i := h % 2 ^ 20
  let x := s.fence i
  if i ≠ 0 ∧ x.live ∧ x.gen = bits h 31 20 then some i else none

-- Event records -------------------------------------------------------------------------------------------------------

/-- The 32 bytes of an event record (R272). -/
def evBytes (cookie value handle ty phase code seq : Nat) : List Byte :=
  natLe 8 cookie ++ natLe 8 value ++ natLe 4 handle ++ natLe 1 ty ++ natLe 1 phase ++ natLe 2 code ++ natLe 4 seq
    ++ natLe 4 0

/-- Whether a context's ring can take a record: one entry stays empty (R272). -/
def Ctx.evRoom (c : Ctx) : Bool := (c.evTail + 1) % 2 ^ c.evLog != c.evHead % 2 ^ c.evLog

/-- Write one record at the tail and raise the vector (R272). -/
def State.evWrite (s : State) (c cookie value handle ty code : Nat) : State :=
  let x := s.ctx c
  let s := s.hostWr x.evFunc none (x.evBase + 32 * x.evTail)
    (evBytes cookie value handle ty ((x.evPass + 1) % 2) code x.evSeq)
  let tail := (x.evTail + 1) % 2 ^ x.evLog
  let s := s.setCtx c { x with evTail := tail, evSeq := (x.evSeq + 1) % 2 ^ 32,
                               evPass := if tail = 0 then x.evPass + 1 else x.evPass }
  s.raise x.evFunc x.evVec

/-- Count a record that is dropped. -/
def State.evDropOne (s : State) (c : Nat) : State :=
  s.modCtx c (fun x => { x with evDrop := x.evDrop + 1, evLost := min (x.evLost + 1) 0xFFFF })

/-- The OVERFLOW record for dropped records, when the ring has room (R272). -/
def State.evFlush (s : State) (c : Nat) : State :=
  let x := s.ctx c
  if x.evEn && x.evDrop != 0 && x.evRoom && !s.recStopped x.prt then
    let s := s.evWrite c 0 x.evDrop c evOVERFLOW 0
    s.modCtx c (fun x => { x with evDrop := 0 })
  else s

/-- Write an event record, or drop and count it; records dropped before are reported first (R272). -/
def State.event (s : State) (c cookie value handle ty code : Nat) : State :=
  let x := s.ctx c
  if !x.evEn then s
  else if s.recStopped x.prt then s.evDropOne c
  else
    let s := s.evFlush c
    if (s.ctx c).evDrop == 0 && (s.ctx c).evRoom then s.evWrite c cookie value handle ty code else s.evDropOne c

-- Fences --------------------------------------------------------------------------------------------------------------

/-- Whether a signal with value v succeeds (R269). -/
def Fence.takes (x : Fence) (v : Nat) : Bool := x.st != 2 && decide (x.value < v)

/-- A change of a fence bound to a peer's goes out as FENCE-SIGNAL, through the import of the binding (R344). -/
def State.fenceOut (s : State) (i v : Nat) (err : Bool) : State :=
  match s.flinks.find? (fun l => l.fence == i) with
  | some l => s.request (s.fence i).ctx l.win 6 l.peer v err [] .fence
  | none => s

/-- Signal a fence with a value that it takes, and report by its mode (R269, R271). -/
def State.fenceSignal (s : State) (i v : Nat) : State :=
  let x := s.fence i
  let report := x.mode == 1 || (x.mode == 2 && decide (x.thr ≤ v))
  let s := s.setFence i { x with value := v, st := 1, mode := if x.mode == 2 && report then 0 else x.mode }
  let s := s.fenceOut i v false
  if report then s.event x.ctx x.cookie v (fHandle i x.gen) evFENCE_SIGNAL 0 else s

/-- Put a fence in error: the first error is reported, nothing leaves the state (R269, R271). -/
def State.fenceError (s : State) (i : Nat) : State :=
  let x := s.fence i
  if x.st == 2 then s
  else
    let s := (s.setFence i { x with st := 2 }).fenceOut i x.value true
    s.event x.ctx x.cookie x.value (fHandle i x.gen) evFENCE_ERROR 0

/-- Raise an error on the fence a descriptor names, if it still exists. -/
def State.sfenceError (s : State) (h : Nat) : State :=
  if h = 0 then s else match s.fenceOf h with
    | some i => s.fenceError i
    | none => s

/-- Whether a wait on a fence is satisfied: some true yes, some false not yet, none never; a fence in error or destroyed
is never satisfied, whatever the value waited for (R269). -/
def State.waitOn (s : State) (h w : Nat) : Option Bool :=
  if h = 0 then some true
  else match s.fenceOf h with
    | none => none
    | some i =>
      let x := s.fence i
      if x.st == 2 then none else some (w == 0 || (x.st == 1 && decide (w ≤ x.value)))

-- Memory objects ------------------------------------------------------------------------------------------------------

/-- Whether a context still owns a memory object. -/
def State.ownsMobj (s : State) (c : Nat) : Bool := s.mobjs.any (fun e => e.2.live && e.2.ctx == c)

/-- When a draining context owns no object any more, it is reported DRAINED and its ID freed (R277). -/
def State.drainCheck (s : State) (c : Nat) : State :=
  if (s.ctx c).st == 4 && !s.ownsMobj c then
    let s := s.event c 0 0 c evDRAINED 0
    s.setCtx c { Ctx.free with epoch := (s.ctx c).epoch }
  else s

/-- Reclaim an object whose counts are both 0 (R267). -/
def State.reclaim (s : State) (i : Nat) : State :=
  let m := s.mobj i
  if m.live && m.host == 0 && m.dev == 0 then
    let s := s.event m.ctx m.cookie m.size (mHandle i m.gen) evRECLAIM 0
    let s := s.setMobj i { MObj.free with gen := (m.gen + 1) % 2 ^ 14 }
    s.drainCheck m.ctx
  else s

/-- Subtract 1 from the device count of an object (R267). -/
def State.mobjDown (s : State) (h : Nat) : State :=
  if h = 0 then s else match s.mobjOf h with
    | some i => (s.setMobj i { s.mobj i with dev := (s.mobj i).dev - 1 }).reclaim i
    | none => s

/-- Add 1 to the device count of an object. -/
def State.mobjUp (s : State) (h : Nat) : State :=
  if h = 0 then s else match s.mobjOf h with
    | some i => s.setMobj i { s.mobj i with dev := (s.mobj i).dev + 1 }
    | none => s

-- Queues and submissions ----------------------------------------------------------------------------------------------

/-- Halt a queue and report it (R262); the value is the ring index of the submission. -/
def State.haltQueue (s : State) (q code ring : Nat) : State :=
  let x := s.queue q
  let s := s.setQueue q { x with halted := true, code := code }
  let s := s.modCtx x.ctx (fun c => if c.st == 2 then c else { c with code := code })
  s.event x.ctx x.cookie ring (qHandle q x.gen) evQUEUE_HALT code

/-- Advance the queue head past retired and discarded submissions (R261). -/
def State.advanceHead (s : State) (q : Nat) : State :=
  let x := s.queue q
  match x.subs with
  | t :: _ => s.setQueue q { x with head := (s.sub t).ring }
  | [] => s.setQueue q { x with head := x.next }

/-- Show whether a partition has a parked task. -/
def State.showParked (s : State) (p : Nat) : State :=
  s.wr .PRT_STAT_parked p (b2n (s.subs.any (fun e => e.2.stage == .parked && e.2.prt == p)))

/-- Take a submission out of its queue. -/
def State.dropSub (s : State) (t : Nat) : State :=
  let q := (s.sub t).q
  let s := s.modQueue q (fun x => { x with subs := x.subs.filter (fun u => u != t) })
  let s := s.advanceHead q
  let p := (s.sub t).prt
  let s := s.setSub t .none
  if s.flag .PRT_STAT_parked p then s.showParked p else s

/-- Release the device counts a submission took (R260, R261). -/
def State.releaseCounts (s : State) (t : Nat) : State := (s.sub t).mobjs.foldl State.mobjDown s

/-- Discard one submission: its fence takes an error and its counts are released (R262, R276). -/
def State.discardOne (s : State) (t : Nat) : State :=
  if (s.sub t).stage == .none then s
  else ((s.sfenceError (s.sub t).sfence).releaseCounts t).dropSub t

/-- Discard a submission. One that a discarded fallback had replaced is discarded with it, or runs on if it still runs (R316). -/
def State.discardSub (s : State) (t : Nat) : State :=
  match (s.sub t).replaces with
  | none => s.discardOne t
  | some m =>
    let s := s.discardOne t
    if (s.sub m).stage == .replaced then s.discardOne m else s.modSub m (fun u => { u with replacedBy := none })

/-- The submissions of a context, oldest first. -/
def State.subsOf (s : State) (c : Nat) : List Nat := (s.subs.filter (fun e => e.2.ctx == c)).map (·.1)

/-- The live queues of a context. -/
def State.queuesOf (s : State) (c : Nat) : List Nat :=
  (s.queues.filter (fun e => e.2.live && e.2.ctx == c)).map (·.1)

/-- The queue in a portal slot of a context. -/
def State.slotQueue (s : State) (c k : Nat) : Option Nat :=
  (s.queues.find? (fun e => e.2.live && e.2.ctx == c && e.2.slot == k)).map (·.1)

/-- Free a queue index: its generation advances (R254). -/
def State.freeQueue (s : State) (q : Nat) : State :=
  let x := s.queue q
  let s := s.wr .DSP_STAT_cached 0 (s.rd .DSP_STAT_cached 0 - b2n x.cached)
  let s := s.wr .DSP_STAT_pinned 0 (s.rd .DSP_STAT_pinned 0 - b2n x.pin)
  s.setQueue q { Queue.free with gen := (x.gen + 1) % 2 ^ 14 }

end Sys2Proof.Machine
end

