-- ==== Sys2Proof/Machine/Faults.lean ====
section
/-! DEFINITION. Faults: RAS records, context faults and the abort of a context (R371, R372, R378), with the release of
galleries and engine commands that they need. The rows of chapter 15 are in Machine/Recovery.lean. -/

namespace Sys2Proof.Machine

/-- Dump unit kinds (R393). -/
def uDEVICE : Nat := 1
def uGALLERY : Nat := 2
def uENGINE : Nat := 3
def uPARTITION : Nat := 4
def uHBM : Nat := 5
def uDDR5 : Nat := 6
def uPORT : Nat := 7
def uCONTEXT : Nat := 8
def uFIRMWARE : Nat := 9

/-- Domain of a gallery's hall (R23): galleries 0 to 15 are the West hall. -/
def hallDom (g : Nat) : Nat := if g < 16 then 1 else 2

/-- The Echo clock's domain. -/
def domECHO : Nat := 3

/-- A RAS fault record (R372). -/
structure RasRec where
  sev : Nat
  code : Nat
  action : Nat
  kind : Nat
  unit : Nat
  prt : Nat
  dom : Nat
  ctx : Nat
  detail : Nat
  deriving DecidableEq, Repr

/-- The 32 bytes of a RAS record. -/
def RasRec.bytes (r : RasRec) (seq phase cnt : Nat) : List Byte :=
  natLe 4 seq ++ natLe 1 r.sev ++ natLe 1 r.code ++ natLe 1 r.action ++ natLe 1 phase
    ++ natLe 4 (r.kind * 2 ^ 24 + r.unit) ++ natLe 1 r.prt ++ natLe 1 r.dom ++ natLe 2 r.ctx ++ natLe 8 r.detail
    ++ natLe 8 cnt

/-- Whether the RAS ring takes a record (R372, R272). -/
def State.rasRoom (s : State) : Bool :=
  let n := 2 ^ s.rd .RAS_EVQ_BASE_size 0
  s.flag .RAS_EVQ_BASE_en 0 && decide (6 ≤ s.rd .RAS_EVQ_BASE_size 0) && decide (s.rd .RAS_EVQ_BASE_size 0 ≤ 12)
    && (s.rd .RAS_EVQ_TAIL_idx 0 + 1) % n != s.rd .RAS_EVQ_HEAD_idx 0 % n && !s.hostStop

/-- Write a RAS record: to management always, to the RAS ring when it takes it, else counted as dropped (R372). For a
confidential partition ctx and detail read 0 in both copies. -/
def State.rasRecord (s : State) (r : RasRec) : State :=
  let r := if r.prt < 32 ∧ s.confidential r.prt then { r with ctx := 0, detail := 0 } else r
  let seq := s.ras.seqs.get 0 r.dom
  let cnt := s.clocks.get 0 r.dom
  let b := r.bytes seq ((s.ras.pass + 1) % 2) cnt
  let s := { s with ras := { s.ras with seqs := s.ras.seqs.set 0 r.dom ((seq + 1) % 2 ^ 32),
                                        recent := s.ras.recent ++ [b] } }
  let s := s.emit (.rasEvent b)
  if s.rasRoom then
    let tail := s.rd .RAS_EVQ_TAIL_idx 0
    let s := s.hostWr 0 none (s.rd .RAS_EVQ_BASE_addr 0 * 65536 + 32 * tail) b
    let tail' := (tail + 1) % 2 ^ s.rd .RAS_EVQ_BASE_size 0
    let s := s.wr .RAS_EVQ_TAIL_idx 0 tail'
    let s := if tail' = 0 then { s with ras := { s.ras with pass := s.ras.pass + 1 } } else s
    s.raise 0 (s.rd .RAS_EVQ_BASE_vec 0)
  else s.count .RAS_CNT_DROP_count .RAS_CNT_DROP_ovf 0 1

/-- The fault value of R371. -/
def faultValue (code detail gal eng info : Nat) : Nat :=
  code % 256 + detail % 256 * 2 ^ 8 + gal % 32 * 2 ^ 16 + eng % 256 * 2 ^ 24 + info % 2 ^ 32 * 2 ^ 32

/-- Context fault codes (R371). -/
def cfTRAP : Nat := 1
def cfENGINE : Nat := 2
def cfOWNER : Nat := 3
def cfPOISON : Nat := 4
def cfWATCHDOG : Nat := 5
def cfDEADLINE : Nat := 6
def cfNOREPLAY : Nat := 7
def cfREMOTE_LOST : Nat := 8
def cfPRT_RESET : Nat := 9

-- Releasing galleries -------------------------------------------------------------------------------------------------

/-- The fields of GAL_NUM_FLAGS, bit 0 first. -/
def numFlagFlds : List Fld :=
  [.GAL_NUM_FLAGS_inv, .GAL_NUM_FLAGS_dz, .GAL_NUM_FLAGS_ovf, .GAL_NUM_FLAGS_unf, .GAL_NUM_FLAGS_inx,
   .GAL_NUM_FLAGS_arr_nan, .GAL_NUM_FLAGS_arr_inf, .GAL_NUM_FLAGS_cvt_sat]

/-- The numeric flags of the running task as GAL_NUM_FLAGS [7:0]. -/
def State.numFlags (s : State) (g : Nat) : Nat :=
  (numFlagFlds.zipIdx).foldl (fun acc (f, k) => acc + s.rd f g * 2 ^ k) 0

/-- Set GAL_NUM_FLAGS. -/
def State.setNumFlags (s : State) (g v : Nat) : State :=
  (numFlagFlds.zipIdx).foldl (fun s (f, k) => s.wr f g (v / 2 ^ k % 2)) s

/-- OR flags into GAL_NUM_FLAGS (R71, R80). -/
def State.orNumFlags (s : State) (g v : Nat) : State :=
  if v = 0 then s else s.setNumFlags g (s.numFlags g ||| v)

/-- What outlives the task in a gallery: the mark shadow and journal of the pool domain, promoted requests, scrub. -/
def Gal.release (x : Gal) : Gal :=
  { Gal.idle with shadow := x.shadow, journal := x.journal, journalFull := x.journalFull, promoted := x.promoted,
                  scrubRow := x.scrubRow }

/-- Take the task off a gallery: registers, vector registers, bands and B buffer are cleared, the sequencer is idle. -/
def State.releaseGal (s : State) (g : Nat) : State :=
  let s := s.modGal g Gal.release
  let s := s.wr .GAL_SEQ_STAT_state g 0
  let s := s.wr .GAL_SEQ_STAT_yreq g 0
  let s := s.wr .GAL_SEQ_STAT_loops g 0
  let s := s.wr .GAL_SEQ_STAT_calls g 0
  let s := s.wr .GAL_DISP_STAT_loaded g 0
  let s := s.wr .GAL_DISP_STAT_ctx g 0
  let s := s.wr .GAL_DISP_STAT_lc g 0
  s.resetReg .GAL_ARRAY_STAT g

-- Accounting ----------------------------------------------------------------------------------------------------------

/-- Charge the hall cycles a gallery accounted to its task's context and partition (R305, R306). charged says whether the
pass value moves: a best-effort task that stops running. -/
def State.account (s : State) (t used : Nat) : State :=
  let u := s.sub t
  let c := s.ctx u.ctx
  let acct := c.acct + used
  let pass := if u.lc then c.pass else (c.pass + used * (2 ^ 32 / max c.weight 1)) % 2 ^ 64
  let s := s.setCtx u.ctx { c with acct := min acct (2 ^ 64 - 1), acctSat := c.acctSat || decide (2 ^ 64 ≤ acct),
                                   pass := pass }
  let s := if 2 ^ 64 ≤ acct then s.wr .DSP_ACCT_STAT_ctx_sat u.prt 1 else s
  let tot := s.rd .DSP_ACCT_cycles u.prt + used
  let s := s.wr .DSP_ACCT_cycles u.prt (min tot (2 ^ 64 - 1))
  if 2 ^ 64 ≤ tot then s.wr .DSP_ACCT_STAT_sat u.prt 1 else s

-- Context abort -------------------------------------------------------------------------------------------------------

/-- Galleries that hold a task of a context. -/
def State.galsOf (s : State) (c : Nat) : List Nat :=
  (List.range 32).filter (fun g => match (s.gal g).task with
    | some t => (s.sub t).ctx == c
    | none => false)

/-- Abort step 2: every gallery that holds a task of the context freezes and discards it (R378). -/
def State.stopGals (s : State) (c : Nat) : State :=
  (s.galsOf c).foldl (fun s g =>
    let x := s.gal g
    let s := match x.task with
      | some t => s.account t x.used
      | none => s
    s.releaseGal g) s

/-- Responses to requests that a stopped context made will be dropped (R132). -/
def State.orphanReqs (s : State) (c : Nat) : State :=
  { s with reqs := s.reqs.map (fun (r : Req) => if r.ctx == c then { r with owner := .gone } else r) }

/-- Abort step 3: running and parked commands of the context are discarded; those waiting in the rings are discarded when
the engine reaches them, because their epoch is old (R132, R378). -/
def State.stopEngines (s : State) (c : Nat) : State :=
  (s.engs.map (·.1)).foldl (fun s k =>
    let x := s.eng k
    let x := { x with relays := x.relays.filter (fun r => r.cap.ctx != c) }
    let s := s.wr .GAL_ENG_STAT_relays k (b2n (!x.relays.isEmpty))
    if x.cur.any (fun e => e.2.1.ctx == c) then
      let s := s.wr .GAL_ENG_STAT_state k 0
      let s := if k % 16 = 0 then
          let u := s.pgals.get .empty (k / 16)
          { s with pgals := s.pgals.set .empty (k / 16) { u with slots := u.slots.filter (fun q => !q.1) } }
        else s
      s.setEng k { x with cur := none, phase := .idle, parked := none }
    else s.setEng k x) s

/-- Free a window entry: the generation advances (R295, R298). -/
def Win.freed (w : Win) : Win := { Win.free with gen := (w.gen + 1) % 2 ^ 16 }

/-- The lowest set bit of a mask below n. -/
def lowestBit (m : Nat) : Nat → Option Nat
  | 0 => none
  | n + 1 => match lowestBit m n with
    | some k => some k
    | none => if m.testBit n then some n else none

/-- A port that the routes of a partition give for a peer partition (R227); 0 where they give none. -/
def State.routePort (s : State) (p peer peerPrt : Nat) : Nat :=
  match (s.part p).peers.find? (fun x => x.id == peer && x.prt == peerPrt) with
  | some x => (lowestBit x.ports 32).getD 0
  | none => 0

/-- Send REVOKE for an export to its peer (R298). -/
def State.sendRevoke (s : State) (idx : Nat) : State :=
  let w := s.win idx
  s.emit (.link (s.routePort (s.ctx w.ctx).prt w.peer w.peerPrt) .revoke [w.peer, w.peerPrt, idx, w.gen] [])

/-- Close a window: an export is revoked, far moves outstanding to an import end with an error (R298, R101). -/
def State.closeWin (s : State) (idx : Nat) : State :=
  let w := s.win idx
  if w.kind == 0 then s
  else
    let s := if w.kind == 1 then s.sendRevoke idx else s
    let s := { s.setWin idx w.freed with flinks := s.flinks.filter (fun l => l.win != idx) }
    if w.kind == 2 then
      (s.gals.map (·.1)).foldl (fun s g => s.modGal g (fun x =>
        { x with fars := x.fars.map (fun f => if f.win == some idx then { f with err := 5 } else f) })) s
    else s

/-- Abort step 5: exports revoked, imports closed. -/
def State.closeWins (s : State) (c : Nat) : State :=
  ((s.wins.filter (fun e => e.2.kind != 0 && e.2.ctx == c)).map (·.1)).foldl State.closeWin s

/-- Abort step 6: submissions not retired are discarded (R276, R378). -/
def State.discardAll (s : State) (c : Nat) : State := (s.subsOf c).foldl State.discardSub s

/-- Abort step 7: every queue of the context halts. -/
def State.haltAll (s : State) (c code : Nat) : State :=
  (s.queuesOf c).foldl (fun s q => s.haltQueue q code (s.queue q).head) s

/-- Suspended tasks of a context give up the galleries they reserve. -/
def State.dropReservations (s : State) (c : Nat) : State :=
  (s.subsOf c).foldl (fun s t =>
    if (s.sub t).stage == .suspended then
      (s.sub t).gals.foldl (fun s g => (s.wr .GAL_DISP_STAT_susp g 0).wr .GAL_DISP_STAT_sctx g 0) s
    else s) s

/-- Abort steps 1 to 6 (R378): the epoch advances and the context's work is stopped and discarded. -/
def State.abortWork (s : State) (c : Nat) : State :=
  let s := s.modCtx c (fun x => { x with epoch := (x.epoch + 1) % 2 ^ 16 })
  let s := s.stopGals c
  let s := (s.stopEngines c).orphanReqs c
  let s := s.dropReservations c
  let s := s.closeWins c
  s.discardAll c

/-- A context abort: the context passes through ABORTING and is LIVE again with its queues halted (R276). -/
def State.abortCtx (s : State) (c : Nat) : State :=
  let s := s.modCtx c (fun x => { x with st := 3 })
  let s := s.abortWork c
  let s := s.haltAll c eABORTED
  s.modCtx c (fun x => { x with st := 1 })

/-- A context fault (R371): a LIVE context becomes FAULTED with its work aborted and its queues halted with FAULT, and its
ring takes a CTX_FAULT record; every context fault is counted and recorded. -/
def State.ctxFault (s : State) (c code detail gal eng info : Nat) : State :=
  let v := faultValue code detail gal eng info
  let live := (s.ctx c).st == 1
  let s := if live then
      let s := s.modCtx c (fun x => { x with st := 2, code := code })
      let s := s.event c 0 v c evCTX_FAULT eFAULT
      let s := s.abortWork c
      s.haltAll c eFAULT
    else s
  let s := s.count .RAS_CNT_CTX_count .RAS_CNT_CTX_ovf 0 1
  s.rasRecord ⟨1, code, b2n live, uCONTEXT, c, if (s.ctx c).st == 0 then 0xFF else (s.ctx c).prt, domECHO, c, v⟩

-- Escalation ----------------------------------------------------------------------------------------------------------

/-- A partition's units freeze for its reset, which is due at once, or waits for a request with `auto_prt` at 0 (R375). -/
def State.escalatePrt (s : State) (p row : Nat) : State :=
  if !(s.part p).defined || s.ras.frozen.contains p then s
  else
    let s := { s with ras := { s.ras with frozen := s.ras.frozen ++ [p] } }
    if s.flag .RAS_ESC_CTRL_auto_prt 0 then { s with ras := { s.ras with due := s.ras.due ++ [⟨some p, row⟩] } }
    else s.rasRecord ⟨4, 4, 0, uPARTITION, p, p, domECHO, 0, 0⟩

/-- The units freeze and a chip warm reset is due; nothing is due once a power cycle is asked for. -/
def State.chipDue (s : State) : State :=
  if s.flag .RAS_STAT_cycle 0 then s
  else
    let s := { s.wr .RAS_STAT_fault 0 1 with pwr := { s.pwr with stop := max s.pwr.stop 1 } }
    { s with ras := { s.ras with due := s.ras.due ++ [⟨none, 5⟩] } }

/-- A chip fault (R370, R375): with `auto_chip` at 0 it is reported and the reset waits for a request. -/
def State.escalateChip (s : State) : State :=
  if s.flag .RAS_STAT_cycle 0 then s
  else if s.flag .RAS_ESC_CTRL_auto_chip 0 then s.chipDue
  else
    let s := s.rasRecord ⟨5, 5, 0, uDEVICE, 0, 0xFF, domECHO, 0, 0⟩
    { s.wr .RAS_STAT_fault 0 1 with pwr := { s.pwr with stop := max s.pwr.stop 1 } }

end Sys2Proof.Machine
end

