-- ==== Sys2Proof/Machine/Mem.lean ====
section
/-! DEFINITION. Device memory as the controllers serve it: the map from partition physical addresses to channels and lines
(R186, R191 to R193, R239), the line codes and poison (R187 to R190, R196, R197, R206), the page-owner check (R200 to
R202). Contents are held decrypted, per partition and address: what the key of R198 does to the stored bits is not seen
through the key. -/

namespace Sys2Proof.Machine

-- RS codes ------------------------------------------------------------------------------------------------------------

/-- Multiply by α = 0x02 in GF(2^8) with x^8 + x^4 + x^3 + x^2 + 1 (R171, R187). -/
def gfX (a : Nat) : Nat := if a < 128 then 2 * a else (2 * a) % 256 ^^^ 0x1D

/-- Product in GF(2^8), by the bits of the second factor from bit n - 1 down. -/
def gfMulGo (a b : Nat) : Nat → Nat → Nat
  | 0, acc => acc
  | n + 1, acc => gfMulGo a b n (gfX acc ^^^ (if b.testBit n then a else 0))

/-- Product in GF(2^8). -/
def gfMul (a b : Nat) : Nat := gfMulGo a b 8 0

/-- α^n. -/
def gfPow : Nat → Nat
  | 0 => 1
  | n + 1 => gfX (gfPow n)

/-- The generator polynomial (x − α^0)…(x − α^(n-1)), highest coefficient first, without the leading 1. -/
def rsGen : Nat → List Nat
  | 0 => []
  | n + 1 =>
    let g := 1 :: rsGen n
    let r := gfPow n
    let g1 := g ++ [0]
    let g2 := 0 :: g.map (fun c => gfMul c r)
    (List.zipWith (fun a b => a ^^^ b) g1 g2).tail

/-- One division step: shift the remainder register and subtract. -/
def rsStep (gen : List Nat) (rem : List Nat) (d : Nat) : List Nat :=
  match rem with
  | [] => []
  | h :: t =>
    let f := h ^^^ d
    List.zipWith (fun a b => a ^^^ b) (t ++ [0]) (gen.map (fun c => gfMul c f))

/-- The n check bytes of a data block (R171 with n = 4, R187 with n = 4, R189 with n = 16). -/
def rsCheck (n : Nat) (data : List Byte) : List Byte :=
  (data.foldl (fun rem d => rsStep (rsGen n) rem d.toNat) (List.replicate n 0)).map (BitVec.ofNat 8)

-- The address map -----------------------------------------------------------------------------------------------------

/-- Where a PPA lies: channel (DDR5 d as 256 + d) and usable line of the channel. -/
structure Loc where
  chan : Nat
  line : Nat
  deriving DecidableEq, Repr

/-- The HBM place of a PPA under a chaining order (R192, R186). -/
def Part.hbmLoc (x : Part) (order : List Nat) (a : Nat) : Loc :=
  let g := if x.gran64 then 65536 else 4096
  let c := x.dch * order.length
  let gi := a / g
  let ch := gi % c
  let off := gi / c * g + a % g
  ⟨8 * order.getD (ch / x.dch) 0 + ch % x.dch, off / 64⟩

/-- The DDR5 place of an offset from ddrBase (R193). -/
def Part.ddrLoc (x : Part) (b : Nat) : Loc :=
  let w := max x.w 1
  let k := b / (w * 2 ^ 30)
  let o := b % (w * 2 ^ 30)
  let h := o / 4096
  let e := x.exts.getD (k * w + h % w) 0
  ⟨256 + e / 256, (e % 256 * 2 ^ 30 + h / w * 4096 + o % 4096) / 64⟩

/-- Whether a range of PPAs is mapped (R191, R240): HBM below H, less what a grow relayout has not opened and what a
shrink relayout gives up, and DDR5 below its size. -/
def State.mapped (s : State) (p ppa len : Nat) : Bool :=
  let x := s.part p
  let r := s.relays.get .none p
  let h := if r.active && !r.grow then x.dch * r.newOrder.length * 1920 * 2 ^ 20
    else if r.grow && s.flag .PRT_STAT_closed p then x.dch * r.oldOrder.length * 1920 * 2 ^ 20
    else x.hbm
  x.defined && (decide (ppa + len ≤ h) || (decide (ddrBase ≤ ppa) && decide (ppa + len ≤ ddrBase + x.ddr)))

/-- Where a mapped PPA lies now, by the watermark of a running relayout (R239). -/
def State.locOf (s : State) (p ppa : Nat) : Loc :=
  let x := s.part p
  if ddrBase ≤ ppa then x.ddrLoc (ppa - ddrBase)
  else
    let r := s.relays.get .none p
    let w := s.rd .PRT_RELAYOUT_wmark p
    if r.active then
      let new := if r.grow then decide (ppa < w) else decide (w ≤ ppa)
      x.hbmLoc (if new then r.newOrder else r.oldOrder) ppa
    else x.hbmLoc x.octets ppa

/-- Whether an HBM channel belongs to an octet whose partition has parity groups. -/
def State.inParity (s : State) (ch : Nat) : Bool :=
  match s.prtOf (ch / 8) with
  | some p => decide (ch < 256) && (s.part p).parity
  | none => false

/-- State of an HBM or DDR5 channel (0 untrained, 1 active, 2 degraded, 3 lost, 4 rebuilding). -/
def State.chanState (s : State) (ch : Nat) : Nat :=
  if ch < 256 then s.rd .MEM_HBM_STAT_state ch else s.rd .MEM_DDR_STAT_state (ch - 256)

-- Lines ---------------------------------------------------------------------------------------------------------------

/-- Key of a line's error entry. -/
def lineKey (l : Loc) : Nat := l.chan * 2 ^ 32 + l.line

/-- Bad symbols of a line; 255 is poisoned. In a channel whose loss poisoned every line, 256 marks a line written since. -/
def State.lineBad (s : State) (l : Loc) : Nat :=
  let n := s.lineErr.get 0 (lineKey l)
  if n = 256 then 0 else if n = 0 ∧ (s.chans.get .reset l.chan).dead then 255 else n

def State.setLineBad (s : State) (l : Loc) (n : Nat) : State :=
  { s with lineErr := s.lineErr.set 0 (lineKey l) (if n = 0 ∧ (s.chans.get .reset l.chan).dead then 256 else n) }

/-- The channel of one hall's HBM and DDR5 domains, for RAS records (R23). -/
def chanDom (ch : Nat) : Nat :=
  if ch < 128 then 7 else if ch < 256 then 8 else if ch < 262 then 9 else 10

/-- Whether another channel of a channel's octet is lost. -/
def State.otherLost (s : State) (ch : Nat) : Bool :=
  (List.range 8).any (fun k => ch / 8 * 8 + k != ch && s.chanState (ch / 8 * 8 + k) == 3)

/-- A channel is lost (R196, R197): it is fenced; the other channels of a parity octet are degraded; without a parity group
every line of it is poisoned; the loss is counted and reported. Without a parity group, or second in its octet, it escalates to
the partition. -/
def State.loseChan (s : State) (ch : Nat) : State :=
  let par := s.inParity ch
  let row := if 256 ≤ ch then 5 else if par && !s.otherLost ch then 3 else 4
  let s := if ch < 256 then s.wr .MEM_HBM_STAT_state ch 3 else s.wr .MEM_DDR_STAT_state (ch - 256) 3
  let s := if par then
      (List.range 8).foldl (fun s k =>
        let c := ch / 8 * 8 + k
        if c ≠ ch ∧ s.rd .MEM_HBM_STAT_state c = 1 then s.wr .MEM_HBM_STAT_state c 2 else s) s
    else { s with chans := s.chans.upd .reset ch (fun x => { x with dead := true }),
                  lineErr := s.lineErr.clearRange (ch * 2 ^ 32) ((ch + 1) * 2 ^ 32) }
  let s := s.count .RAS_CNT_UNIT_count .RAS_CNT_UNIT_ovf 0 1
  let s := match row, s.prtOf (ch / 8) with
    | 4, some p => s.escalatePrt p 4
    | _, _ => s
  s.rasRecord ⟨3, row, 5, if ch < 256 then uHBM else uDDR5, if ch < 256 then ch else ch - 256,
    if ch < 256 then (s.prtOf (ch / 8)).getD 0xFF else 0xFF, chanDom ch, 0,
    if ch < 256 then s.word .MEM_HBM_UE ch else s.word .MEM_DDR_UE (ch - 256)⟩

/-- A corrected line: counted, and held against the threshold of the running window (R188, R206). -/
def State.corrected (s : State) (ch : Nat) : State :=
  let hbm := decide (ch < 256)
  let i := if hbm then ch else ch - 256
  let s := if hbm then s.count .MEM_HBM_CE_count .MEM_HBM_CE_ovf i 1
           else s.count .MEM_DDR_CE_count .MEM_DDR_CE_ovf i 1
  let win := if hbm then s.rd .MEM_HBM_CTRL_win i else s.rd .MEM_DDR_CTRL_win i
  let thr := if hbm then s.rd .MEM_HBM_CTRL_thr i else s.rd .MEM_DDR_CTRL_thr i
  let per := max win 1 * (if hbm then 125000000 else 160000000)
  let idx := s.clocks.get 0 (chanDom ch) / per
  let c := s.chans.get .reset ch
  let cnt := if c.winIdx == idx then c.winCnt + 1 else 1
  let s := { s with chans := s.chans.set .reset ch { c with winIdx := idx, winCnt := cnt } }
  if thr ≤ cnt then
    let was := if hbm then s.flag .MEM_HBM_CTRL_hot i else s.flag .MEM_DDR_CTRL_hot i
    let s := if hbm then s.wr .MEM_HBM_CTRL_hot i 1 else s.wr .MEM_DDR_CTRL_hot i 1
    let ie := if hbm then s.flag .MEM_HBM_CTRL_ie i else s.flag .MEM_DDR_CTRL_ie i
    let s := if ie && !was then s.raiseOpen else s
    if hbm && s.flag .MEM_HBM_CTRL_retire i && s.inParity ch then s.loseChan ch else s
  else s

/-- Record the first uncorrectable event of a channel (R188, R190). -/
def State.ueRecord (s : State) (l : Loc) (ctx recon : Nat) : State :=
  if l.chan < 256 then
    if s.flag .MEM_HBM_UE_valid l.chan then s
    else (((s.wr .MEM_HBM_UE_line l.chan l.line).wr .MEM_HBM_UE_ctx l.chan ctx).wr .MEM_HBM_UE_recon l.chan recon).wr
      .MEM_HBM_UE_valid l.chan 1
  else
    let d := l.chan - 256
    if s.flag .MEM_DDR_UE_valid d then s
    else (((s.wr .MEM_DDR_UE_line d l.line).wr .MEM_DDR_UE_ctx d ctx).wr .MEM_DDR_UE_recon d recon).wr
      .MEM_DDR_UE_valid d 1

/-- Whether the other seven channels of an octet can rebuild a line (R188, R196, R197). -/
def State.canRebuild (s : State) (l : Loc) : Bool :=
  s.inParity l.chan && (List.range 8).all (fun k =>
    let c := l.chan / 8 * 8 + k
    c == l.chan || (s.chanState c != 3 && s.lineBad ⟨c, l.line⟩ ≤ 2))

/-- Symbols a channel corrects in one line: 2 in HBM, 8 in DDR5 (R188, R189). -/
def correctable (ch : Nat) : Nat := if ch < 256 then 2 else 8

/-- A line of a degraded parity octet that cannot be rebuilt is poisoned, and its partition escalated (R197). -/
def State.doubleLoss (s : State) (l : Loc) : State :=
  let s' := s.setLineBad l 255
  if s.inParity l.chan && s.lineBad l != 255 && (s.chanState l.chan == 3 || s.otherLost l.chan) then
    match s.prtOf (l.chan / 8) with
    | some p => s'.escalatePrt p 4
    | none => s'
  else s'

/-- Read the code of one line for a context: whether data is delivered (R188, R190, R196, R197). -/
def State.readLine (s : State) (l : Loc) (ctx : Nat) : Bool × State :=
  let n := s.lineBad l
  if s.chanState l.chan == 3 then
    if s.canRebuild l then (true, s)
    else (false, (s.doubleLoss l).ueRecord l ctx 0)
  else if n == 0 then (true, s)
  else if n == 255 then (false, s)
  else if n ≤ correctable l.chan then (true, (s.setLineBad l 0).corrected l.chan)
  else if s.canRebuild l then (true, (s.setLineBad l 0).ueRecord l ctx 1)
  else (false, (s.doubleLoss l).ueRecord l ctx 0)

/-- Write one line, whole or in part: whether the write is made (R188). -/
def State.writeLine (s : State) (l : Loc) (whole : Bool) (ctx : Nat) : Bool × State :=
  if whole then (true, s.setLineBad l 0) else s.readLine l ctx

/-- The lines of a range of PPAs: PPA of each line. -/
def linesOf (ppa len : Nat) : List Nat := (pagesOf ppa len 64).map (· * 64)

-- The page-owner check ------------------------------------------------------------------------------------------------

/-- The owner entry a controller holds for a frame; a miss reads the table (R202). -/
def State.ownEntry (s : State) (p idx : Nat) : Nat × State :=
  let k := p * 2 ^ 32 + idx
  let c := s.ownCache.get 0 k
  if c != 0 then (c - 1, s)
  else
    let e := leNat (s.pmemRd p (s.rd .MEM_PRT_OWN_base p * 65536 + 4 * idx) 4)
    (e, { s with ownCache := s.ownCache.set 0 k (e + 1) })

/-- Whether an owner entry lets a context through (R200, R201). -/
def ownerPasses (e ctx : Nat) (wr : Bool) : Bool :=
  ctx == 0 || (bit e 16 && (bit e 17 || bits e 15 0 == ctx) && !(wr && bit e 18))

/-- Record a refusal and fault the requesting context (R191, R201). -/
def State.ownerRefuse (s : State) (p idx ctx : Nat) (wr : Bool) : State :=
  let s := if s.flag .MEM_OWN_FAULT_valid p then s
    else (((s.wr .MEM_OWN_FAULT_frame p idx).wr .MEM_OWN_FAULT_ctx p ctx).wr .MEM_OWN_FAULT_wr p (b2n wr)).wr
      .MEM_OWN_FAULT_valid p 1
  if ctx = 0 then s else s.ctxFault ctx cfOWNER (b2n wr) 0 0xFF idx

/-- Check a request at the controller: mapped, and its context passes the entry of every frame it reaches. The index of
the first refused frame, or none (R191, R201). -/
def State.ownerCheck (s : State) (p ppa len ctx : Nat) (wr : Bool) : Option Nat × State :=
  if !s.mapped p ppa len then (some 0xFFFFFFFF, s)
  else if !s.flag .MEM_PRT_OWN_en p then (none, s)
  else
    (pagesOf ppa len 65536).foldl (fun (r, s) fr =>
      match r with
      | some i => (some i, s)
      | none =>
        let idx := s.frameIdx p (fr * 65536)
        let (e, s) := s.ownEntry p idx
        (if ownerPasses e ctx wr then none else some idx, s)) (none, s)

-- Requests ------------------------------------------------------------------------------------------------------------

/-- How a request to device memory ends. -/
inductive MemRes where
  | ok (data : List Byte)
  | refused
  | poison (loc : Loc)
  deriving DecidableEq, Repr

/-- Read the lines of a range: the first that delivers no data, or none. -/
def State.readLines (s : State) (p ppa len ctx : Nat) : Option Loc × State :=
  (linesOf ppa len).foldl (fun (r, s) a =>
    match r with
    | some l => (some l, s)
    | none =>
      let l := s.locOf p a
      let (ok, s) := s.readLine l ctx
      (if ok then none else some l, s)) (none, s)

/-- A read as a context (R188, R190, R201): a refusal faults the context, a poisoned line delivers nothing. -/
def State.memRead (s : State) (p ppa len ctx : Nat) : MemRes × State :=
  match s.ownerCheck p ppa len ctx false with
  | (some i, s) => (.refused, s.ownerRefuse p i ctx false)
  | (none, s) =>
    match s.readLines p ppa len ctx with
    | (some l, s) => (.poison l, s)
    | (none, s) => (.ok (s.pmemRd p ppa len), s)

/-- The bytes of one line's share of a write: its first PPA and whether it covers the whole line. -/
def wholeLine (a ppa len : Nat) : Bool := decide (ppa ≤ a) && decide (a + 64 ≤ ppa + len)

/-- Write each line of a range; lines that are poisoned and only partly written keep their bytes (R188). -/
def State.writeLines (s : State) (p ppa ctx : Nat) (data : List Byte) : Option Loc × State :=
  let len := data.length
  (linesOf ppa len).foldl (fun (r, s) a =>
    let l := s.locOf p a
    let (ok, s) := s.writeLine l (wholeLine a ppa len) ctx
    let lo := max a ppa
    let hi := min (a + 64) (ppa + len)
    if ok then (r, s.pmemWr p lo ((data.drop (lo - ppa)).take (hi - lo)))
    else (r.or (some l), s)) (none, s)

/-- A write as a context. -/
def State.memWrite (s : State) (p ppa ctx : Nat) (data : List Byte) : MemRes × State :=
  match s.ownerCheck p ppa data.length ctx true with
  | (some i, s) => (.refused, s.ownerRefuse p i ctx true)
  | (none, s) =>
    match s.writeLines p ppa ctx data with
    | (some l, s) => (.poison l, s)
    | (none, s) => (.ok [], s)

/-- The POISON fault of a context that consumes a poisoned line (R371): detail 1 HBM, 2 DDR5. -/
def State.poisonFault (s : State) (ctx gal eng : Nat) (l : Loc) : State :=
  if ctx = 0 then s else s.ctxFault ctx cfPOISON (if l.chan < 256 then 1 else 2) gal eng l.line

/-- The result of an atomic on an old value of w bytes (R341, R170). -/
def atomicNew (op : AtomicOp) (old operand : Nat) : Nat :=
  match op with
  | .add32 => (old + operand) % 2 ^ 32
  | .add64 => (old + operand) % 2 ^ 64
  | .swp32 => operand % 2 ^ 32
  | .swp64 => operand % 2 ^ 64

/-- Bytes an atomic works on. -/
def atomicSize : AtomicOp → Nat
  | .add32 | .swp32 => 4
  | .add64 | .swp64 => 8

/-- An atomic at a memory controller: the old value, read, changed and written as one (R194, R201). -/
def State.memAtomic (s : State) (p ppa ctx : Nat) (op : AtomicOp) (operand : Nat) : MemRes × State :=
  match s.ownerCheck p ppa (atomicSize op) ctx true with
  | (some i, s) => (.refused, s.ownerRefuse p i ctx true)
  | (none, s) =>
    match s.readLines p ppa (atomicSize op) ctx with
    | (some l, s) => (.poison l, s)
    | (none, s) =>
      let old := s.pmemRd p ppa (atomicSize op)
      (.ok old, s.pmemWr p ppa (natLe (atomicSize op) (atomicNew op (leNat old) operand)))

end Sys2Proof.Machine
end

