-- ==== Sys2Proof/Machine/Pool.lean ====
section
/-! DEFINITION. Pool accesses: the address map (R165), geode and busy banks (R175, R179), the bank code (R171, R172),
ownership (R177), the pager region (R180), the semaphore region (R104) and arbitration losses (R107, R166 to R168). -/

namespace Sys2Proof.Machine

/-- Pool size. -/
def poolSize : Nat := 0x2000000

/-- The first offset of the geode window (R165). -/
def geodeBase : Nat := 0x1E00000

/-- Bank of a pool offset (R165). -/
def State.bankOf (s : State) (g off : Nat) : Nat :=
  if s.flag .GAL_POOL_CFG_geode g then
    if geodeBase ≤ off then 60 + bits off 20 19 else off / 128 % 60
  else off / 128 % 64

/-- Row of a pool offset (R165). -/
def State.rowOf (s : State) (g off : Nat) : Nat :=
  if s.flag .GAL_POOL_CFG_geode g then
    if geodeBase ≤ off then bits off 18 7 else off / 128 / 60
  else off / 128 / 64

/-- Banks of a range. -/
def State.banksOf (s : State) (g off len : Nat) : List Nat :=
  ((pagesOf off len 128).map (fun l => s.bankOf g (l * 128))).eraseDups

/-- Whether a bank returns zeros and discards writes: a geode bank during a wipe, a bank being cleared (R175, R179). -/
def State.bankDead (s : State) (g bank : Nat) : Bool :=
  (s.flag .GAL_POOL_CFG_geode g && s.flag .GAL_POOL_CFG_wipe g && decide (60 ≤ bank))
    || s.flag .GAL_BANK_OWNER_busy (64 * g + bank)

/-- Key of a codeword's error entry. -/
def State.cwKey (s : State) (g off : Nat) : Nat :=
  g * 2 ^ 20 + (s.rowOf g off * 64 + s.bankOf g off) * 4 + off % 128 / 32

/-- A corrected codeword (R172): counted, GAL_POOL_CE_LAST loaded, interrupt at the threshold. -/
def State.poolCE (s : State) (g off : Nat) : State :=
  let b := s.bankOf g off
  let r := s.rowOf g off
  let same := s.rd .GAL_POOL_CE_LAST_bank g == b && s.rd .GAL_POOL_CE_LAST_row g == r
    && s.rd .GAL_POOL_CE_LAST_rep g != 0
  let rep := if same then min (s.rd .GAL_POOL_CE_LAST_rep g + 1) 4095 else 1
  let s := s.count .GAL_POOL_CE_count .GAL_POOL_CE_ovf g 1
  let s := (((s.wr .GAL_POOL_CE_LAST_bank g b).wr .GAL_POOL_CE_LAST_row g r).wr .GAL_POOL_CE_LAST_cw g
    (off % 128 / 32)).wr .GAL_POOL_CE_LAST_rep g rep
  if rep = s.rd .GAL_POOL_CE_CTRL_thr g ∧ s.flag .GAL_POOL_CE_CTRL_ie g then s.galIrq g else s

/-- Record the first uncorrectable codeword of a pool (R172). -/
def State.poolUE (s : State) (g off rank ctx : Nat) : State :=
  if s.flag .GAL_POOL_UE_valid g then s
  else
    ((((((s.wr .GAL_POOL_UE_bank g (s.bankOf g off)).wr .GAL_POOL_UE_row g (s.rowOf g off)).wr .GAL_POOL_UE_cw g
      (off % 128 / 32)).wr .GAL_POOL_UE_rank g rank).wr .GAL_POOL_UE_ctx g ctx).wr .GAL_POOL_UE_valid g 1)

/-- The info of a pool POISON fault: the codeword as GAL_POOL_UE records it (R371). -/
def State.cwInfo (s : State) (g off : Nat) : Nat :=
  s.bankOf g off + s.rowOf g off * 2 ^ 6 + off % 128 / 32 * 2 ^ 18

/-- Read the code of one codeword: whether data is delivered (R172). -/
def State.readCw (s : State) (g off rank ctx : Nat) : Bool × State :=
  let k := s.cwKey g off
  let n := s.poolErr.get 0 k
  if n = 0 then (true, s)
  else if n ≤ 2 then (true, { s with poolErr := s.poolErr.set 0 k 0 }.poolCE g off)
  else (false, { s with poolErr := s.poolErr.set 0 k 255 }.poolUE g off rank ctx)

/-- How a pool access ends. -/
inductive PoolRes where
  | ok (data : List Byte)
  /-- An uncorrectable codeword at an offset. -/
  | ue (off : Nat)
  deriving DecidableEq, Repr

/-- Read pool bytes through the bank code; dead banks give zeros. -/
def State.poolRead (s : State) (g off len rank ctx : Nat) : PoolRes × State :=
  if !s.poolErr.isEmpty || s.flag .GAL_POOL_CFG_wipe g || (s.banksOf g off len).any (s.bankDead g) then
    (pagesOf off len 32).foldl (fun (r, s) cw =>
      match r with
      | .ue o => (.ue o, s)
      | .ok d =>
        let lo := max off (cw * 32)
        let n := min (off + len) (cw * 32 + 32) - lo
        if s.bankDead g (s.bankOf g lo) then (.ok (d ++ List.replicate n 0#8), s)
        else
          match s.readCw g lo rank ctx with
          | (true, s) => (.ok (d ++ s.poolRd g lo n), s)
          | (false, s) => (.ue lo, s)) (.ok [], s)
  else (.ok (s.poolRd g off len), s)

/-- Write pool bytes through the bank code: a whole codeword clears its error, a part of a poisoned codeword is discarded
and reported again (R170, R172). -/
def State.poolWrite (s : State) (g off rank ctx : Nat) (data : List Byte) : PoolRes × State :=
  let len := data.length
  if !s.poolErr.isEmpty || s.flag .GAL_POOL_CFG_wipe g || (s.banksOf g off len).any (s.bankDead g) then
    (pagesOf off len 32).foldl (fun (r, s) cw =>
      let lo := max off (cw * 32)
      let n := min (off + len) (cw * 32 + 32) - lo
      let b := (data.drop (lo - off)).take n
      if s.bankDead g (s.bankOf g lo) then (r, s)
      else if n = 32 then (r, { s with poolErr := s.poolErr.set 0 (s.cwKey g lo) 0 }.poolWr g lo b)
      else
        match s.readCw g lo rank ctx with
        | (true, s) => (r, s.poolWr g lo b)
        | (false, s) => (match r with
          | .ok _ => .ue lo
          | r => r, s)) (.ok [], s)
  else (.ok [], s.poolWr g off data)

-- Regions and ownership -----------------------------------------------------------------------------------------------

/-- Whether two ranges overlap. -/
def overlap (a n b m : Nat) : Bool := decide (a < b + m) && decide (b < a + n)

/-- The pager region of a gallery: base and size; disabled when it holds more than 128 pages (R180). -/
def State.pagerRegion (s : State) (g : Nat) : Nat × Nat :=
  if s.flag .GAL_POOL_CFG_pcfg_err g then (0, 0)
  else (s.rd .GAL_POOL_PAGER_base g * 65536, s.rd .GAL_POOL_PAGER_pages g * 65536)

/-- Whether a range reaches the pager region. -/
def State.inPager (s : State) (g off len : Nat) : Bool :=
  let (b, n) := s.pagerRegion g
  n != 0 && overlap off len b n

/-- Whether a range reaches the semaphore region. -/
def State.inSems (s : State) (g off len : Nat) : Bool := overlap off len (s.semOff g 0) 0x80000

/-- Banks of a range that another context owns, or that are being cleared: every checked access violates (R177, R179).
Registers of geode banks read zero, so they own nothing. -/
def State.bankViols (s : State) (g off len ctx : Nat) : List Nat :=
  (s.banksOf g off len).filter (fun b =>
    let k := 64 * g + b
    !(s.flag .GAL_POOL_CFG_geode g && decide (60 ≤ b)) &&
      (s.flag .GAL_BANK_OWNER_busy k
        || (s.flag .GAL_BANK_OWNER_valid k && s.rd .GAL_BANK_OWNER_ctx k != ctx)))

/-- Set viol of the banks violated. -/
def State.setViols (s : State) (g : Nat) (bs : List Nat) : State :=
  bs.foldl (fun s b => s.wr .GAL_BANK_OWNER_viol (64 * g + b) 1) s

/-- The task's pool window. -/
def State.winBase (s : State) (g : Nat) : Nat := s.rd .GAL_TASK_WIN_base g
def State.winLimit (s : State) (g : Nat) : Nat := s.rd .GAL_TASK_WIN_limit g

/-- Whether a range lies inside a window [base, limit). -/
def inWindow (off len base limit : Nat) : Bool := decide (base ≤ off) && decide (off + len ≤ limit)

-- Arbitration ---------------------------------------------------------------------------------------------------------

/-- Whether a promoted request outranks a sequencer data access (ranks 2 and 3 of R166). -/
def poolReqOutranks : PoolReq → Bool
  | .fetch | .engine _ | .farMove | .pager => true
  | .echo | .scrub => false

/-- A sequencer data access to a set of banks arbitrates (R107): a promoted request on one of them wins and is granted,
and the array feed may win while an array operation runs; the loss stalls the gallery one cycle and is counted. -/
def State.arbitrate (s : State) (g : Nat) (banks : List Nat) : State :=
  let x := s.gal g
  let hits := x.promoted.filter (fun (r, b) => poolReqOutranks r && banks.contains b)
  let feeding := !x.aops.isEmpty || x.aldb.isSome || !x.adrns.isEmpty
  if !hits.isEmpty then
    let s := s.modGal g (fun x => { x with promoted := x.promoted.filter (fun e => !hits.contains e), used := x.used + 1 })
    let s := s.count .GAL_POOL_LOSS_count .GAL_POOL_LOSS_ovf g hits.length
    s.galCount .GAL_SEQ_STALL_count .GAL_SEQ_STALL_ovf .GAL_SEQ_CTRL_ovf_ie g 1
  else if feeding then
    if Config.feedWins s.tick then
      let s := s.ticked.modGal g (fun x => { x with used := x.used + 1 })
      let s := s.count .GAL_POOL_LOSS_count .GAL_POOL_LOSS_ovf g 1
      s.galCount .GAL_SEQ_STALL_count .GAL_SEQ_STALL_ovf .GAL_SEQ_CTRL_ovf_ie g 1
    else s.ticked
  else s

end Sys2Proof.Machine
end

