-- ==== Sys2Proof/Machine/Gallery.lean ====
section
/-! DEFINITION. The issue of bundles: pending results, traps, frozen cycles, program flow, marks and pre-emption (R81, R82,
R86, R87, R90 to R92, R110 to R116). The effects of the slots are in Scalar, Vector, ArrayOps, MemSlot and EngSlot. -/

namespace Sys2Proof.Machine

-- Trap codes (R116) ---------------------------------------------------------------------------------------------------

def tILLEGAL : Nat := 0x01
def tPOOL_BOUNDS : Nat := 0x02
def tALIGN : Nat := 0x03
def tXLATE : Nat := 0x04
def tWINDOW : Nat := 0x05
def tLOOP_STACK : Nat := 0x06
def tCALL_STACK : Nat := 0x07
def tYIELD_SPACING : Nat := 0x08
def tYIELD_STATE : Nat := 0x09
def tPROGRAM : Nat := 0x0A
def tENGINE : Nat := 0x0B
def tMOVE_LEN : Nat := 0x0C
def tSIGNAL : Nat := 0x0D
def tARRAY : Nat := 0x10

/-- Slot numbers of GAL_SEQ_TRAP.slot; 7 is no slot. -/
def slotNo : Slot → Nat
  | .s0 => 0
  | .s1 => 1
  | .v => 2
  | .a => 3
  | .m => 4
  | .e => 5

def sslotNo : SSlot → Nat
  | .s0 => 0
  | .s1 => 1

-- Registers of a gallery ----------------------------------------------------------------------------------------------

def State.sreg (s : State) (g n : Nat) : Word := (s.gal g).s.get 0 n
def State.areg (s : State) (g n : Nat) : Addr := (s.gal g).a.get 0 n
/-- p0 reads 1 (R83). -/
def State.preg (s : State) (g n : Nat) : Bool := n == 0 || (s.gal g).p.get false n
def State.vreg (s : State) (g n c : Nat) : VWord := (s.gal g).v.get 0 (4 * n + c)

/-- Whether a slot's predicate holds (R86). -/
def State.predTrue (s : State) (g : Nat) (p : Pred) : Bool := s.preg g p.p.val != p.neg

/-- Write the byte quarter q of a vector word. -/
def setQuarter (w : VWord) (q : Nat) (x : BitVec 1024) : VWord :=
  (w &&& ~~~((BitVec.allOnes 1024).setWidth 4096 <<< (1024 * q))) ||| (x.setWidth 4096 <<< (1024 * q))

/-- Write a result to its register; writes to p0 are ignored (R83). -/
def Gal.write (x : Gal) : Result → Gal
  | .s d v => { x with s := x.s.set 0 d v }
  | .a d v => { x with a := x.a.set 0 d v }
  | .p d b => if d = 0 then x else { x with p := x.p.set false d b }
  | .v d c0 c1 c2 c3 => { x with v := x.v.setMany 0 (4 * d) [c0, c1, c2, c3] }
  | .vq d q c0 c1 c2 c3 =>
    let ws := [(0, c0), (1, c1), (2, c2), (3, c3)].map (fun e => setQuarter (x.v.get 0 (4 * d + e.1)) q e.2)
    { x with v := x.v.setMany 0 (4 * d) ws }

/-- The register a result goes to, as one number. -/
def Result.target : Result → Nat
  | .s d _ => d
  | .a d _ => 64 + d
  | .p d _ => 128 + d
  | .v d _ _ _ _ => 256 + d
  | .vq d _ _ _ _ _ => 256 + d

/-- Put a pending result behind those of an earlier cycle or of a slot no higher. -/
def insertPend (r : Pending) : List Pending → List Pending
  | [] => [r]
  | q :: t => if r.due < q.due || (r.due == q.due && decide (r.slot < q.slot)) then r :: q :: t else q :: insertPend r t

/-- Deliver results in order (R82); two that reach one register in one local cycle collide (R87): the higher slot is
kept, wcol is set. seen lists the cycle, register and slot of the results delivered so far. -/
def State.deliverGo (s : State) (g : Nat) : List Pending → List (Nat × Nat × Nat) → State
  | [], _ => s
  | r :: t, seen =>
    let hit := seen.find? (fun e => e.1 == r.due && e.2.1 == r.res.target && r.res.target != 128)
    let s := s.orNumFlags g r.flags
    let s := match hit with
      | none => s.modGal g (fun x => x.write r.res)
      | some (_, _, sl) =>
        let s := s.wr .GAL_SEQ_STAT_wcol g 1
        let s := if s.flag .GAL_SEQ_CTRL_wcol_ie g then s.galIrq g else s
        if sl == r.slot then
          if Config.sameSlotKeepsLater s.tick then s.ticked.modGal g (fun x => x.write r.res) else s.ticked
        else s.modGal g (fun x => x.write r.res)
    s.deliverGo g t ((r.due, r.res.target, r.slot) :: seen)

/-- Deliver the results due up to a local cycle. -/
def State.deliverTo (s : State) (g now : Nat) : State :=
  let x := s.gal g
  if x.pend.isEmpty then s
  else
    let due := x.pend.filter (fun r => decide (r.due ≤ now))
    let s := s.modGal g (fun x => { x with pend := x.pend.filter (fun r => decide (now < r.due)) })
    s.deliverGo g (due.foldl (fun l r => insertPend r l) []) []

/-- Deliver the results due at the gallery's local cycle. -/
def State.deliver (s : State) (g : Nat) : State := s.deliverTo g (s.gal g).lcycle

/-- Let every result in flight arrive. -/
def State.deliverAll (s : State) (g : Nat) : State :=
  s.deliverTo g ((s.gal g).pend.foldl (fun m r => max m r.due) 0)

/-- Queue a result that bundles see lat local cycles after issue. -/
def State.pendRes (s : State) (g slot lat flags : Nat) (r : Result) : State :=
  s.modGal g (fun x => { x with pend := x.pend ++ [⟨x.lcycle + lat, slot, r, flags⟩] })

-- Outcomes of slots ---------------------------------------------------------------------------------------------------

/-- What a bundle does after it has issued. -/
inductive Mark where
  | yield
  | swait (sem val : Nat)
  | fin
  deriving DecidableEq, Repr

/-- How a slot ends. -/
inductive SlotRes where
  /-- It acts. -/
  | ok (s : State) (m : Option Mark)
  /-- It traps: code, info, and what the device records although the bundle does nothing. -/
  | trap (code info : Nat) (side : State → State)
  /-- It waits: the bundle does not issue in this cycle. -/
  | wait
  /-- It ends the task (an uncorrectable pool error, R172). -/
  | stop (s : State)

/-- A trap that records nothing beside itself. -/
def SlotRes.plain (code : Nat) : SlotRes := .trap code 0 id

/-- A slot of a bundle: its number, its predicate, whether its encoding is legal (R88), its effect. -/
structure SlotAct where
  n : Nat
  p : Pred
  legal : Bool
  act : State → SlotRes

/-- How a bundle ends. -/
inductive BundleRes where
  | ok (s : State) (m : Option Mark)
  | trap (slot code info : Nat) (s : State)
  | wait
  | stop (s : State)

/-- Run the slots in order over s; s0 is the state at issue. The first slot that traps decides (R116); an illegal
encoding traps whatever the predicate (R86). -/
def evalSlots (g : Nat) (s0 : State) : List SlotAct → State → Option Mark → BundleRes
  | [], s, m => .ok s m
  | a :: t, s, m =>
    if !a.legal then .trap a.n tILLEGAL 0 s0
    else if s0.predTrue g a.p then
      match a.act s with
      | .ok s' m' => evalSlots g s0 t s' (m'.or m)
      | .trap c i side => .trap a.n c i (side s0)
      | .wait => .wait
      | .stop s' => .stop s'
    else evalSlots g s0 t s m

-- Traps and frozen cycles ---------------------------------------------------------------------------------------------

/-- A gallery traps (R116): results of earlier bundles arrive, the first trap is recorded, the stop goes out. -/
def State.raiseTrap (s : State) (g slot code info pc : Nat) : State :=
  let s := s.deliverAll g
  let s := if s.flag .GAL_SEQ_TRAP_valid g then s
    else ((((s.wr .GAL_SEQ_TRAP_code g code).wr .GAL_SEQ_TRAP_slot g slot).wr .GAL_SEQ_TRAP_info g info).wr
      .GAL_SEQ_TRAP_valid g 1).wr .GAL_SEQ_TRAP_PC_pc g pc
  let s := s.wr .GAL_SEQ_STAT_state g 3
  let s := s.modGal g (fun x => { x with trapped := some (code, pc) })
  s.emit (.echo .trapStop g (s.rd .GAL_SPAN_head g) code)

/-- The context of the running task. -/
def State.taskCtx (s : State) (g : Nat) : Nat :=
  match (s.gal g).task with
  | some t => (s.sub t).ctx
  | none => 0

/-- The seed of the running task (R76). -/
def State.taskSeed (s : State) (g : Nat) : Nat :=
  match (s.gal g).task with
  | some t => (s.sub t).seed
  | none => 0

/-- An uncorrectable pool codeword stops the running task: a POISON fault of its context (R172, R371). -/
def State.poolFault (s : State) (g off : Nat) : State := s.ctxFault (s.taskCtx g) cfPOISON 0 g 0xFF (s.cwInfo g off)

/-- The mark under which the gallery's work is journalled (R381). -/
def State.markNo (s : State) (g : Nat) : Nat := (s.gal g).marks

/-- Whether a gallery runs a task now: it is loaded, started, not trapped, its partition not held frozen. -/
def State.running (s : State) (g : Nat) : Bool :=
  let x := s.gal g
  x.task.isSome && x.started && x.trapped.isNone && !s.heldGal g

/-- One wait cycle (R81): counted and accounted, the local cycle stands. -/
def State.waitCycle (s : State) (g : Nat) : State :=
  if s.running g then
    let s := s.galCount .GAL_SEQ_WAIT_count .GAL_SEQ_WAIT_ovf .GAL_SEQ_CTRL_ovf_ie g 1
    let s := s.wr .GAL_SEQ_STAT_state g 2
    s.modGal g (fun x => { x with used := x.used + 1 })
  else s

/-- Whether an A entry that must be consumed in the gallery's local cycle has not arrived (R52): entry k of an operation is
consumed 4 + k local cycles after issue. The head reads its own pool and never lacks one. -/
def State.holds (s : State) (g : Nat) : Bool :=
  let x := s.gal g
  s.rd .GAL_SPAN_pos g != 0 && x.aops.any (fun o => decide (o.got < min o.tk (x.lcycle - (o.t0 + 3))))

/-- n hold cycles (R52, R53). -/
def State.holdCycles (s : State) (g n : Nat) : State :=
  let s := s.galCount .GAL_ARRAY_HOLD_count .GAL_ARRAY_HOLD_ovf .GAL_ARRAY_CTRL_ovf_ie g n
  let s := (s.wr .GAL_ARRAY_STAT_hold g 1).wr .GAL_SEQ_STAT_state g 2
  s.modGal g (fun x => { x with used := x.used + n, holdRun := x.holdRun + n })

/-- Count one issue cycle. -/
def State.issueCycle (s : State) (g : Nat) : State :=
  let s := s.galCount .GAL_SEQ_ISSUE_count .GAL_SEQ_ISSUE_ovf .GAL_SEQ_CTRL_ovf_ie g 1
  let s := s.wr .GAL_SEQ_STAT_state g 1
  let s := s.wr .GAL_ARRAY_STAT_hold g 0
  s.modGal g (fun x => { x with lcycle := x.lcycle + 1, sinceMark := x.sinceMark + 1, used := x.used + 1, holdRun := 0 })

-- Program flow --------------------------------------------------------------------------------------------------------

/-- The loop stack and the next PC after the bundle at p (R92): the end of a body repeats it or leaves it. -/
def loopNext : List LoopFrame → Nat → List LoopFrame × Nat
  | [], p => ([], p + 32)
  | f :: fs, p =>
    if p = f.last then
      if 1 < f.left then ({ f with left := f.left - 1, looped := true } :: fs, f.first) else loopNext fs p
    else (f :: fs, p + 32)

/-- Move to the next bundle: through the delay bundles of a taken branch (R90), or by the loop stack. -/
def Gal.flow (x : Gal) : Gal :=
  match x.delay with
  | some (t, n) =>
    if n ≤ 1 then { x with pc := t, delay := none } else { x with pc := x.pc + 32, delay := some (t, n - 1) }
  | none =>
    let (l, p) := loopNext x.loops x.pc
    { x with loops := l, pc := p, loopBuf := if l.isEmpty then [] else x.loopBuf }

/-- Close the issue of the bundle at pc. -/
def State.advance (s : State) (g pc : Nat) : State :=
  let s := s.wr .GAL_SEQ_PC_pc g pc
  let s := s.issueCycle g
  let s := s.modGal g Gal.flow
  let s := s.wr .GAL_SEQ_STAT_loops g (s.gal g).loops.length
  s.wr .GAL_SEQ_STAT_calls g (s.gal g).rets.length

-- Pre-emption ---------------------------------------------------------------------------------------------------------

/-- The state R112 lists. -/
def Gal.save (x : Gal) (flags : Nat) (sw : Option (Nat × Nat)) : Saved :=
  { s := x.s, a := x.a, p := x.p, pc := x.pc, loops := x.loops, rets := x.rets, marks := x.marks, lcycle := x.lcycle,
    flags := flags, atSwait := sw }

/-- The program slot a submission runs. -/
def State.progOf (s : State) (t : Nat) : Prog := s.prog ((s.sub t).prt * 256 + (s.sub t).prog % 256)

/-- The cells of a pool range, relative to its start. -/
def State.poolCells (s : State) (g off len : Nat) : List Host.Cell :=
  (s.pool.filter (fun c => decide (poolKey g off ≤ c.1) && decide (c.1 < poolKey g (off + len)))).map
    (fun c => (c.1 - poolKey g off, c.2))

/-- Store cells into a pool range, the rest of which becomes zero. -/
def State.putCells (s : State) (g off len : Nat) (l : List Host.Cell) : State :=
  l.foldl (fun s c => s.poolWr g (off + c.1) [c.2]) (s.poolZero g off len)

/-- Give up the galleries that a suspended task reserves. -/
def State.unreserve (s : State) (t : Nat) : State :=
  (s.sub t).gals.foldl (fun s g => (s.wr .GAL_DISP_STAT_susp g 0).wr .GAL_DISP_STAT_sctx g 0) s

/-- Park a yielded task (R242): its window on every gallery of its span is copied to the park range, and it goes back to
the head of its queue. -/
def State.parkTask (s : State) (t : Nat) : State :=
  let u := s.sub t
  let pr := s.progOf t
  let mem := u.gals.zipIdx.map (fun (g, k) => (k, s.poolCells g pr.base pr.size))
  let s := s.unreserve t
  let s := s.wr .PRT_STAT_parked u.prt 1
  let s := s.modSub t (fun u => { u with stage := .parked, parkedMem := mem, gals := [], yielded := [] })
  { s with svy := { s.svy with parkedNow := s.svy.parkedNow ++ [t] } }

/-- When every gallery of a span has yielded: a submission whose fallback took its place is cancelled (R316), a task on a
leaving gallery is parked once its engine commands are complete (R242), any other is suspended (R309). -/
def State.afterYield (s : State) (t : Nat) : State :=
  let u := s.sub t
  if u.gals.all (fun g => u.yielded.contains g) then
    if u.replacedBy.isSome then
      (s.unreserve t).modSub t (fun u => { u with stage := .replaced, saved := [], gals := [], yielded := [] })
    else
      let s := s.modSub t (fun u => { u with stage := .suspended })
      if u.gals.any (fun g => s.svy.leaving.contains g) && u.posted == 0 then s.parkTask t else s
  else s

/-- A gallery yields at a mark (R112): its state is saved, the save area is written, the gallery goes to the dispatcher. -/
def State.yieldGal (s : State) (g : Nat) (sw : Option (Nat × Nat)) : State :=
  let s := s.deliverAll g
  let x := s.gal g
  match x.task with
  | none => s
  | some t =>
    let sv := x.save (s.numFlags g) sw
    let pos := s.rd .GAL_SPAN_pos g
    let tick := s.tick
    let s := (s.poolWr g (s.progOf t).save ((List.range 1024).map (Config.saveByte tick))).ticked
    let s := s.account t x.used
    let s := (s.setNumFlags g 0).releaseGal g
    let s := (s.wr .GAL_DISP_STAT_susp g 1).wr .GAL_DISP_STAT_sctx g (s.sub t).ctx
    let s := s.count .GAL_DISP_PRE_count .GAL_DISP_PRE_ovf g 1
    let s := s.modSub t (fun u => { u with saved := (pos, sv) :: u.saved.filter (fun e => e.1 != pos),
                                           yielded := u.yielded ++ [g] })
    s.afterYield t

-- Marks ---------------------------------------------------------------------------------------------------------------

/-- Whether no array operation is between issue and completion. -/
def Gal.arrayIdle (x : Gal) : Bool := x.aops.isEmpty && x.aldb.isNone && x.adrns.isEmpty && x.aclrs.isEmpty

/-- Whether a mark may be issued (R110): no kept sums, no array operation, no far move, no result in flight. -/
def State.markOk (s : State) (g : Nat) : Bool :=
  let x := s.gal g
  s.rd .GAL_ARRAY_STAT_bands g == 0 && x.arrayIdle && x.fars.isEmpty && x.pend.isEmpty

/-- The gallery after g in its span. -/
def State.spanNext (s : State) (g : Nat) : Option Nat :=
  match (s.gal g).task with
  | none => none
  | some t =>
    let pos := s.rd .GAL_SPAN_pos g
    if pos + 1 < s.rd .GAL_SPAN_len g then (s.sub t).gals[pos + 1]? else none

/-- Send the head's decision on down the chain (R113). -/
def State.sendDecision (s : State) (g : Nat) (yes : Bool) : State :=
  match s.spanNext g with
  | some n => s.emit (.echo (if yes then .decisionYield else .decisionContinue) g n (s.gal g).marks)
  | none => s

/-- Whether the gallery decides for its span: a span of one, or the head. -/
def State.isHead (s : State) (g : Nat) : Bool := s.rd .GAL_SPAN_pos g == 0

/-- Apply a decision at a mark that is a YIELD. -/
def State.decideYield (s : State) (g : Nat) (yes : Bool) : State :=
  let s := s.sendDecision g yes
  if yes then s.yieldGal g none else s.modGal g (fun x => { x with wait := .none })

/-- Let an SWAIT end when its condition holds and, away from the head, a continue decision has come (R105, R113). -/
def State.trySwait (s : State) (g sem val : Nat) (go : Bool) : State :=
  if s.isHead g then
    if s.flag .GAL_SEQ_STAT_yreq g then (s.sendDecision g true).yieldGal g (some (sem, val))
    else if val ≤ s.sem g sem then (s.sendDecision g false).modGal g (fun x => { x with wait := .none })
    else s.modGal g (fun x => { x with wait := .swait sem val true })
  else if go && decide (val ≤ s.sem g sem) then s.modGal g (fun x => { x with wait := .none })
  else s.modGal g (fun x => { x with wait := .swait sem val go })

/-- The last mark that every gallery of a task's span has written to its shadow (R380); 0 before the first. -/
def State.completeMark (s : State) (t : Nat) : Nat :=
  match (s.sub t).gals.map (fun g => if (s.gal g).task == some t then (s.gal g).marks else 0) with
  | [] => 0
  | m :: l => l.foldl min m

/-- Discard the journal entries of marks older than the last complete mark (R381). -/
def State.trimJournal (s : State) (t was : Nat) : State :=
  let m := s.completeMark t
  if m ≤ was then s
  else s.each (s.sub t).gals (fun s g => s.modGal g (fun x =>
    { x with journal := x.journal.filter (fun e => decide (m ≤ e.2.2)), journalFull := false }))

/-- A mark is passed (R110 to R113, R43, R380, R381): the count advances, the B buffer empties, the mark shadow is written,
the journals drop what replay can no longer need. -/
def State.passMark (s : State) (g : Nat) (sw : Option (Nat × Nat)) : State :=
  let t := ((s.gal g).task).getD 0
  let was := s.completeMark t
  let s := s.modGal g (fun x => { x with marks := x.marks + 1, sinceMark := 0, half0 := .empty, half1 := .empty,
                                         lastShape := none })
  let s := (s.wr .GAL_ARRAY_STAT_bfull0 g 0).wr .GAL_ARRAY_STAT_bfull1 g 0
  let d := s.deliverAll g
  let sv := (d.gal g).save (d.numFlags g) sw
  (s.modGal g (fun x => { x with shadow := (sv :: x.shadow).take 2 })).trimJournal t was

/-- A YIELD has issued: the head decides; another gallery uses a decision that has come, or waits for it. -/
def State.markYield (s : State) (g : Nat) : State :=
  let s := s.passMark g none
  if s.isHead g then s.decideYield g (s.flag .GAL_SEQ_STAT_yreq g)
  else match (s.gal g).decisions with
    | d :: ds => (s.modGal g (fun x => { x with decisions := ds })).decideYield g d
    | [] => s.modGal g (fun x => { x with wait := .decision })

/-- An SWAIT has issued. -/
def State.markSwait (s : State) (g sem val : Nat) : State :=
  let s := s.passMark g (some (sem, val))
  if s.isHead g then s.trySwait g sem val true
  else match (s.gal g).decisions with
    | d :: ds =>
      let s := (s.modGal g (fun x => { x with decisions := ds })).sendDecision g d
      if d then s.yieldGal g (some (sem, val)) else s.trySwait g sem val true
    | [] => s.trySwait g sem val false

/-- After END, wait for the far moves once no array operation is left (R115). -/
def State.endWait (s : State) (g : Nat) : State :=
  s.modGal g (fun x => if x.ended && x.arrayIdle && !x.fars.isEmpty then { x with wait := .drain } else x)

/-- END has issued (R115): no further bundle issues; far moves are waited for once the array is done. -/
def State.markEnd (s : State) (g : Nat) : State :=
  (s.modGal g (fun x => { x with ended := true })).endWait g

/-- What follows the issue of a bundle with a mark or END. -/
def State.afterIssue (s : State) (g : Nat) : Option Mark → State
  | none => s
  | some .yield => s.markYield g
  | some (.swait sem val) => s.markSwait g sem val
  | some .fin => s.markEnd g

-- Issue ---------------------------------------------------------------------------------------------------------------

/-- One NOP bundle of an empty loop (R92). -/
def State.nopCycle (s : State) (g : Nat) : State :=
  (((s.deliver g).issueCycle g).modGal g (fun x => { x with nops := x.nops - 1 }))

/-- Issue the bundle that is due, with the given slots. The gallery first issues the NOP bundles that an empty loop owes;
with single set it stops after one bundle (GAL_SEQ_CTRL.step). -/
def State.issueBundle (s : State) (g : Nat) (single : Bool) (slots : State → List SlotAct) : State :=
  let x := s.gal g
  if x.ended then s
  else if !s.running g || x.wait != .none || !(s.flag .GAL_SEQ_CTRL_run g || single) then s.waitCycle g
  else if s.holds g then s.holdCycles g 1
  else if single && x.nops != 0 then s.nopCycle g
  else
    let s := ((List.range x.nops).foldl (fun s _ => s.nopCycle g) s).deliver g
    let pc := (s.gal g).pc
    if 1024 ≤ (s.gal g).sinceMark then s.raiseTrap g 7 tYIELD_SPACING 0 pc
    else if !inWindow pc 32 (s.winBase g) (s.winLimit g) then s.raiseTrap g 7 tPOOL_BOUNDS 0 pc
    else match evalSlots g s (slots s) s none with
      | .trap n c i s => s.raiseTrap g n c i pc
      | .wait => s.waitCycle g
      | .stop s => s
      | .ok s m => (s.advance g pc).afterIssue g m

/-- Issue a bundle with one slot in use. -/
def State.issueOne (s : State) (g : Nat) (a : SlotAct) : State := s.issueBundle g false (fun _ => [a])

end Sys2Proof.Machine
end

