-- ==== Sys2Proof/Machine/Array.lean ====
section
/-! DEFINITION. The spanning array: descriptors and their checks (R36 to R43), the arithmetic of a cell (R59 to R64), and
the sums of a gallery's column groups (R27, R28). The commands of slot A are in Machine/ArrayOps.lean. -/

namespace Sys2Proof.Machine

-- Descriptors ---------------------------------------------------------------------------------------------------------

/-- The fields of a 64-byte descriptor (R36). -/
def parseDesc (b : List Byte) : Desc :=
  let fl := fieldAt b 3 1
  { kind := fieldAt b 0 1, fmtA := fieldAt b 1 1, fmtB := fieldAt b 2 1, init := fl % 4, drain := bit fl 2,
    bsrc := bit fl 3, flagsRsv := fl / 16, mActive := fieldAt b 4 1, bHalf := fieldAt b 5 1, nGroups := fieldAt b 6 2,
    kLen := fieldAt b 8 4, kBase := fieldAt b 12 4, aAddr := fieldAt b 16 4, aScale := fieldAt b 20 4,
    bAddr := fieldAt b 24 4, bScale := fieldAt b 28 4, bMeta := fieldAt b 32 4, cAddr := fieldAt b 36 4,
    sem := fieldAt b 40 2, rsvZero := allZero ((b.drop 42).take 22) }

/-- The fields that every gallery of a span must agree on (R36, R37). -/
def Desc.spanWide (d : Desc) : List Nat :=
  [d.kind, d.fmtA, d.mActive, d.nGroups, d.kLen, d.kBase, d.aAddr, d.aScale]

/-- Whether two formats may be multiplied (R39). -/
def pairOk (kind a b : Nat) : Bool :=
  (decide (a < 4) && decide (b < 4)) || (a == b && (a == 4 || a == 5 || (kind == 1 && (a == 6 || a == 7))))

/-- Element width in bits of an operand format code. -/
def codeBits (f : Nat) : Nat := ((Fmt.ofCode f).getD .e4m3).bits

/-- Whether a format takes block scales. -/
def scaled (f : Nat) : Bool := decide (f < 6)

/-- The scale pointer that names no region: every scale is 2^0. -/
def noScale : Nat := 0xFFFFFFFF

/-- Whether the kind is the 2:4-sparse product. -/
def Desc.sparse (d : Desc) : Bool := d.kind == 2

/-- Bytes of B values, of B scales, of metadata over the K range (R40, R41). -/
def Desc.bBytes (d : Desc) : Nat := 768 * (if d.sparse then d.kLen / 2 else d.kLen) * codeBits d.fmtB / 8
def Desc.bScaleBytes (d : Desc) : Nat := if scaled d.fmtB && d.bScale != noScale then 768 * (d.kLen / 32) else 0
def Desc.metaBytes (d : Desc) : Nat := if d.sparse then 768 * d.kLen / 8 else 0

/-- Bytes of A and of its scales. -/
def Desc.aBytes (d : Desc) : Nat := 128 * d.kLen * codeBits d.fmtA / 8
def Desc.aScaleBytes (d : Desc) : Nat := if scaled d.fmtA && d.aScale != noScale then 128 * (d.kLen / 32) else 0

/-- Bytes of an output tile (R40). -/
def tileBytes : Nat := 393216

/-- Whether an offset is 128-byte aligned and its region ends by the top of the pool (R37). -/
def regionOk (off len : Nat) : Bool := off % 128 == 0 && decide (off + len ≤ poolSize)

/-- Field checks that every gallery makes (R46). -/
def Desc.fieldsOk (d : Desc) (n : Nat) : Bool :=
  (d.kind == 1 || d.kind == 2) && decide (d.fmtA < 8) && decide (d.fmtB < 8) && decide (d.init < 3) && d.flagsRsv == 0
    && d.rsvZero && pairOk d.kind d.fmtA d.fmtB && decide (1 ≤ d.mActive) && decide (d.mActive ≤ 128)
    && decide (1 ≤ d.nGroups) && decide (d.nGroups ≤ 64 * n) && d.kLen % 32 == 0 && decide (32 ≤ d.kLen)
    && decide (d.kLen ≤ 65536) && d.kBase % 32 == 0

/-- The regions of B from the pool. -/
def Desc.bRegions (d : Desc) : List (Nat × Nat) :=
  [(d.bAddr, d.bBytes)] ++ (if d.bScaleBytes = 0 then [] else [(d.bScale, d.bScaleBytes)])
    ++ (if d.sparse then [(d.bMeta, d.metaBytes)] else [])

/-- The regions a gallery reads or writes for an AOP: A in the head only, B unless it comes from the buffer, the tile. -/
def Desc.regions (d : Desc) (head : Bool) : List (Nat × Nat) :=
  (if head then [(d.aAddr, d.aBytes)] ++ (if d.aScaleBytes = 0 then [] else [(d.aScale, d.aScaleBytes)]) else [])
    ++ (if d.bsrc then [] else d.bRegions)
    ++ (if d.init == 1 || d.drain then [(d.cAddr, tileBytes)] else [])

/-- Streaming cycles T_k: K steps over the K steps per cycle (R56). -/
def Desc.tk (d : Desc) : Nat :=
  let dense := if d.fmtB < 4 ∨ d.fmtB = 5 then d.kLen else if d.fmtB = 4 then d.kLen / 2 else 4 * d.kLen
  if d.sparse then dense / 2 else dense

/-- K steps a half of the B buffer holds (*B buffer capacity per half*). -/
def Desc.capacity (d : Desc) : Nat :=
  let dense := if d.fmtB = 2 ∨ d.fmtB = 3 then 672 else if d.fmtB = 4 then 1024 else if 6 ≤ d.fmtB then 256 else 512
  if d.sparse then 2 * dense else dense

/-- Active column groups of the gallery at position p (R36). -/
def Desc.groupsAt (d : Desc) (p : Nat) : Nat := min 64 (d.nGroups - 64 * p)

/-- Bands with a row below m. -/
def bandsBelow (m : Nat) : List Nat := (List.range 8).filter (fun b => decide (16 * b < m))

-- Arithmetic of a cell ------------------------------------------------------------------------------------------------

/-- A block so far: the exact sum in units of 2^lsb, special value (0 finite, 1 +∞, 2 −∞, 3 NaN), the FP32 outlier sum
and whether it has begun (R61, R62, R64). -/
structure Block where
  acc : Int
  lsb : Option Int
  spec : Nat
  outl : Nat
  outs : Bool
  deriving DecidableEq, Repr

/-- Merge an infinity into the special value. -/
def mergeInf (spec : Nat) (neg : Bool) : Nat :=
  let k := if neg then 2 else 1
  if spec = 0 then k else if spec = k then k else 3

/-- Add the finite product n·m × 2^e: exact at 2^-48 for MX formats; inside the window for BF16 (w = 16) and FP16 (w = 22),
else an outlier (R61, R64). -/
def Block.addProduct (b : Block) (w : Option Nat) (neg : Bool) (m : Nat) (e : Int) : Block :=
  match w with
  | none => { b with acc := b.acc + signedOf neg (m * 2 ^ (e + 48).toNat) }
  | some w =>
    if m = 0 then b
    else
      match b.lsb with
      | none =>
        let l := e + w - 48
        { b with lsb := some l, acc := signedOf neg (m * 2 ^ (e - l).toNat) }
      | some l =>
        if l ≤ e ∧ e + w ≤ l + 64 then { b with acc := b.acc + signedOf neg (m * 2 ^ (e - l).toNat) }
        else
          let p := (Fmt.fp32.roundFin .rne false neg m e false).bits
          { b with outl := (fpAdd .fp32 .rne (Fmt.fp32.decode b.outl) (Fmt.fp32.decode p)).bits, outs := true }

/-- Take the product of two elements; an omitted product is not examined (R62). -/
def Block.step (b : Block) (w : Option Nat) (x y : Val) : Block :=
  if x.isNan || y.isNan then { b with spec := 3 }
  else if x.isInf || y.isInf then
    if x.isZero || y.isZero then { b with spec := 3 } else { b with spec := mergeInf b.spec (x.neg != y.neg) }
  else match x, y with
    | .fin n1 m1 e1, .fin n2 m2 e2 => b.addProduct w (n1 != n2) (m1 * m2) (e1 + e2)
    | _, _ => b

/-- Fold a block into the running sum (R63, R64): sa and sb are the scales. The new sum, FP32. -/
def Block.fold (b : Block) (w : Option Nat) (sa sb run : Nat) : Nat :=
  let add := fun (r v : Nat) => (fpAdd .fp32 .rne (Fmt.fp32.decode r) (Fmt.fp32.decode v)).bits
  if b.spec = 3 ∨ (w = none ∧ (sa = 255 ∨ sb = 255)) then Fmt.fp32.canon
  else if b.spec = 1 then add run (Fmt.fp32.infBits false)
  else if b.spec = 2 then add run (Fmt.fp32.infBits true)
  else
    let e : Int := match w with
      | none => -48 + ((sa : Int) - 127) + ((sb : Int) - 127)
      | some _ => b.lsb.getD 0
    let r := add run (Fmt.fp32.roundInt .rne b.acc e false).bits
    if b.outs then add r b.outl else r

/-- The window width of R64 for an operand format code; none for MX formats. -/
def windowOf (fmt : Nat) : Option Nat := if fmt = 6 then some 16 else if fmt = 7 then some 22 else none

-- Operands of one operation -------------------------------------------------------------------------------------------

/-- Bits [off + w - 1 : off] of a byte source. -/
def bitsOf (rd : Nat → Byte) (base off w : Nat) : Nat :=
  let a := base + off / 8
  ((rd a).toNat + 256 * (rd (a + 1)).toNat + 65536 * (rd (a + 2)).toNat) >>> (off % 8) % 2 ^ w

/-- A byte of a list, 0 beyond its end. -/
def byteAt (l : List Byte) (k : Nat) : Byte := l.getD k 0#8

/-- Where an operation's operands come from. -/
structure Source where
  d : Desc
  /-- A and its scales, from the first byte of their regions. -/
  a : Nat → Byte
  aS : Nat → Byte
  /-- B values, scales and metadata, likewise. -/
  b : Nat → Byte
  bS : Nat → Byte
  mt : Nat → Byte

/-- A element (k, i). -/
def Source.aElem (x : Source) (k i : Nat) : Val :=
  let f := (Fmt.ofCode x.d.fmtA).getD .e4m3
  f.decode (bitsOf x.a 0 ((128 * k + i) * f.bits) f.bits)

/-- A metadata entry of group q, column j (R41). -/
def Source.metaEntry (x : Source) (q j : Nat) : Nat := bitsOf x.mt 0 ((768 * q + j) * 4) 4

/-- Whether a metadata entry is bad (R42). -/
def metaBad (e : Nat) : Bool := decide (e / 4 ≤ e % 4)

/-- B element (k, j); none where 2:4 metadata omits the product (R41, R42, R62). -/
def Source.bElem (x : Source) (k j : Nat) : Option Val :=
  let f := (Fmt.ofCode x.d.fmtB).getD .e4m3
  if x.d.sparse then
    let q := k / 4
    let e := x.metaEntry q j
    if metaBad e then none
    else
      let t := if e % 4 = k % 4 then some 0 else if e / 4 = k % 4 then some 1 else none
      t.map (fun t => f.decode (bitsOf x.b 0 (((2 * q + t) * 768 + j) * f.bits) f.bits))
  else some (f.decode (bitsOf x.b 0 ((768 * k + j) * f.bits) f.bits))

/-- Scales of a block for a row or a column; 2^0 where the pointer names none. -/
def Source.sa (x : Source) (blk i : Nat) : Nat :=
  if scaled x.d.fmtA && x.d.aScale != noScale then (x.aS (128 * blk + i)).toNat else 127
def Source.sb (x : Source) (blk j : Nat) : Nat :=
  if scaled x.d.fmtB && x.d.bScale != noScale then (x.bS (768 * blk + j)).toNat else 127

/-- One block of cell (i, j). -/
def Source.block (x : Source) (blk i j : Nat) : Block :=
  (List.range 32).foldl (fun b k =>
    let k := 32 * blk + k
    match x.bElem k j with
    | none => b
    | some y => b.step (windowOf x.d.fmtA) (x.aElem k i) y) ⟨0, none, 0, 0, false⟩

/-- The running sum of cell (i, j) after the operation (*The canonical order*), and the numeric flags of the sums it wrote
(R80). -/
def Source.cell (x : Source) (run i j : Nat) : Nat × Nat :=
  (List.range (x.d.kLen / 32)).foldl (fun (r, fl) blk =>
    let v := (x.block blk i j).fold (windowOf x.d.fmtA) (x.sa blk i) (x.sb blk j) r
    let y := Fmt.fp32.decode v
    (v, fl ||| (if y.isNan then fARRNAN else if y.isInf then fARRINF else 0))) (run, 0)

-- Sums and tiles ------------------------------------------------------------------------------------------------------

/-- Offset of output element (i, j) in a tile (R40). -/
def tileOff (i j : Nat) : Nat :=
  let c := j / 192
  let gr := j % 192 / 12
  let u := j % 12
  (((4 * gr + i / 32) * 4 + c) * 32 + i % 32) * 48 + 4 * u

/-- The cells of the first n column groups and m rows: row and column (R27, R36). -/
def cellsOf (m n : Nat) : List (Nat × Nat) :=
  (List.range m).flatMap (fun i => (List.range (12 * n)).map (fun j => (i, j)))

/-- Key of a running sum. -/
def sumKey (i j : Nat) : Nat := i * 768 + j

/-- Set GAL_ARRAY_STAT.bands bits. -/
def State.setBands (s : State) (g mask : Nat) : State :=
  s.wr .GAL_ARRAY_STAT_bands g (s.rd .GAL_ARRAY_STAT_bands g ||| mask)

/-- Clear bands: their kept sums are gone. -/
def State.clearBands (s : State) (g mask : Nat) : State :=
  let s := s.wr .GAL_ARRAY_STAT_bands g (s.rd .GAL_ARRAY_STAT_bands g &&& (255 - mask % 256))
  s.modGal g (fun x => { x with sums := x.sums.filter (fun e => !mask.testBit (e.1 / 768 / 16)) })

/-- Drain cells to a tile: the rows of the masked bands below m, the first n column groups (R40, R474). -/
def State.drainTo (s : State) (g off mask m n rank ctx : Nat) : State :=
  (cellsOf m n).foldl (fun s (i, j) =>
    if mask.testBit (i / 16) then
      (s.poolWrite g (off + tileOff i j) rank ctx (natLe 4 ((s.gal g).sums.get 0 (sumKey i j)))).2
    else s) s

/-- Record an array fault (R46): f is its bit of GAL_ARRAY_FAULT, addr the offset of the first fault since all bits were
zero. -/
def State.arrayFault (s : State) (f : Fld) (g addr : Nat) : State :=
  let none_ := !(s.flag .GAL_ARRAY_FAULT_desc g || s.flag .GAL_ARRAY_FAULT_seq g || s.flag .GAL_ARRAY_FAULT_mismatch g
    || s.flag .GAL_ARRAY_FAULT_meta g || s.flag .GAL_ARRAY_FAULT_hold g)
  let s := if none_ then s.wr .GAL_ARRAY_FAULT_addr g addr else s
  s.wr f g 1

/-- Show which array work is between issue and completion in GAL_ARRAY_STAT (R57). -/
def State.arrayStat (s : State) (g : Nat) : State :=
  let x := s.gal g
  let s := s.wr .GAL_ARRAY_STAT_op g (b2n (!x.aops.isEmpty))
  let s := s.wr .GAL_ARRAY_STAT_bload g (b2n x.aldb.isSome)
  let s := s.wr .GAL_ARRAY_STAT_drain g (b2n (!x.adrns.isEmpty))
  let s := s.wr .GAL_ARRAY_STAT_bfull0 g (b2n x.half0.full)
  s.wr .GAL_ARRAY_STAT_bfull1 g (b2n x.half1.full)

end Sys2Proof.Machine
end

