-- ==== Sys2Proof/Machine/ArrayOps.lean ====
section
/-! DEFINITION. Slot A and what its operations do at their completion (R35, R43, R44, R46, R52 to R54, R96, R474). -/

namespace Sys2Proof.Machine

-- What the array reads ------------------------------------------------------------------------------------------------

/-- Read the codes of a region for the array feed: the first uncorrectable offset, or none (R172). -/
def State.feedRead (s : State) (g ctx : Nat) (r : Nat × Nat) : Option Nat × State :=
  if s.poolErr.isEmpty then (none, s)
  else (pagesOf r.1 r.2 32).foldl (fun (e, s) cw =>
    match e with
    | some o => (some o, s)
    | none =>
      let (ok, s) := s.readCw g (cw * 32) 1 ctx
      (if ok then none else some (cw * 32), s)) (none, s)

/-- Read several regions. -/
def State.feedReads (s : State) (g ctx : Nat) (l : List (Nat × Nat)) : Option Nat × State :=
  l.foldl (fun (e, s) r => match e with
    | some o => (some o, s)
    | none => s.feedRead g ctx r) (none, s)

/-- The pool cells of a gallery. -/
def State.galCells (s : State) (g : Nat) : List Host.Cell := s.poolCells g 0 poolSize

/-- A byte as the array feed saw it: as at issue, or as now where it has changed, line by line (R167). -/
def State.fedByte (s : State) (g : Nat) (snap : List Host.Cell) (off : Nat) : Byte :=
  let old := memGet snap off
  let new := memGet s.pool (poolKey g off)
  if old = new then new else if Config.feedSawNew s.tick (off / 128) then new else old

/-- The cells of regions as the feed saw them. -/
def State.fedCells (s : State) (g : Nat) (snap : List Host.Cell) (l : List (Nat × Nat)) : List Host.Cell :=
  let inR := fun (k : Nat) => l.any (fun r => decide (r.1 ≤ k) && decide (k < r.1 + r.2))
  ((snap ++ s.galCells g).filter (fun c => inR c.1)).foldl (fun m c => Tab.set 0#8 m c.1 (s.fedByte g snap c.1)) []

-- Issue checks --------------------------------------------------------------------------------------------------------

/-- A descriptor fault, and a sequence fault, at issue (R46). -/
def descFault (g addr : Nat) : SlotRes := .trap tARRAY 0 (fun s => s.arrayFault .GAL_ARRAY_FAULT_desc g addr)
def seqFault (g addr : Nat) : SlotRes := .trap tARRAY 0 (fun s => s.arrayFault .GAL_ARRAY_FAULT_seq g addr)

/-- Whether t keeps the spacing of R35 for an operation that is not a keep AOP. -/
def Gal.spaced (x : Gal) (t : Nat) : Bool :=
  (match x.lastAop with
   | some (t0, tk) => decide (t0 + tk + 14 ≤ t)
   | none => true)
  && (match x.lastAdrn with
   | some t0 => decide (t0 + 68 ≤ t)
   | none => true)

/-- Whether t keeps the spacing of R35 for a keep AOP. -/
def Gal.keepSpaced (x : Gal) (t : Nat) : Bool :=
  match x.lastAop with
  | some (t0, tk) => decide (t0 + tk ≤ t)
  | none => true

/-- A half of the B buffer. -/
def Gal.half (x : Gal) (h : Nat) : BHalf := if h = 0 then x.half0 else x.half1
def Gal.setHalf (x : Gal) (h : Nat) (b : BHalf) : Gal := if h = 0 then { x with half0 := b } else { x with half1 := b }

/-- Whether an AOP breaks a rule of sequence (R46). -/
def State.aopSeqBad (s : State) (g : Nat) (d : Desc) : Bool :=
  let x := s.gal g
  let t := x.lcycle
  let bands := s.rd .GAL_ARRAY_STAT_bands g
  !(if d.init = 2 then x.keepSpaced t else x.spaced t)
    || (d.init == 2 && !(bandsBelow d.mActive).all (fun b => bands.testBit b))
    || (d.bsrc && (!(x.half d.bHalf).full || decide ((x.half d.bHalf).kLen < d.kLen)
        || (match x.aldb with
            | some l => l.d.bHalf == d.bHalf
            | none => false)))

/-- Whether an ALDB breaks a rule of sequence. -/
def State.aldbSeqBad (s : State) (g : Nat) (d : Desc) : Bool :=
  let x := s.gal g
  x.aldb.isSome || x.aops.any (fun o => o.d.bsrc && o.d.bHalf == d.bHalf)

/-- Take received A entries into the operations they belong to, oldest first; false when the first entry's span-wide
fields differ from the operation's (R37). -/
def Gal.absorb (x : Gal) : Gal × Option Nat :=
  x.aops.foldl (fun (x, bad) o =>
    let mine := x.ingress.filter (fun e => e.opno == o.opno)
    if bad.isSome || mine.isEmpty then (x, bad)
    else
      let mism := !o.started && mine.any (fun e => e.first && (parseDesc e.desc).spanWide != o.d.spanWide)
      if mism then (x, some o.addr)
      else
        let o' := { o with started := o.started || mine.any (fun e => e.first), got := o.got + mine.length,
                           aData := o.aData ++ mine.flatMap (fun e => e.data),
                           aScale := o.aScale ++ mine.flatMap (fun e => e.scale) }
        ({ x with ingress := x.ingress.filter (fun e => e.opno != o.opno),
                  aops := x.aops.map (fun q => if q.opno == o.opno then o' else q) }, bad)) (x, none)

/-- Take entries in; a stream mismatch raises the array trap (R46, R116). -/
def State.absorb (s : State) (g : Nat) : State :=
  let (x, bad) := (s.gal g).absorb
  let s := s.setGal g x
  match bad with
  | none => s
  | some a =>
    let s := s.arrayFault .GAL_ARRAY_FAULT_mismatch g a
    s.raiseTrap g 7 tARRAY 0 (s.gal g).pc

-- Slot A --------------------------------------------------------------------------------------------------------------

/-- Read the descriptor an operation names and go on, or fault (R36). -/
def withDesc (g : Nat) (addr : Nat) (k : Desc → State → SlotRes) (s : State) : SlotRes :=
  if addr % 64 ≠ 0 ∨ poolSize < addr + 64 then descFault g addr
  else match s.poolRead g addr 64 1 (s.taskCtx g) with
    | (.ue off, s) => .stop (s.poolFault g off)
    | (.ok b, s) => k (parseDesc b) s

/-- Start an array operation (R44): the sums' bands are kept from here on, groups that engage stop humming (R51). -/
def slotAop (g : Nat) (o : AOpd) : SlotAct :=
  ⟨3, o.p, o.mask == 0 && o.sem == 0, fun s =>
    let addr := (s.areg g o.a).toNat
    withDesc g addr (fun d s =>
      let n := s.rd .GAL_SPAN_len g
      let pos := s.rd .GAL_SPAN_pos g
      if !d.fieldsOk n || (d.bsrc && decide (2 ≤ d.bHalf)) || !(d.regions (pos == 0)).all (fun r => regionOk r.1 r.2) then
        descFault g addr
      else if s.aopSeqBad g d then seqFault g addr
      else match s.feedReads g (s.taskCtx g) (d.regions (pos == 0)) with
        | (some off, s) => .stop (s.poolFault g off)
        | (none, s) =>
          let snap := s.galCells g
          let s := s.setBands g ((bandsBelow d.mActive).foldl (fun m b => m + 2 ^ b) 0)
          let s := s.modGal g (fun x =>
            let op : ArrOp := ⟨x.opno, addr, d, x.lcycle, d.tk, snap, [], [], pos == 0, 0⟩
            let x := { x with aops := x.aops ++ [op], opno := x.opno + 1, lastAop := some (x.lcycle, d.tk),
                              lastShape := some (d.mActive, d.nGroups),
                              hum := x.hum.filter (fun h => decide (d.groupsAt pos ≤ h)) }
            match x.absorb with
            | (y, none) => y
            | (_, some _) => x)
          let s := s.wr .GAL_ARRAY_STAT_hum g (b2n (!(s.gal g).hum.isEmpty))
          .ok (s.arrayStat g) none) s⟩

/-- `AOP`. -/
def execAop (g : Nat) (o : AOpd) (s : State) : Host.Outcome State Fault Refusal :=
  checked s (.aop g o) (s.issueOne g (slotAop g o))

/-- Load a half of the B buffer (R43, R96). -/
def slotAldb (g : Nat) (o : AOpd) : SlotAct :=
  ⟨3, o.p, o.mask == 0 && o.sem == 0, fun s =>
    let addr := (s.areg g o.a).toNat
    withDesc g addr (fun d s =>
      if !d.fieldsOk (s.rd .GAL_SPAN_len g) || decide (2 ≤ d.bHalf) || !d.bRegions.all (fun r => regionOk r.1 r.2)
          || decide (d.capacity < d.kLen) then descFault g addr
      else if s.aldbSeqBad g d then seqFault g addr
      else match s.feedReads g (s.taskCtx g) d.bRegions with
        | (some off, s) => .stop (s.poolFault g off)
        | (none, s) =>
          let snap := s.galCells g
          let ld := max (ceilDiv d.bBytes 1024) (ceilDiv (d.bScaleBytes + d.metaBytes) 256)
          let s := s.modGal g (fun x =>
            { x.setHalf d.bHalf .empty with aldb := some ⟨0, addr, d, x.lcycle, ld, snap, [], [], true, 0⟩ })
          .ok (s.arrayStat g) none) s⟩

/-- `ALDB`. -/
def execAldb (g : Nat) (o : AOpd) (s : State) : Host.Outcome State Fault Refusal :=
  checked s (.aldb g o) (s.issueOne g (slotAldb g o))

/-- Rows and column groups that an ADRN writes (R474). -/
def State.drainShape (s : State) (g : Nat) : Nat × Nat :=
  match (s.gal g).lastShape with
  | some (m, n) => (m, min 64 (n - 64 * s.rd .GAL_SPAN_pos g))
  | none => (128, 64)

/-- Drain bands to a tile (R96, R474). -/
def slotAdrn (g : Nat) (o : AOpd) : SlotAct :=
  ⟨3, o.p, true, fun s =>
    let off := (s.areg g o.a).toNat
    let x := s.gal g
    if !regionOk off tileBytes then descFault g x.pc
    else if !x.spaced x.lcycle then seqFault g x.pc
    else
      let (m, n) := s.drainShape g
      let s := s.modGal g (fun x => { x with adrns := x.adrns ++ [⟨off, o.mask, o.sem, x.lcycle, m, n⟩],
                                             lastAdrn := some x.lcycle })
      .ok (s.arrayStat g) none⟩

/-- `ADRN`. -/
def execAdrn (g : Nat) (o : AOpd) (s : State) : Host.Outcome State Fault Refusal :=
  checked s (.adrn g o) (s.issueOne g (slotAdrn g o))

/-- Clear bands without writing them (R96, R474). -/
def slotAclr (g : Nat) (o : AOpd) : SlotAct :=
  ⟨3, o.p, o.a == 0 && o.sem == 0, fun s =>
    let x := s.gal g
    if !x.spaced x.lcycle then seqFault g x.pc
    else .ok (s.modGal g (fun x => { x with aclrs := x.aclrs ++ [⟨0, o.mask, 0, x.lcycle, 0, 0⟩] })) none⟩

/-- `ACLR`. -/
def execAclr (g : Nat) (o : AOpd) (s : State) : Host.Outcome State Fault Refusal :=
  checked s (.aclr g o) (s.issueOne g (slotAclr g o))

-- Completions ---------------------------------------------------------------------------------------------------------

/-- Reach a local cycle: it has come; or END has issued, and the cycles up to it are issue cycles in which no bundle issues
(R115). Otherwise the event is not due. -/
def State.reach (s : State) (g due : Nat) : Option State :=
  let x := s.gal g
  if !s.running g then none
  else if due ≤ x.lcycle then some s
  else if x.ended && !s.holds g then
    let n := due - x.lcycle
    let s := s.galCount .GAL_SEQ_ISSUE_count .GAL_SEQ_ISSUE_ovf .GAL_SEQ_CTRL_ovf_ie g n
    some (s.modGal g (fun x => { x with lcycle := due, used := x.used + n }))
  else none

/-- The operands of an operation as the array saw them. -/
def State.source (s : State) (g : Nat) (o : ArrOp) : Source :=
  let x := s.gal g
  let fed := fun off => s.fedByte g o.snap off
  let head := s.isHead g
  let hf := x.half o.d.bHalf
  let fromHalf := fun base k => memGet hf.cells (base + k)
  { d := o.d
    a := if head then fun k => fed (o.d.aAddr + k) else byteAt o.aData
    aS := if head then fun k => fed (o.d.aScale + k) else byteAt o.aScale
    b := if o.d.bsrc then fromHalf hf.bAddr else fun k => fed (o.d.bAddr + k)
    bS := if o.d.bsrc then fromHalf hf.bScale else fun k => fed (o.d.bScale + k)
    mt := if o.d.bsrc then fromHalf hf.bMeta else fun k => fed (o.d.bMeta + k) }

/-- Every sum of an operation: key, value, flags. -/
def State.aopSums (s : State) (g : Nat) (o : ArrOp) : List (Nat × Nat × Nat) :=
  let src := s.source g o
  let old := (s.gal g).sums
  (cellsOf o.d.mActive (o.d.groupsAt (s.rd .GAL_SPAN_pos g))).map (fun (i, j) =>
    let run := match o.d.init with
      | 0 => 0
      | 1 => leNat ((List.range 4).map (fun b => s.fedByte g o.snap (o.d.cAddr + tileOff i j + b)))
      | _ => old.get 0 (sumKey i j)
    (sumKey i j, src.cell run i j))

/-- Whether an active column group met bad metadata (R42). -/
def State.aopMetaBad (s : State) (g : Nat) (o : ArrOp) : Bool :=
  o.d.sparse &&
    (let src := s.source g o
     (List.range (12 * o.d.groupsAt (s.rd .GAL_SPAN_pos g))).any (fun j =>
       (List.range (o.d.kLen / 4)).any (fun q => metaBad (src.metaEntry q j))))

/-- `AOP_COMPLETE`: the oldest operation reaches 80 + T_k: its sums stand or are drained, the semaphore increments (R44),
and bad metadata raises its fault with the increment (R42). -/
def State.aopComplete (s : State) (g : Nat) : State :=
  let s := s.absorb g
  match (s.gal g).aops with
  | [] => s
  | o :: rest =>
    if !o.started || (!s.isHead g && decide (o.got < o.tk)) then s
    else match s.reach g (o.t0 + 80 + o.tk) with
      | none => s
      | some s =>
        let pos := s.rd .GAL_SPAN_pos g
        let sums := s.aopSums g o
        let bad := s.aopMetaBad g o
        let s := s.orNumFlags g (sums.foldl (fun a e => a ||| e.2.2) 0)
        let s := s.ticked.modGal g (fun x =>
          { x with aops := rest, sums := sums.foldl (fun m e => Tab.set 0 m e.1 e.2.1) x.sums })
        let s := if o.d.drain then
            (s.drainTo g o.d.cAddr 255 o.d.mActive (o.d.groupsAt pos) 1 (s.taskCtx g)).clearBands g 255
          else s
        let s := s.semAdd g o.d.sem 1 (s.markNo g)
        let s := (s.arrayStat g).endWait g
        if bad then
          let s := s.arrayFault .GAL_ARRAY_FAULT_meta g o.addr
          s.raiseTrap g 7 tARRAY 0 (s.gal g).pc
        else s

def execAopComplete (g : Nat) (s : State) : Host.Outcome State Fault Refusal :=
  checked s (.aopComplete g) (s.aopComplete g)

/-- `ALDB_COMPLETE`: the half is full and, two cycles later, the semaphore increments (R43). -/
def State.aldbComplete (s : State) (g : Nat) : State :=
  match (s.gal g).aldb with
  | none => s
  | some o => match s.reach g (o.t0 + 6 + o.tk) with
    | none => s
    | some s =>
      let b : BHalf := ⟨true, o.d.kLen, o.d.kind, o.d.fmtB, o.d.bAddr, o.d.bScale, o.d.bMeta,
        s.fedCells g o.snap o.d.bRegions⟩
      let s := s.ticked.modGal g (fun x => { x.setHalf o.d.bHalf b with aldb := none })
      ((s.semAdd g o.d.sem 1 (s.markNo g)).arrayStat g).endWait g

def execAldbComplete (g : Nat) (s : State) : Host.Outcome State Fault Refusal :=
  checked s (.aldbComplete g) (s.aldbComplete g)

/-- `ADRN_COMPLETE`: the bands are written and empty, and the semaphore increments (R474). -/
def State.adrnComplete (s : State) (g : Nat) : State :=
  match (s.gal g).adrns with
  | [] => s
  | b :: rest => match s.reach g (b.t0 + 68) with
    | none => s
    | some s =>
      let s := s.modGal g (fun x => { x with adrns := rest })
      let s := (s.drainTo g b.addr b.mask b.m b.n 1 (s.taskCtx g)).clearBands g b.mask
      ((s.semAdd g b.sem 1 (s.markNo g)).arrayStat g).endWait g

def execAdrnComplete (g : Nat) (s : State) : Host.Outcome State Fault Refusal :=
  checked s (.adrnComplete g) (s.adrnComplete g)

/-- `ACLR_COMPLETE`: the bands are empty (R474). -/
def State.aclrComplete (s : State) (g : Nat) : State :=
  match (s.gal g).aclrs with
  | [] => s
  | b :: rest => match s.reach g (b.t0 + 61) with
    | none => s
    | some s => ((s.modGal g (fun x => { x with aclrs := rest })).clearBands g b.mask).endWait g

def execAclrComplete (g : Nat) (s : State) : Host.Outcome State Fault Refusal :=
  checked s (.aclrComplete g) (s.aclrComplete g)

-- The A stream --------------------------------------------------------------------------------------------------------

/-- `A_ENTRY_ARRIVAL`: an entry reaches a gallery's ingress queue and is taken by the operation it belongs to (R30, R37). -/
def execAEntryArrival (g : Nat) (e : AEntry) (s : State) : Host.Outcome State Fault Refusal :=
  checked s (.aEntryArrival g e)
    (if (s.gal g).trapped.isSome || (s.gal g).task.isNone then s
     else (s.modGal g (fun x => { x with ingress := x.ingress ++ [e] })).absorb g)

/-- `SPAN_HOLD_FAULT`: a gallery has held for 65,536 cycles (R54). -/
def execSpanHoldFault (g : Nat) (s : State) : Host.Outcome State Fault Refusal :=
  checked s (.spanHoldFault g)
    (if s.running g && (s.gal g).wait == .none && s.holds g then
      let s := s.holdCycles g (65536 - (s.gal g).holdRun)
      let pc := (s.gal g).pc
      (s.arrayFault .GAL_ARRAY_FAULT_hold g pc).raiseTrap g 7 tARRAY 0 pc
    else s)

/-- `HUM_END`: a column group that has not engaged stops humming (R51). -/
def execHumEnd (g grp : Nat) (s : State) : Host.Outcome State Fault Refusal :=
  checked s (.humEnd g grp)
    (let s := s.modGal g (fun x => { x with hum := x.hum.filter (fun h => h != grp) })
     s.wr .GAL_ARRAY_STAT_hum g (b2n (!(s.gal g).hum.isEmpty)))

end Sys2Proof.Machine
end

