-- ==== Sys2Proof/Machine/Access.lean ====
section
/-! DEFINITION. Who may reach a register or issue a command (R5, R120, R243, R250, R252, R431). -/

namespace Sys2Proof

/-- Whether a source is the physical function. -/
def Src.isPf (x : Src) : Bool := x == .func 0

end Sys2Proof

namespace Sys2Proof.Machine

/-- Whether BAR0 answers in every block: the link is up, start-up has reached configuration-ready (R445), the part is not in recovery
mode (R400). -/
def State.bar0 (s : State) : Bool :=
  s.board.pcie && decide (7 ≤ s.rd .DEV_STAT_step 0) && decide (s.rd .DEV_STAT_step 0 ≤ 10)

/-- Whether BAR0 answers a function: not in D3hot (R278), nor when its TDI is in ERROR (R437). -/
def State.barOf (s : State) (f : Nat) : Bool := s.bar0 && !(s.func f).d3 && !s.tdiError f

/-- Whether BAR0 answers a function beyond its MSI-X table and its CTX and FEN windows: a virtual function that serves no
partition reaches nothing else (R250). -/
def State.barAll (s : State) (f : Nat) : Bool :=
  s.barOf f && (f == 0 || s.map.parts.any (fun e => e.2.defined && e.2.func == f))

/-- Whether an access to the registers of a partition takes effect: from a function that serves it, and for a confidential
partition from its own function only (R252, R431). Management reaches none of them. -/
def State.reachesPrt (s : State) (x : Src) (p : Nat) : Bool :=
  match x with
  | .mgmt => false
  | .func f => s.barOf f && s.serves f p && (!s.confidential p || f == (s.part p).func)

/-- Likewise for the registers of a unit bound to a partition, or to none: those the physical function alone reaches. -/
def State.reachesUnit (s : State) (x : Src) (own : Option Nat) : Bool :=
  match own with
  | some p => s.reachesPrt x p
  | none => x.isPf && s.barOf 0

/-- Whether a slice changes its partition in a commit that is under way, up to its bind (R243). -/
def State.moving (s : State) (g : Nat) : Bool :=
  match s.svy.pend with
  | some m => s.rd .SVY_STAT_phase 0 == 5
      && (m.parts.find? (fun e => e.2.slices.contains g || e.2.spares.contains g)).map (·.1) != s.prtOf g
  | none => false

/-- Whether a write to the registers of a slice's gallery, octet or port takes effect (R243, R252, R431). -/
def State.reachesSlice (s : State) (x : Src) (g : Nat) : Bool := s.reachesUnit x (s.prtOf g) && !s.moving g

/-- Whether the owning partition is sealed, so that RWL fields keep their values (R5, R235). -/
def State.sealedPrt (s : State) (own : Option Nat) : Bool :=
  match own with
  | some p => s.rd .PRT_STAT_state p == 2
  | none => false

end Sys2Proof.Machine
end

