-- ==== Sys2Proof/Machine/HostCore.lean ====
section
/-! DEFINITION. Command windows: the protocol of R255, the order of checks and the rights of R476, the states of R477, and
the allocation of indices (R254). -/

namespace Sys2Proof.Machine

/-- The command windows: CTX, FEN and XLT of a function, HTN of a port, the program commands of a partition. -/
inductive CmdWin where
  | ctx | fen | xlt | htn | prog
  deriving DecidableEq, Repr

/-- Registers of a window. -/
def CmdWin.arg : CmdWin → Fld
  | .ctx => .CTX_ARG_arg
  | .fen => .FEN_ARG_arg
  | .xlt => .XLT_ARG_arg
  | .htn => .HTN_ARG_arg
  | .prog => .DSP_PROG_ARG_arg

def CmdWin.op : CmdWin → Fld
  | .ctx => .CTX_CMD_op
  | .fen => .FEN_CMD_op
  | .xlt => .XLT_CMD_op
  | .htn => .HTN_CMD_op
  | .prog => .DSP_PROG_CMD_op

def CmdWin.err : CmdWin → Fld
  | .ctx => .CTX_CMD_err
  | .fen => .FEN_CMD_err
  | .xlt => .XLT_CMD_err
  | .htn => .HTN_CMD_err
  | .prog => .DSP_PROG_CMD_err

/-- Show the result words; the program window has one. -/
def CmdWin.results (w : CmdWin) (i r0 r1 : Nat) (s : State) : State :=
  match w with
  | .ctx => (s.wr .CTX_RES_res (2 * i) r0).wr .CTX_RES_res (2 * i + 1) r1
  | .fen => (s.wr .FEN_RES_res (2 * i) r0).wr .FEN_RES_res (2 * i + 1) r1
  | .xlt => (s.wr .XLT_RES_res (2 * i) r0).wr .XLT_RES_res (2 * i + 1) r1
  | .htn => (s.wr .HTN_RES_res (2 * i) r0).wr .HTN_RES_res (2 * i + 1) r1
  | .prog => s.wr .DSP_PROG_RES_res i r0

/-- How a command ends: error code, result words, state. -/
structure CmdRes where
  err : Nat
  r0 : Nat
  r1 : Nat
  s : State
  deriving DecidableEq, Repr

/-- A command that fails changes nothing else; its result words read zero. -/
def State.fails (s : State) (e : Nat) : CmdRes := ⟨e, 0, 0, s⟩

/-- A command without results. -/
def State.done (s : State) : CmdRes := ⟨eOK, 0, 0, s⟩

/-- Argument word k of a window. -/
def State.argOf (s : State) (w : CmdWin) (i k : Nat) : Nat := s.rd w.arg (4 * i + k)

/-- Write the arguments, then op with go, and let the command end: err and the results hold the outcome (R255). -/
def State.command (s : State) (w : CmdWin) (i op : Nat) (a : Args) (k : State → CmdRes) : State :=
  let s := (((s.wr w.arg (4 * i) a.a0.toNat).wr w.arg (4 * i + 1) a.a1.toNat).wr w.arg (4 * i + 2) a.a2.toNat).wr w.arg
    (4 * i + 3) a.a3.toNat
  let s := s.wr w.op i op
  let r := k s
  w.results i r.r0 r.r1 (r.s.wr w.err i r.err)

/-- Run checks in the order of R476: the first that fails decides; with none the command has its effect. -/
def State.checks (s : State) (l : List (Bool × Nat)) (k : State → CmdRes) : CmdRes :=
  match l.find? (fun c => !c.1) with
  | some c => s.fails c.2
  | none => k s

/-- Whether the bits of a word from lo up are zero. -/
def zeroFrom (x lo : Nat) : Bool := x < 2 ^ lo

-- Rights --------------------------------------------------------------------------------------------------------------

/-- Whether a function may issue commands on a partition: one that serves it; for a confidential partition the physical
function only those marked (R255, R431). -/
def State.mayCmd (s : State) (f p : Nat) (pf : Bool) : Bool := s.serves f p && !(s.confidential p && f == 0 && !pf)

/-- Rights on a context named: a FREE context has no partition (R476). -/
def State.ctxRights (s : State) (f c : Nat) (pf : Bool) : Bool := (s.ctx c).st == 0 || s.mayCmd f (s.ctx c).prt pf

/-- Whether a context named exists. -/
def State.ctxExists (s : State) (c : Nat) : Bool := c != 0 && (s.ctx c).st != 0

/-- Rights on a queue, memory object or fence: the partition of what holds the index now. -/
def State.queueRights (s : State) (f h : Nat) (pf : Bool) : Bool :=
  let q := s.queue (h % 2 ^ 18)
  !q.live || s.mayCmd f (s.ctx q.ctx).prt pf

def State.mobjRights (s : State) (f h : Nat) : Bool :=
  let m := s.mobj (h % 2 ^ 18)
  !m.live || s.mayCmd f (s.ctx m.ctx).prt false

def State.fenceRights (s : State) (f h : Nat) : Bool :=
  let x := s.fence (h % 2 ^ 20)
  !x.live || s.mayCmd f (s.ctx x.ctx).prt false

/-- LIVE, for the commands that R477 accepts in no other state. -/
def State.isLive (s : State) (c : Nat) : Bool := (s.ctx c).st == 1

-- Allocation ----------------------------------------------------------------------------------------------------------

/-- A free index among 0 to n - 1: the choice is open, so the search starts anywhere and wraps round. -/
def anyFree (start n : Nat) (free : Nat → Bool) : Option Nat :=
  ((List.range n).map (fun k => (start + k) % n)).find? free

/-- Take the free value for a choice of index. -/
def State.chooseFree (s : State) (n : Nat) (free : Nat → Bool) : Option Nat × State :=
  (anyFree (Config.pick s.tick) n free, s.ticked)

end Sys2Proof.Machine
end

