-- ==== Sys2Proof/Machine/Keys.lean ====
section
/-! DEFINITION. Key slots: classes, allocation, retirement, the tags of requests (R198, R424 to R427, R429). -/

namespace Sys2Proof.Machine

/-- The classes of R424: first slot and count. -/
inductive SlotClass where
  | mem | ide | link
  deriving DecidableEq, Repr

def SlotClass.first : SlotClass → Nat
  | .mem => 0
  | .ide => 64
  | .link => 192

def SlotClass.size : SlotClass → Nat
  | .mem => 64
  | .ide => 128
  | .link => 3904

/-- The class of a slot. -/
def slotClass (n : Nat) : SlotClass := if n < 64 then .mem else if n < 192 then .ide else .link

def State.slot (s : State) (n : Nat) : KeySlot := s.slots.get .free n

/-- Slots of a class in some of the states. -/
def State.slotsIn (s : State) (c : SlotClass) (p : Nat → Bool) : Nat :=
  (s.slots.filter (fun e => slotClass e.1 == c && p e.2.st)).length

/-- Show the use of slots in SEC_SLOT_USE: live and retiring slots are in use, retiring counts those that are not free again. -/
def State.showSlots (s : State) : State :=
  let used := fun st => st == 1 || st == 2
  let back := fun st => st == 2 || st == 3
  (((s.wr .SEC_SLOT_USE_mem 0 (s.slotsIn .mem used)).wr .SEC_SLOT_USE_ide 0 (s.slotsIn .ide used)).wr
    .SEC_SLOT_USE_link 0 (s.slotsIn .link used)).wr .SEC_SLOT_USE_retiring 0
      (s.slotsIn .mem back + s.slotsIn .ide back + s.slotsIn .link back)

def State.setSlot (s : State) (n : Nat) (x : KeySlot) : State :=
  { s with slots := s.slots.set .free n x }.showSlots

/-- The free slot of a class that was retired earliest; slots never used come first, lowest number first (R427). -/
def State.freeSlot (s : State) (c : SlotClass) : Option Nat :=
  ((List.range c.size).map (· + c.first)).foldl (fun b n =>
    let x := s.slot n
    if x.st != 0 then b
    else match b with
      | none => some n
      | some m => if x.order < (s.slot m).order then some n else b) none

/-- How many slots of a class are free. -/
def State.freeSlots (s : State) (c : SlotClass) : Nat := c.size - s.slotsIn c (· != 0)

/-- Take a free slot of a class. -/
def State.takeKey (s : State) (c : SlotClass) (own : Nat) : Option (Nat × State) :=
  (s.freeSlot c).map (fun n => (n, s.setSlot n { s.slot n with st := 1, own := own }))

/-- Whether SEC_PRT_KEY of a partition names a slot. -/
def State.shownKey (s : State) (p n : Nat) : Bool := s.rd .SEC_PRT_KEY_state p != 0 && s.rd .SEC_PRT_KEY_slot p == n

/-- Step 1 of R426. -/
def State.retireKey (s : State) (n : Nat) : State :=
  if (s.slot n).st = 1 then
    let s := s.setSlot n { s.slot n with st := 2 }
    let p := (s.slot n).own
    if n < 64 && s.shownKey p n then s.wr .SEC_PRT_KEY_state p 2 else s
  else s

/-- Step 3 of R426: the generation advances; the slot waits out R427. -/
def State.retiredKey (s : State) (n : Nat) : State :=
  let x := s.slot n
  if x.st = 2 then
    let shown := s.shownKey x.own n
    let s := { s with retired := s.retired + 1 }
    let s := s.setSlot n { st := 3, gen := (x.gen + 1) % 16, order := s.retired, own := 0 }
    if n < 64 && shown then s.resetReg .SEC_PRT_KEY x.own else s
  else s

/-- Every live slot retires at once, without a drain fence (R440, and the end of every key at a chip reset). -/
def State.destroyKeys (s : State) : State :=
  (s.slots.map (·.1)).foldl (fun s n => (s.retireKey n).retiredKey n) s

/-- Generate a memory key for a partition to come (R425): none when no memory slot is free, or the entropy source fails. -/
def State.newKey (s : State) (p : Nat) : Option (Nat × State) :=
  if s.flag .SEC_STAT_drbg_err 0 then none
  else (s.takeKey .mem p).map (fun (n, s) => (n, { s with sec := { s.sec with drbg := s.sec.drbg + 1 } }))

/-- The partition takes its key. -/
def State.showKey (s : State) (p n : Nat) : State :=
  ((s.wr .SEC_PRT_KEY_slot p n).wr .SEC_PRT_KEY_gen p (s.slot n).gen).wr .SEC_PRT_KEY_state p 1

/-- Whether a request's key tag still opens a partition's memory (R426): its slot is live, or retiring with the drain fence
not passed. -/
def State.tagOk (s : State) (p slot gen : Nat) : Bool :=
  let x := s.slot slot
  slot < 64 && (x.st == 1 || x.st == 2) && s.shownKey p slot && x.gen == gen

/-- A request with the tag of a retired slot is dropped and counted (R426). -/
def State.keyStale (s : State) : State := s.count .SEC_KEY_STALE_count .SEC_KEY_STALE_ovf 0 1

/-- `DRAIN_FENCE`: the fence of a retiring slot completes (R426). -/
def execDrainFence (slot : Nat) (s : State) : Host.Outcome State Fault Refusal :=
  gate s (decide (slot < 4096)) (s.retiredKey slot)

end Sys2Proof.Machine
end

