-- ==== Sys2Proof/Machine/MemCtl.lean ====
section
/-! DEFINITION. The memory controllers' commands: requests, parity, channel loss and repair, scrub, page-owner writes, zero
fill (R186 to R207). -/

namespace Sys2Proof.Machine

/-- Status of an answer to a request at a controller. -/
def mOK : Nat := 0
def mREFUSED : Nat := 1
def mPOISON : Nat := 2
def mDROPPED : Nat := 3

/-- Answer a request: refused reads carry zeros, poisoned and dropped ones nothing (R188, R191, R426). -/
def State.memReply (s : State) (r : MemReq) (rd : Bool) (res : MemRes) : State :=
  match res with
  | .ok b => s.emit (.reply [mOK] b)
  | .refused => s.emit (.reply [mREFUSED] (if rd then List.replicate r.len 0#8 else []))
  | .poison l => (s.poisonFault r.ctx 0 0xFF l).emit (.reply [mPOISON] [])

/-- Whether a request comes to controllers of one kind: DDR5 lies from ddrBase (R191). -/
def reqDdr (r : MemReq) : Bool := decide (ddrBase ≤ r.ppa)

/-- Whether the controllers refuse a request for its source: the control processor complex reaches no confidential
partition (R397). -/
def State.cpcRefused (s : State) (r : MemReq) : Bool := r.fromCpc && s.flag .PRT_CTRL_conf r.prt

/-- Serve a request: the key tag is checked first (R426), then its source (R397). -/
def State.serve (s : State) (r : MemReq) (rd : Bool) (k : State → MemRes × State) : State :=
  if !s.tagOk r.prt r.keySlot r.keyGen then s.keyStale.emit (.reply [mDROPPED] [])
  else if s.cpcRefused r then s.memReply r rd .refused
  else
    let (res, s) := k s
    s.memReply r rd res

/-- Context that the owner check sees: requests through the aperture are checked against the partition alone (R201), which
is what context 0 passes. -/
def reqCtx (r : MemReq) : Nat := if r.aperture then 0 else r.ctx

/-- A read by a request. -/
def State.serveRead (s : State) (r : MemReq) : State :=
  s.serve r true (fun s => s.memRead r.prt r.ppa r.len (reqCtx r))

/-- A write by a request. -/
def State.serveWrite (s : State) (r : MemReq) (data : List Byte) : State :=
  s.serve r false (fun s => s.memWrite r.prt r.ppa (reqCtx r) data)

/-- `HBM_READ`. -/
def execHbmRead (r : MemReq) (s : State) : Host.Outcome State Fault Refusal :=
  checked s (.hbmRead r) (if reqDdr r then s else s.serveRead r)

/-- `HBM_WRITE`: parity of the group is written with the data before the acknowledgement (R195). -/
def execHbmWrite (r : MemReq) (data : List Byte) (s : State) : Host.Outcome State Fault Refusal :=
  checked s (.hbmWrite r data) (if reqDdr r then s else s.serveWrite r data)

/-- `DDR5_READ`. -/
def execDdr5Read (r : MemReq) (s : State) : Host.Outcome State Fault Refusal :=
  checked s (.ddr5Read r) (if reqDdr r then s.serveRead r else s)

/-- `DDR5_WRITE`. -/
def execDdr5Write (r : MemReq) (data : List Byte) (s : State) : Host.Outcome State Fault Refusal :=
  checked s (.ddr5Write r data) (if reqDdr r then s.serveWrite r data else s)

/-- `MEMORY_ATOMIC`: read, change and write of one line as one (R194). -/
def execMemoryAtomic (r : MemReq) (op : AtomicOp) (operand : Word) (s : State) : Host.Outcome State Fault Refusal :=
  checked s (.memoryAtomic r op operand)
    (s.serve r true (fun s => s.memAtomic r.prt r.ppa (reqCtx r) op operand.toNat))

/-- `PARITY_WRITE`: the parity line of a group is written anew from its data lines, so its symbols are good again; a lost
parity channel takes no write (R195, R196). What the line holds is the XOR of lines the state holds already. -/
def execParityWrite (chan line : Nat) (s : State) : Host.Outcome State Fault Refusal :=
  checked s (.parityWrite chan line)
    (if s.inParity chan && chan % 8 == 7 && s.chanState chan != 3 then
      match s.readLine ⟨chan, line⟩ 0 with
      | (true, s) => s.setLineBad ⟨chan, line⟩ 0
      | (false, s) => s
     else s)

-- Channels ------------------------------------------------------------------------------------------------------------

/-- Number of a channel among all: DDR5 channel d is 256 + d. -/
def chanNo (ddr : Bool) (n : Nat) : Nat := if ddr then 256 + n else n

/-- Whether there is a channel to lose: a DDR5 channel without a DIMM is empty. -/
def State.chanFitted (s : State) (ch : Nat) : Bool := ch < 256 || s.flag .MEM_DDR_STAT_present (ch - 256)

/-- `CHANNEL_LOSS` (R196, R197). -/
def execChannelLoss (ddr : Bool) (chan : Nat) (s : State) : Host.Outcome State Fault Refusal :=
  checked s (.channelLoss ddr chan)
    (let ch := chanNo ddr chan
     if s.chanFitted ch && s.chanState ch != 3 then s.loseChan ch else s)

/-- `REBUILD_DONE`: the octet is protected again once no channel of it is lost or rebuilding (R197). -/
def execRebuildDone (chan : Nat) (s : State) : Host.Outcome State Fault Refusal :=
  checked s (.rebuildDone chan)
    (if s.chanState chan == 4 then
      let s := s.wr .MEM_HBM_STAT_state chan 1
      let oct := (List.range 8).map (· + chan / 8 * 8)
      if oct.any (fun c => s.chanState c == 3 || s.chanState c == 4) then s.wr .MEM_HBM_STAT_state chan 2
      else s.each oct (fun s c => if s.chanState c == 2 then s.wr .MEM_HBM_STAT_state c 1 else s)
     else s)

/-- `RECALIBRATION`: the channel pauses and goes on (R203); nothing that a register or memory holds changes. -/
def execRecalibration (ddr : Bool) (chan : Nat) (s : State) : Host.Outcome State Fault Refusal :=
  checked s (.recalibration ddr chan) s

/-- `REFRESH`: likewise (R204). -/
def execRefresh (ddr : Bool) (chan : Nat) (s : State) : Host.Outcome State Fault Refusal :=
  checked s (.refresh ddr chan) s

-- Scrub ---------------------------------------------------------------------------------------------------------------

/-- Lines of a scrub unit, and units of a channel (R205). -/
def scrubLines (ch : Nat) : Nat := if ch < 256 then 30 else 64
def State.scrubUnits (s : State) (ch : Nat) : Nat :=
  if ch < 256 then 1048576 else s.rd .MEM_DDR_STAT_ext (ch - 256) * 2 ^ 18

/-- A scrub read of one line: a line that turns out uncorrectable is reported (R188, R372). -/
def State.scrubLine (s : State) (l : Loc) : State :=
  let was := s.lineBad l
  let (_, s) := s.readLine l 0
  if was != 255 && s.lineBad l == 255 then
    s.rasRecord ⟨3, 2, 0, if l.chan < 256 then uHBM else uDDR5, if l.chan < 256 then l.chan else l.chan - 256,
      if l.chan < 256 then (s.prtOf (l.chan / 8)).getD 0xFF else 0xFF, chanDom l.chan, 0, l.line⟩
  else s

/-- `MEMORY_SCRUB`: one unit, in ascending order; exponent 0x3F disables it (R205). -/
def execMemoryScrub (ddr : Bool) (chan : Nat) (s : State) : Host.Outcome State Fault Refusal :=
  checked s (.memoryScrub ddr chan)
    (let ch := chanNo ddr chan
     let off := if ddr then s.rd .MEM_DDR_CTRL_scrub chan == 0x3F else s.rd .MEM_HBM_CTRL_scrub chan == 0x3F
     let st := s.chanState ch
     if off || st == 0 || st == 3 then s
     else
       let pos := (s.chans.get .reset ch).scrubPos
       let s := s.each (List.range (scrubLines ch)) (fun s j => s.scrubLine ⟨ch, pos * scrubLines ch + j⟩)
       { s with chans := s.chans.upd .reset ch (fun x =>
          { x with scrubPos := (pos + 1) % max (s.scrubUnits ch) 1 }) })

-- Page-owner table ----------------------------------------------------------------------------------------------------

/-- Key of an owner entry. -/
def ownKey (p frame : Nat) : Nat := p * 2 ^ 32 + frame

/-- Whether writes through the port are held: a relayout rewrites the table of a partition that holds DDR5 (R239). -/
def State.ownHeld (s : State) (p : Nat) : Bool := s.flag .PRT_STAT_relayout p && !(s.part p).exts.isEmpty

/-- Write an entry into the table. -/
def State.ownWrite (s : State) (p fr e : Nat) : State :=
  (s.writeLines p (s.rd .MEM_PRT_OWN_base p * 65536 + 4 * fr) 0 (natLe 4 e)).2

/-- `MEM_OWN_CMD_GO`: write the entry of the port to the frame last written. Until it has reached every cache, requests see
the old entry (R202). The write that waits is held as frame, entry and whether it is held back from the table. -/
def execMemOwnCmdGo (src : Src) (p : Nat) (s : State) : Host.Outcome State Fault Refusal :=
  checked s (.memOwnCmdGo src p)
    (if !s.reachesPrt src p || s.flag .MEM_OWN_CMD_busy p then s
     else
       let fr := s.rd .MEM_OWN_CMD_frame p
       if (s.tableH p + (s.part p).ddr) / 65536 ≤ fr then s.wr .MEM_OWN_CMD_err p 1
       else
         let e := s.rd .MEM_OWN_DATA_entry p
         let held := s.ownHeld p
         let (_, s) := s.ownEntry p fr
         let s := if held then s else s.ownWrite p fr e
         { s with ownPend := s.ownPend.set 0 p (b2n held * 2 ^ 65 + fr * 2 ^ 32 + e + 1) }.wr .MEM_OWN_CMD_busy p 1)

/-- `OWNER_PROPAGATION_DONE`: every cache holds the new entry; a write that was held goes to the table first. -/
def execOwnerPropagationDone (p : Nat) (s : State) : Host.Outcome State Fault Refusal :=
  checked s (.ownerPropagationDone p)
    (if s.flag .MEM_OWN_CMD_busy p && !s.ownHeld p then
      let w := s.ownPend.get 0 p
      let v := w % 2 ^ 65 - 1
      let s := if 2 ^ 65 ≤ w then s.ownWrite p (v / 2 ^ 32) (v % 2 ^ 32) else s
      { s with ownPend := s.ownPend.set 0 p 0,
               ownCache := s.ownCache.set 0 (ownKey p (v / 2 ^ 32)) (v % 2 ^ 32 + 1) }.wr .MEM_OWN_CMD_busy p 0
     else s)

-- Zero fill -----------------------------------------------------------------------------------------------------------

/-- Number of a zero fill: an octet, or a DDR5 extent. -/
def fillNo (ddr : Bool) (unit : Nat) : Nat := if ddr then 32 + unit else unit

/-- Start a zero fill. -/
def State.startFill (s : State) (ddr : Bool) (unit : Nat) : State :=
  { s with fills := s.fills.filter (· != fillNo ddr unit) ++ [fillNo ddr unit] }

/-- Every line of an octet or extent is written with zeros, good check bytes and an empty poison map. -/
def State.filled (s : State) (ddr : Bool) (unit : Nat) : State :=
  let s := { s with fills := s.fills.filter (· != fillNo ddr unit) }
  if ddr then
    let ch := 256 + unit / 256
    let lo := ch * 2 ^ 32 + unit % 256 * 2 ^ 24
    { s with lineErr := s.lineErr.clearRange lo (lo + 2 ^ 24) }
  else
    { s with lineErr := s.lineErr.clearRange (8 * unit * 2 ^ 32) (8 * (unit + 1) * 2 ^ 32),
             chans := (List.range 8).foldl (fun t k => t.upd .reset (8 * unit + k) (fun x => { x with dead := false }))
               s.chans }

end Sys2Proof.Machine
end

