-- ==== Sys2Proof/Machine/Codec.lean ====
section
/-! DEFINITION. The plane-run code of the compression engine (R160 to R162), which the sequence pager uses too (R220). -/

namespace Sys2Proof.Machine

-- CRC-32C -------------------------------------------------------------------------------------------------------------

/-- n bit steps of the reflected CRC with the Castagnoli polynomial. -/
def crcBits : Nat → Nat → Nat
  | 0, c => c
  | n + 1, c => crcBits n (if c % 2 = 1 then c / 2 ^^^ 0x82F63B78 else c / 2)

/-- CRC-32C of a byte string. -/
def crc32c (l : List Byte) : Nat := l.foldl (fun c b => crcBits 8 (c ^^^ b.toNat)) 0xFFFFFFFF ^^^ 0xFFFFFFFF

-- Encoding ------------------------------------------------------------------------------------------------------------

/-- The maximal runs of equal bytes. -/
def runsOf : List Byte → List (Byte × Nat)
  | [] => []
  | b :: t => match runsOf t with
    | (c, n) :: r => if b = c then (c, n + 1) :: r else (b, 1) :: (c, n) :: r
    | [] => [(b, 1)]

/-- n bytes cut into groups of at most 128, as control byte and literals. -/
def literalGroups (l : List Byte) : List Byte :=
  (List.range (ceilDiv l.length 128)).flatMap (fun k =>
    let g := (l.drop (128 * k)).take 128
    BitVec.ofNat 8 (g.length - 1) :: g)

/-- k pieces of a run. -/
def runPieces (b : Byte) (n k : Nat) : List Byte := (List.replicate k [BitVec.ofNat 8 (n + 0x7E), b]).flatten

/-- Encode runs: pend holds literals not yet written. A run of 3 or more is cut into pieces of 129 from the front; a final
piece shorter than 3 bytes is literal (R161). -/
def encodeRuns : List (Byte × Nat) → List Byte → List Byte
  | [], pend => literalGroups pend
  | (b, n) :: t, pend =>
    if n < 3 then encodeRuns t (pend ++ List.replicate n b)
    else
      let r := n % 129
      let tail := if 3 ≤ r then runPieces b r 1 else []
      literalGroups pend ++ runPieces b 129 (n / 129) ++ tail
        ++ encodeRuns t (if r < 3 then List.replicate r b else [])

/-- Plane p of a chunk: every w-th byte from p. -/
def planeOf (l : List Byte) (w p : Nat) : List Byte :=
  (List.range (ceilDiv (l.length - p) w)).map (fun k => l.getD (p + k * w) 0#8)

/-- Pad to a multiple of 16. -/
def pad16 (l : List Byte) : List Byte := l ++ List.replicate (ceilDiv l.length 16 * 16 - l.length) 0#8

/-- One chunk's record (R160, R161). -/
def encodeChunk (w : Nat) (c : List Byte) : List Byte :=
  let e := (List.range w).flatMap (fun p => encodeRuns (runsOf (planeOf c w p)) [])
  let (m, pay) := if e.length < c.length then (1, e) else (0, c)
  natLe 2 pay.length ++ natLe 2 c.length ++ natLe 1 m ++ natLe 1 w ++ natLe 2 0 ++ natLe 4 (crc32c c) ++ natLe 4 0
    ++ pad16 pay

/-- The chunks of an input. -/
def chunksOf (l : List Byte) : List (List Byte) :=
  (List.range (ceilDiv l.length 4096)).map (fun k => (l.drop (4096 * k)).take 4096)

-- Decoding ------------------------------------------------------------------------------------------------------------

/-- Decode one plane of n bytes: the bytes and what is left of the payload; fuel bounds the control bytes. -/
def decodePlane : Nat → Nat → List Byte → Option (List Byte × List Byte)
  | 0, n, l => if n = 0 then some ([], l) else none
  | fuel + 1, n, l =>
    if n = 0 then some ([], l)
    else match l with
      | [] => none
      | c :: t =>
        let k := c.toNat
        if k < 0x80 then
          if k + 1 ≤ n ∧ k + 1 ≤ t.length then
            (decodePlane fuel (n - (k + 1)) (t.drop (k + 1))).map (fun (d, r) => (t.take (k + 1) ++ d, r))
          else none
        else match t with
          | [] => none
          | b :: t' =>
            if k - 0x7E ≤ n then
              (decodePlane fuel (n - (k - 0x7E)) t').map (fun (d, r) => (List.replicate (k - 0x7E) b ++ d, r))
            else none

/-- Decode planes p, p + 1, … w - 1 of a chunk of n bytes. -/
def decodePlanes (w n : Nat) : Nat → List Byte → Option (List (List Byte) × List Byte)
  | 0, l => some ([], l)
  | k + 1, l => do
    let (d, r) ← decodePlane 4096 (ceilDiv (n - (w - (k + 1))) w) l
    let (ds, r') ← decodePlanes w n k r
    return (d :: ds, r')

/-- Join planes. -/
def joinPlanes (w n : Nat) (ps : List (List Byte)) : List Byte :=
  (List.range n).map (fun i => (ps.getD (i % w) []).getD (i / w) 0#8)

/-- Decode the record at the front of an input: the chunk, the width and the rest; none when it is inconsistent (R162). -/
def decodeChunk (l : List Byte) : Option (List Byte × List Byte) :=
  let plen := fieldAt l 0 2
  let olen := fieldAt l 2 2
  let m := fieldAt l 4 1
  let w := fieldAt l 5 1
  let size := 16 + ceilDiv plen 16 * 16
  let pay := (l.drop 16).take plen
  if l.length < 16 ∨ l.length < size ∨ olen < 128 ∨ 4096 < olen ∨ 1 < m ∨ (w ≠ 1 ∧ w ≠ 2 ∧ w ≠ 4) then none
  else
    let c := if m = 0 then (if plen = olen then some pay else none)
      else match decodePlanes w olen w pay with
        | some (ps, []) => some (joinPlanes w olen ps)
        | _ => none
    match c with
    | some c => if crc32c c = fieldAt l 8 4 then some (c, l.drop size) else none
    | none => none

/-- Decode records until the input ends: the chunks decoded and whether all of it was good. -/
def decodeChunks : Nat → List Byte → List (List Byte) × Bool
  | 0, l => ([], l.isEmpty)
  | n + 1, l =>
    if l.isEmpty then ([], true)
    else match decodeChunk l with
      | none => ([], false)
      | some (c, r) => let (cs, ok) := decodeChunks n r; (c :: cs, ok)

end Sys2Proof.Machine
end

