-- ==== Sys2Proof/Machine/PagerCore.lean ====
section
/-! DEFINITION. The sequence pager: pages and their tiers, free lists, allocation, spill and fill, prefetch moves, and the
checks of the sequence aperture (R208 to R221). The commands of chapter 8 are in Machine/Pager.lean. -/

namespace Sys2Proof.Machine

def State.seq (s : State) (i : Nat) : Seq := s.seqs.get .free i
def State.setSeq (s : State) (i : Nat) (x : Seq) : State := { s with seqs := s.seqs.set .free i x }
def State.modSeq (s : State) (i : Nat) (f : Seq → Seq) : State := s.setSeq i (f (s.seq i))
def State.pgr (s : State) (p : Nat) : Pgr := s.pgrs.get .fresh p
def State.setPgr (s : State) (p : Nat) (x : Pgr) : State := { s with pgrs := s.pgrs.set .fresh p x }
def State.pgal (s : State) (g : Nat) : PGal := s.pgals.get .empty g
def State.modPgal (s : State) (g : Nat) (f : PGal → PGal) : State := { s with pgals := s.pgals.set .empty g (f (s.pgal g)) }

/-- Size of a page. -/
def pageSize : Nat := 65536

/-- The page-list entry of a page. -/
def Seq.page (x : Seq) (k : Nat) : PageEnt := x.pages.get .none k

/-- Set a page-list entry. -/
def State.setPage (s : State) (i k : Nat) (e : PageEnt) : State :=
  s.modSeq i (fun x => { x with pages := x.pages.set .none k e })

/-- Head dimension of a code (R135). -/
def headDim (hd : Nat) : Nat := 64 * 2 ^ hd

/-- Bytes that one token of one head occupies, and tokens per page (R210). -/
def Seq.tokenBytes (x : Seq) : Nat := if x.fmt = 0 then 4 * headDim x.hd else 2 * headDim x.hd + headDim x.hd / 16
def Seq.tpp (x : Seq) : Nat := 64 * (65536 / (64 * x.tokenBytes))

/-- Groups that a sequence may have (R211). -/
def Seq.maxGroups (x : Seq) : Nat := 32767 / max x.nkvh 1

/-- The handle of an entry (R209). -/
def seqHandle (i gen : Nat) : Nat := i + gen * 2 ^ 16

/-- The entry that a handle names for a partition (R209). -/
def State.seqOf (s : State) (p h : Nat) : Option Nat :=
  let i := h % 2 ^ 13
  let x := s.seq i
  if bits h 15 13 = 0 ∧ x.st = 1 ∧ x.gen = bits h 31 16 ∧ x.prt = p then some i else none

/-- Set stamp to the partition's deadline counter (R216). -/
def State.seqStamp (s : State) (i : Nat) : State :=
  s.modSeq i (fun x => { x with stamp := s.rd .DSP_DLCNT_count x.prt })

/-- Record a pager event (R214). -/
def State.pgrFault (s : State) (p cause ctx i : Nat) : State :=
  if s.flag .PRT_PGR_FAULT_valid p then s
  else (((s.wr .PRT_PGR_FAULT_cause p cause).wr .PRT_PGR_FAULT_ctx p ctx).wr .PRT_PGR_FAULT_index p i).wr
    .PRT_PGR_FAULT_valid p 1

-- Pages as lines ------------------------------------------------------------------------------------------------------

/-- A page read by the pager: each 64-byte line with whether it is bad. -/
abbrev PageLines := List (List Byte × Bool)

/-- Read a page of device memory. -/
def State.pageFromMem (s : State) (p ppa : Nat) : PageLines × State :=
  (List.range 1024).foldl (fun (l, s) k =>
    let a := ppa + 64 * k
    let (ok, s) := s.readLine (s.locOf p a) 0
    (l ++ [(s.pmemRd p a 64, !ok)], s)) ([], s)

/-- Write a page of device memory; a bad line is written poisoned. -/
def State.pageToMem (s : State) (p ppa : Nat) (l : PageLines) : State :=
  l.zipIdx.foldl (fun s (x, k) =>
    let a := ppa + 64 * k
    (s.pmemWr p a x.1).setLineBad (s.locOf p a) (if x.2 then 255 else 0)) s

/-- Read a page of a pool region: a line is bad when one of its codewords is. -/
def State.pageFromPool (s : State) (g off : Nat) : PageLines × State :=
  (List.range 1024).foldl (fun (l, s) k =>
    let a := off + 64 * k
    let (ok1, s) := s.readCw g a 7 0
    let (ok2, s) := s.readCw g (a + 32) 7 0
    (l ++ [(s.poolRd g a 64, !(ok1 && ok2))], s)) ([], s)

/-- Write a page of a pool region. -/
def State.pageToPool (s : State) (g off : Nat) (l : PageLines) : State :=
  l.zipIdx.foldl (fun s (x, k) =>
    let a := off + 64 * k
    let bad := if x.2 then 255 else 0
    let s := s.poolWr g a x.1
    { s with poolErr := (s.poolErr.set 0 (s.cwKey g a) bad).set 0 (s.cwKey g (a + 32)) bad }) s

/-- The bytes of a page, and whether a line is bad. -/
def PageLines.bytes (l : PageLines) : List Byte := l.flatMap (·.1)
def PageLines.bad (l : PageLines) : Bool := l.any (·.2)

/-- Bytes as good lines; all of them bad when the source was (R220). -/
def linesFrom (b : List Byte) (bad : Bool) : PageLines := (List.range 1024).map (fun k => ((b.drop (64 * k)).take 64, bad))

-- Free lists ----------------------------------------------------------------------------------------------------------

/-- The first frame of a range from position n on that was not in use when the range moved. -/
def Pgr.nextFrame (x : Pgr) (base n frames : Nat) : Option Nat :=
  ((List.range (x.skip.length + 1)).map (· + n)).find? (fun k => decide (k < frames) && !x.skip.contains (base + k))

/-- Take an HBM frame from the free list: PPA bits [47:16]. The order of the list is not architectural; returned frames
are used first. -/
def State.takeHbm (s : State) (p : Nat) : Option (Nat × State) :=
  let x := s.pgr p
  let free := s.rd .PRT_PGR_FREE_hbm p
  match x.hbmBack with
  | f :: r => some (f, (s.setPgr p { x with hbmBack := r }).wr .PRT_PGR_FREE_hbm p (free - 1))
  | [] =>
    (x.nextFrame (s.rd .PRT_PGR_HBM_base p) x.hbmNext (s.rd .PRT_PGR_HBM_frames p)).map (fun k =>
      (s.rd .PRT_PGR_HBM_base p + k, (s.setPgr p { x with hbmNext := k + 1 }).wr .PRT_PGR_FREE_hbm p (free - 1)))

/-- Take a DDR5 frame. -/
def State.takeDdr (s : State) (p : Nat) : Option (Nat × State) :=
  let x := s.pgr p
  let free := s.rd .PRT_PGR_FREE_ddr p
  match x.ddrBack with
  | f :: r => some (f, (s.setPgr p { x with ddrBack := r }).wr .PRT_PGR_FREE_ddr p (free - 1))
  | [] =>
    (x.nextFrame (s.rd .PRT_PGR_DDR_base p) x.ddrNext (s.rd .PRT_PGR_DDR_frames p)).map (fun k =>
      (s.rd .PRT_PGR_DDR_base p + k, (s.setPgr p { x with ddrNext := k + 1 }).wr .PRT_PGR_FREE_ddr p (free - 1)))

/-- Zero-fill a frame (R213). -/
def State.zeroFrame (s : State) (p frame : Nat) : State :=
  let a := frame * pageSize
  let s := { s with pmem := memZero s.pmem (pmemKey p a) pageSize }
  (linesOf a pageSize).foldl (fun s l => s.setLineBad (s.locOf p l) 0) s

/-- Whether a frame lies in a range. -/
def inRange (base n frame : Nat) : Bool := decide (base ≤ frame) && decide (frame < base + n)

/-- Return an HBM frame, zero-filled (R213): it joins the free list when it lies in the range. -/
def State.giveHbm (s : State) (p frame : Nat) : State :=
  let s := s.zeroFrame p frame
  if !inRange (s.rd .PRT_PGR_HBM_base p) (s.rd .PRT_PGR_HBM_frames p) frame then s else
  (s.setPgr p { s.pgr p with hbmBack := (s.pgr p).hbmBack ++ [frame] }).wr .PRT_PGR_FREE_hbm p
    (s.rd .PRT_PGR_FREE_hbm p + 1)

/-- Return a DDR5 frame, zero-filled. -/
def State.giveDdr (s : State) (p frame : Nat) : State :=
  let s := s.zeroFrame p frame
  if !inRange (s.rd .PRT_PGR_DDR_base p) (s.rd .PRT_PGR_DDR_frames p) frame then s else
  (s.setPgr p { s.pgr p with ddrBack := (s.pgr p).ddrBack ++ [frame] }).wr .PRT_PGR_FREE_ddr p
    (s.rd .PRT_PGR_FREE_ddr p + 1)

-- Pool regions --------------------------------------------------------------------------------------------------------

/-- Pool offset of page k of a gallery's region. -/
def State.regionOff (s : State) (g k : Nat) : Nat := (s.pagerRegion g).1 + k * pageSize

/-- The page of a gallery's region that no page uses and no move goes to. -/
def State.freeRegionPage (s : State) (g : Nat) : Option Nat :=
  let used := (s.pgal g).order.map (fun (i, k) =>
    let e := (s.seq i).page k
    if e.busy then e.tgt else e.frame)
  (List.range ((s.pagerRegion g).2 / pageSize)).find? (fun k => !used.contains (256 * g + k))

/-- Take a page out of the pool region it stands in: its bytes, the region page zero-filled (R213). -/
def State.leaveRegion (s : State) (i k : Nat) : PageLines × State :=
  let e := (s.seq i).page k
  let g := e.frame / 256
  let off := s.regionOff g (e.frame % 256)
  let (l, s) := s.pageFromPool g off
  (l, (s.pageToPool g off (linesFrom (List.replicate pageSize 0#8) false)).modPgal g
    (fun x => { x with order := x.order.filter (fun q => q != (i, k)) }))

-- Active slots --------------------------------------------------------------------------------------------------------

/-- Whether a sequence holds an active slot of any gallery. -/
def State.seqActive (s : State) (i : Nat) : Bool := s.pgals.any (fun e => e.2.slots.any (fun q => q.2 == i))

/-- Whether a sequence holds a slot for a running ATTEND. -/
def State.seqAttended (s : State) (i : Nat) : Bool := s.pgals.any (fun e => e.2.slots.any (fun q => q == (true, i)))

/-- Whether a live hint of a sequence covers a page. -/
def State.hintCovers (s : State) (i k : Nat) : Bool :=
  let x := s.seq i
  let grp := k / max x.nkvh 1
  decide (x.hintLo < x.hintHi) && decide (x.hintLo < (grp + 1) * x.tpp) && decide (grp * x.tpp < x.hintHi)

/-- Cancel the hint of a sequence: its slot is free. -/
def State.cancelHint (s : State) (i : Nat) : State :=
  let x := s.seq i
  if x.hintLo < x.hintHi then
    (s.modPgal x.hintGal (fun y => { y with slots := y.slots.erase (false, i) })).setSeq i
      { x with hintLo := 0, hintHi := 0, hintGal := 0 }
  else s

/-- Take an active slot: with all 8 in use, the hint written first is cancelled (R217). -/
def State.takeSlot (s : State) (g : Nat) (attend : Bool) (i : Nat) : State :=
  let s := if (s.pgal g).slots.length < 8 then s
    else match (s.pgal g).slots.find? (fun q => !q.1) with
      | some (_, j) => s.cancelHint j
      | none => s
  s.modPgal g (fun y => { y with slots := y.slots ++ [(attend, i)] })

/-- Give a running ATTEND's slot back. -/
def State.dropAttend (s : State) (g : Nat) : State :=
  s.modPgal g (fun y => { y with slots := y.slots.filter (fun q => !q.1) })

-- Spill and fill ------------------------------------------------------------------------------------------------------

/-- The page a sequence would give up: its lowest page in HBM that no move holds. -/
def Seq.victimPage (x : Seq) : Option Nat := (x.pages.find? (fun e => e.2.tier == 2 && !e.2.busy)).map (·.1)

/-- Whether victim b goes before victim a (R219): colder class, older stamp. Rising index breaks ties. -/
def Seq.before (b a : Seq) : Bool := decide (a.cls < b.cls) || (a.cls == b.cls && decide (b.stamp < a.stamp))

/-- The victim of R219: sequence and page. -/
def State.victim (s : State) (p : Nat) : Option (Nat × Nat) :=
  let ok := fun (e : Nat × Seq) => e.2.st == 1 && e.2.prt == p && e.2.cls != 0 && e.2.victimPage.isSome && !s.seqActive e.1
  let best := (s.seqs.filter ok).foldl (fun b e => match b with
    | none => some e
    | some a => if e.2.before a.2 then some e else some a) none
  match best with
  | some (i, x) => x.victimPage.map (fun k => (i, k))
  | none => none

/-- Compress a page for DDR5 (R220): its record, when it fits the capacity. -/
def pageRecord (fmt : Nat) (b : List Byte) : Option (List Byte) :=
  let r := (chunksOf b).flatMap (encodeChunk (if fmt = 0 then 2 else 1))
  if r.length ≤ pageSize then some r else none

/-- How a spill ends. -/
inductive Spill where
  | done
  | noVictim
  | noDdr
  deriving DecidableEq, Repr

/-- Spill one page to DDR5 (R219, R220, R213). -/
def State.spillOne (s : State) (p : Nat) : Spill × State :=
  match s.victim p with
  | none => (.noVictim, s)
  | some (i, k) =>
    match s.takeDdr p with
    | none => (.noDdr, s)
    | some (d, s) =>
      let x := s.seq i
      let e := x.page k
      let (l, s) := s.pageFromMem p (e.frame * pageSize)
      let rec' := if x.cmp && !l.bad then pageRecord x.fmt l.bytes else none
      let (s, c, n) := match rec' with
        | some r => (s.pageToMem p (d * pageSize)
            (linesFrom (r ++ List.replicate (pageSize - r.length) 0#8) false), true, r.length / 16)
        | none => (s.pageToMem p (d * pageSize) l, false, 0)
      let s := s.giveHbm p e.frame
      let s := s.setPage i k ⟨3, c, false, n % 4096, d, 0⟩
      (.done, s.count .PRT_PGR_SPILL_count .PRT_PGR_SPILL_ovf p 1)

/-- An HBM frame for an allocation or a fill: an empty free list spills one victim first (*Exhaustion*). -/
def State.frameFor (s : State) (p : Nat) : Option Nat × State :=
  match s.takeHbm p with
  | some (f, s) => (some f, s)
  | none => match s.spillOne p with
    | (.done, s) => (match s.takeHbm p with
      | some (f, s) => (some f, s)
      | none => (none, s))
    | (_, s) => (none, s)

/-- The page as DDR5 holds it, decompressed when it is a record; its frame goes back to the free list (R220, R221). -/
def State.leaveDdr (s : State) (i k : Nat) : PageLines × State :=
  let x := s.seq i
  let e := x.page k
  let (l, s) := s.pageFromMem x.prt (e.frame * pageSize)
  let l := if e.cmp then
      let (cs, ok) := decodeChunks 16 ((l.bytes).take (if e.clen = 0 then pageSize else 16 * e.clen))
      let b := cs.flatten
      linesFrom b (l.bad || !ok || b.length != pageSize)
    else l
  (l, (s.giveDdr x.prt e.frame).count .PRT_PGR_FILL_count .PRT_PGR_FILL_ovf x.prt 1)

/-- Take a page out of wherever it stands. -/
def State.leavePlace (s : State) (i k : Nat) : PageLines × State :=
  let x := s.seq i
  let e := x.page k
  match e.tier with
  | 1 => s.leaveRegion i k
  | 2 =>
    let (l, s) := s.pageFromMem x.prt (e.frame * pageSize)
    (l, s.giveHbm x.prt e.frame)
  | _ => s.leaveDdr i k

/-- Bring a page into HBM; false when no frame can be had. -/
def State.toHbm (s : State) (i k : Nat) : Bool × State :=
  let x := s.seq i
  if (x.page k).tier = 2 then (true, s)
  else match s.frameFor x.prt with
    | (none, s) => (false, s)
    | (some f, s) =>
      let (l, s) := s.leavePlace i k
      (true, (s.pageToMem x.prt (f * pageSize) l).setPage i k ⟨2, false, false, 0, f, 0⟩)

-- Prefetch ------------------------------------------------------------------------------------------------------------

/-- Finish the move of a page into the pool region it was promised (R218). -/
def State.finishMove (s : State) (i k : Nat) : State :=
  let e := (s.seq i).page k
  if !e.busy then s
  else
    let g := e.tgt / 256
    let (l, s) := s.leavePlace i k
    let s := s.pageToPool g (s.regionOff g (e.tgt % 256)) l
    let s := s.modPgal g (fun x => { x with order := x.order.filter (fun q => q != (i, k)) ++ [(i, k)] })
    s.setPage i k ⟨1, false, false, 0, e.tgt, 0⟩

/-- Make room in a gallery's region: the oldest page that no ATTEND and no live hint holds goes back to HBM (R218). -/
def State.evictRegion (s : State) (g : Nat) : Bool × State :=
  match (s.pgal g).order.find? (fun (i, k) => !((s.seq i).page k).busy && !s.seqAttended i && !s.hintCovers i k) with
  | none => (false, s)
  | some (i, k) => s.toHbm i k

/-- Start the moves of a hint: every allocated page that covers it, in rising list index; false once none can move (R218). -/
def State.prefetch (s : State) (i : Nat) : State :=
  let x := s.seq i
  let g := x.hintGal
  let lo := x.hintLo / x.tpp * x.nkvh
  let hi := min (((x.hintHi - 1) / x.tpp + 1) * x.nkvh) (x.groups * x.nkvh)
  let r := ((List.range (hi - lo)).map (· + lo)).foldl (fun (r : Bool × State) k =>
    let s := r.2
    let e := (s.seq i).page k
    if !r.1 || e.tier == 0 || e.busy || (e.tier == 1 && e.frame / 256 == g) then r
    else
      let (ok, s) := match s.freeRegionPage g with
        | some _ => (true, s)
        | none => s.evictRegion g
      match ok, s.freeRegionPage g with
      | true, some t =>
        let e := (s.seq i).page k
        (true, (s.setPage i k { e with busy := true, tgt := 256 * g + t }).modPgal g
          (fun y => { y with order := y.order ++ [(i, k)] }))
      | _, _ => (false, s)) (true, s)
  r.2

-- Allocation ----------------------------------------------------------------------------------------------------------

/-- n frames, or none with those taken given back. -/
def State.takeFrames (s : State) (p : Nat) : Nat → List Nat → Option (List Nat) × State
  | 0, got => (some got, s)
  | n + 1, got => match s.frameFor p with
    | (some f, s) => s.takeFrames p n (got ++ [f])
    | (none, s) => (none, got.foldl (fun s f => s.giveHbm p f) s)

/-- Allocate one page group: its pages and, where the list needs it, a list page (R211, R215). -/
def State.allocGroup (s : State) (i : Nat) : Bool × State :=
  let x := s.seq i
  let needList := decide (8192 * x.lists.length < (x.groups + 1) * x.nkvh)
  match s.takeFrames x.prt (x.nkvh + b2n needList) [] with
  | (none, s) => (false, s)
  | (some fs, s) =>
    let s := ((fs.take x.nkvh).zipIdx).foldl (fun s (f, h) =>
      s.setPage i (x.groups * x.nkvh + h) ⟨2, false, false, 0, f, 0⟩) s
    (true, s.modSeq i (fun y => { y with groups := y.groups + 1, lists := y.lists ++ fs.drop x.nkvh }))

/-- Allocate groups until n exist; n counts the groups to add at most (R215). -/
def State.allocTo (s : State) (i : Nat) : Nat → Nat → Bool × State
  | 0, _ => (true, s)
  | n + 1, want =>
    if want ≤ (s.seq i).groups then (true, s)
    else match s.allocGroup i with
      | (false, s) => (false, s)
      | (true, s) => s.allocTo i n want

-- Aperture ------------------------------------------------------------------------------------------------------------

/-- How an access of the aperture ends. -/
inductive SeqRes where
  | ok (data : List Byte)
  | refused
  | poison (l : Loc)
  | poolUE (g off : Nat)
  deriving DecidableEq, Repr

/-- Whether a context may reach an entry (R214). -/
def State.seqMay (s : State) (c i : Nat) : Bool :=
  let x := s.seq i
  x.st == 1 && x.prt == (s.ctx c).prt && (x.ctx == c || x.shared)

/-- Read n bytes at an offset of an allocated page where it stands; DDR5 pages come back to HBM first (R221). -/
def State.pageRead (s : State) (c i k off n : Nat) : SeqRes × State :=
  let x := s.seq i
  let e := x.page k
  if e.tier = 0 then (.ok (List.replicate n 0#8), s)
  else
    let (ok, s) := if e.tier = 3 then s.toHbm i k else (true, s)
    if !ok then (.refused, s.pgrFault x.prt 1 c i)
    else
      let e := (s.seq i).page k
      if e.tier = 1 then
        let g := e.frame / 256
        match s.poolRead g (s.regionOff g (e.frame % 256) + off) n 7 c with
        | (.ok b, s) => (.ok b, s)
        | (.ue o, s) => (.poolUE g o, s)
      else
        let a := e.frame * pageSize + off
        match s.readLines x.prt a n c with
        | (none, s) => (.ok (s.pmemRd x.prt a n), s)
        | (some l, s) => (.poison l, s)

/-- Write bytes to an allocated page; a move of the page ends first (R221). -/
def State.pageWrite (s : State) (c i k off : Nat) (b : List Byte) : SeqRes × State :=
  let s := s.finishMove i k
  let x := s.seq i
  let (ok, s) := if (x.page k).tier = 3 then s.toHbm i k else (true, s)
  if !ok then (.refused, s.pgrFault x.prt 1 c i)
  else
    let e := (s.seq i).page k
    if e.tier = 1 then
      let g := e.frame / 256
      match s.poolWrite g (s.regionOff g (e.frame % 256) + off) 7 c b with
      | (.ok _, s) => (.ok [], s)
      | (.ue o, s) => (.poolUE g o, s)
    else match s.writeLines x.prt (e.frame * pageSize + off) c b with
      | (none, s) => (.ok [], s)
      | (some l, s) => (.poison l, s)

/-- Offset of the control line (R214). -/
def ctlOff : Nat := 0x7FFF0000

/-- The control line as read (R215). -/
def Seq.ctlBytes (x : Seq) : List Byte :=
  natLe 8 x.len ++ natLe 4 x.hintLo ++ natLe 4 x.hintHi ++ natLe 1 x.cls ++ List.replicate 111 0#8

/-- A write of the control line from gallery g (R215, R217, R218). -/
def State.ctlWrite (s : State) (g c i : Nat) (l : CtlLine) : SeqRes × State :=
  let x := s.seq i
  if l.rest ≠ 0 ∨ (2 < l.cls ∧ l.cls ≠ 0xFF) then (.refused, s.pgrFault x.prt 0 c i)
  else if x.maxGroups * x.tpp < l.len then (.refused, s.pgrFault x.prt 3 c i)
  else
    let want := ceilDiv l.len x.tpp
    match s.allocTo i (want - x.groups) want with
    | (false, s) => (.refused, s.pgrFault x.prt 1 c i)
    | (true, s) =>
      let s := s.modSeq i (fun y => { y with len := max y.len l.len, cls := if l.cls = 0xFF then y.cls else l.cls })
      let s := if l.hintLo = 0xFFFFFFFF ∧ l.hintHi = 0xFFFFFFFF then s
        else
          let s := s.cancelHint i
          if l.hintHi ≤ l.hintLo then s
          else
            let s := s.takeSlot g false i
            (s.modSeq i (fun y => { y with hintLo := l.hintLo, hintHi := l.hintHi, hintGal := g })).prefetch i
      (.ok [], s)

/-- Parse a control line. -/
def ctlOf (b : List Byte) : CtlLine :=
  ⟨fieldAt b 0 8, fieldAt b 8 4, fieldAt b 12 4, fieldAt b 16 1, leNat (b.drop 17)⟩

/-- An access to one page or the control line of the aperture, from gallery g for context c (R214 to R216, R221): wr holds
the bytes of a write. -/
def State.seqPiece (s : State) (g c va n : Nat) (wr : Option (List Byte)) : SeqRes × State :=
  let i := (va - 0xE00000000000) / 2 ^ 31
  let o := va % 2 ^ 31
  let p := (s.ctx c).prt
  if 8192 ≤ i ∨ !s.seqMay c i then (.refused, s.pgrFault p 0 c (i % 8192))
  else
    let x := s.seq i
    let s := s.seqStamp i
    if ctlOff < o + n then
      if o = ctlOff ∧ n = 128 then
        match wr with
        | none => (.ok x.ctlBytes, s)
        | some b => s.ctlWrite g c i (ctlOf b)
      else (.refused, s.pgrFault p 0 c i)
    else
      let k := o / pageSize
      match wr with
      | none => s.pageRead c i k (o % pageSize) n
      | some b =>
        let grp := k / max x.nkvh 1
        if x.maxGroups ≤ grp then (.refused, s.pgrFault p 3 c i)
        else match s.allocTo i (grp + 1 - x.groups) (grp + 1) with
          | (false, s) => (.refused, s.pgrFault p 1 c i)
          | (true, s) => s.pageWrite c i k (o % pageSize) b

end Sys2Proof.Machine
end

