-- ==== Sys2Proof/Machine/Xlt.lean ====
section
/-! DEFINITION. Address translation: the walk of R282 to R285, the access checks of R286, windows at the initiator (R296)
and far accesses of device virtual addresses, shared by far moves, engines and Huaton arrivals. -/

namespace Sys2Proof.Machine

/-- What a walk finds. -/
inductive Walk where
  /-- Device memory: PPA, pinned, read-only. -/
  | dev (ppa : Nat) (pin ro : Bool)
  /-- Host memory: host address, pinned, read-only. -/
  | host (addr : Nat) (pin ro : Bool)
  /-- No valid leaf: the level of the invalid entry. -/
  | unmapped (level : Nat)
  | malformed
  deriving DecidableEq, Repr

/-- Size of the pages a level's leaf maps, and of its tables (R282). -/
def levelShift : Nat → Nat
  | 0 => 39
  | 1 => 30
  | 2 => 21
  | _ => 16
def levelBits (l : Nat) : Nat := if l = 3 then 5 else 9
def tableBytes (l : Nat) : Nat := if l = 3 then 256 else 4096

/-- Whether a table lies wholly inside the partition's mapped space (R283). -/
def State.tableOk (s : State) (p ppa l : Nat) : Bool :=
  ppa % tableBytes l == 0 && s.mapped p ppa (tableBytes l)

/-- Walk from level 4 - n with n levels left, in the table at ppa. -/
def State.walkGo (s : State) (p va : Nat) : Nat → Nat → Walk
  | 0, _ => .malformed
  | n + 1, ppa =>
    let l := 3 - n
    if !s.tableOk p ppa l then .malformed
    else
      let e := leNat (s.pmemRd p (ppa + 8 * bits va (levelShift l + levelBits l - 1) (levelShift l)) 8)
      if !bit e 0 then .unmapped l
      else if bit e 1 then
        -- a leaf
        if l = 0 then .malformed
        else if bits e 7 5 != 0 || bits e 15 8 != 0 || (!bit e 2 && bits e 63 48 != 0) then .malformed
        else
          let addr := bits e 47 16 * 65536 + (if bit e 2 then bits e 63 48 * 2 ^ 48 else 0)
          if addr % 2 ^ levelShift l != 0 then .malformed
          else
            let a := addr + va % 2 ^ levelShift l
            if bit e 2 then .host a (bit e 3) (bit e 4) else .dev a (bit e 3) (bit e 4)
      else
        -- a pointer to the next table
        if l = 3 then .malformed
        else if bits e 7 2 != 0 || bits e 63 48 != 0 then .malformed
        else s.walkGo p va n (bits e 47 8 * 256)

/-- Translate a virtual address of a context (R282): without a root everything is unmapped at level 0. -/
def State.walk (s : State) (c va : Nat) : Walk :=
  let x := s.ctx c
  match x.root with
  | none => .unmapped 0
  | some r => s.walkGo x.prt va 4 r

/-- Record the first fatal translation fault of a partition (R286). -/
def State.xlateFault (s : State) (c va : Nat) : State :=
  let p := (s.ctx c).prt
  if s.flag .XLT_FAULT_LAST_valid p then s
  else ((s.wr .XLT_FAULT_LAST_addr p va).wr .XLT_FAULT_LAST_ctx p c).wr .XLT_FAULT_LAST_valid p 1

/-- Where one stretch of a far access goes after the checks of R286 for a compute engine. -/
inductive FarTo where
  | dev (ppa : Nat)
  | host (addr : Nat)
  | refused
  deriving DecidableEq, Repr

/-- The check of R286 for a compute engine: only pinned leaves, writable for a write. -/
def Walk.compute (w : Walk) (wr : Bool) : FarTo :=
  match w with
  | .dev a pin ro => if pin && !(wr && ro) then .dev a else .refused
  | .host a pin ro => if pin && !(wr && ro) then .host a else .refused
  | _ => .refused

/-- The 64 KiB pieces of a range of virtual addresses: start and length of each. -/
def pieces (va len sz : Nat) : List (Nat × Nat) :=
  (pagesOf va len sz).map (fun pg =>
    let lo := max va (pg * sz)
    (lo, min (va + len) ((pg + 1) * sz) - lo))

/-- Ranges of R281. -/
def isWindow (va : Nat) : Bool := decide (0xF00000000000 ≤ va)
def isSeqAperture (va : Nat) : Bool := decide (0xE00000000000 ≤ va) && decide (va < 0xF00000000000)

/-- The window and offset of a window address (R101). -/
def winOf (va : Nat) : Nat := bits va 43 32
def winOff (va : Nat) : Nat := bits va 31 0

/-- Window rights (R295). -/
def rREAD : Nat := 0
def rWRITE : Nat := 1
def rATOMIC : Nat := 2
def rREDUCE : Nat := 3
def rMESSAGE : Nat := 4

/-- The initiator's check of an access to a window (R296). -/
def State.winOk (s : State) (c w off len right : Nat) : Bool :=
  let x := s.win w
  x.kind == 2 && x.ctx == c && decide (off + len ≤ x.size) && bit x.rights right

/-- The PASID a context's host accesses carry (R256, R285). -/
def Ctx.dmaPasid (x : Ctx) : Option Nat := if x.nopasid then none else some x.pasid

/-- How a far read or write ends. -/
inductive FarRes where
  | ok (data : List Byte)
  /-- Refused by the tables (R286) or by the pager (R214): the address. -/
  | xlate (va : Nat)
  /-- Refused by the page-owner check: the context is faulted already. -/
  | owner
  | poison (l : Loc)
  | poolUE (g off : Nat)
  deriving DecidableEq, Repr

/-- Whether one piece of a range may be reached: the tables for the translated range, the pager for the aperture. -/
def State.pieceOk (s : State) (c a n : Nat) (wr : Bool) : Bool :=
  if isSeqAperture a then
    let i := (a - 0xE00000000000) / 2 ^ 31
    let o := a % 2 ^ 31
    s.seqMay c i && (decide (o + n ≤ ctlOff) || (o == ctlOff && n == 128))
  else if isWindow a then false
  else match (s.walk c a).compute wr with
    | .refused => false
    | _ => true

/-- Whether every piece of a range may be reached by a compute engine. -/
def State.farOk (s : State) (c va len : Nat) (wr : Bool) : Bool :=
  (pieces va len 65536).all (fun (a, n) => s.pieceOk c a n wr)

/-- Record a refused far access where its first refused piece says (R214, R286). -/
def State.farRefuse (s : State) (c va len : Nat) (wr : Bool) : State :=
  match (pieces va len 65536).find? (fun (a, n) => !s.pieceOk c a n wr) with
  | none => s
  | some (a, _) =>
    if isSeqAperture a then s.pgrFault (s.ctx c).prt 0 c ((a - 0xE00000000000) / 2 ^ 31 % 8192) else s.xlateFault c a

/-- One piece of a read by a compute engine of gallery g. -/
def State.readPiece (s : State) (g c a n : Nat) : FarRes × State :=
  if isSeqAperture a then
    match s.seqPiece g c a n none with
    | (.ok b, s) => (.ok b, s)
    | (.refused, s) => (.xlate a, s)
    | (.poison l, s) => (.poison l, s)
    | (.poolUE h o, s) => (.poolUE h o, s)
  else if isWindow a then (.xlate a, s.xlateFault c a)
  else match (s.walk c a).compute false with
    | .refused => (.xlate a, s.xlateFault c a)
    | .host h =>
      if s.tdiDrops (s.part (s.ctx c).prt).func then (.xlate a, s.xlateFault c a)
      else (.ok (s.hostRd (s.ctx c).dmaPasid h n), s)
    | .dev ppa => match s.memRead (s.ctx c).prt ppa n c with
      | (.ok b, s) => (.ok b, s)
      | (.refused, s) => (.owner, s)
      | (.poison l, s) => (.poison l, s)

/-- One piece of a write by a compute engine of gallery g. -/
def State.writePiece (s : State) (g c a : Nat) (b : List Byte) : FarRes × State :=
  if isSeqAperture a then
    match s.seqPiece g c a b.length (some b) with
    | (.ok _, s) => (.ok [], s)
    | (.refused, s) => (.xlate a, s)
    | (.poison l, s) => (.poison l, s)
    | (.poolUE h o, s) => (.poolUE h o, s)
  else if isWindow a then (.xlate a, s.xlateFault c a)
  else match (s.walk c a).compute true with
    | .refused => (.xlate a, s.xlateFault c a)
    | .host h => (.ok [], s.hostWr (s.part (s.ctx c).prt).func (s.ctx c).dmaPasid h b)
    | .dev ppa => match s.memWrite (s.ctx c).prt ppa c b with
      | (.ok _, s) => (.ok [], s)
      | (.refused, s) => (.owner, s)
      | (.poison l, s) => (.poison l, s)

/-- Whether a read of a range waits for its function to leave D3hot, because a page of it lies in host memory (R278). -/
def State.hostHeld (s : State) (c va len : Nat) : Bool :=
  (s.func (s.part (s.ctx c).prt).func).d3 && (pieces va len 65536).any (fun (a, _) =>
    match s.walk c a with
    | .host .. => true
    | _ => false)

/-- Read a range of a context's virtual addresses as a compute engine of gallery g. -/
def State.farRead (s : State) (g c va len : Nat) : FarRes × State :=
  (pieces va len 65536).foldl (fun (r, s) (a, n) =>
    match r with
    | .ok d => (match s.readPiece g c a n with
      | (.ok b, s) => (.ok (d ++ b), s)
      | (r, s) => (r, s))
    | r => (r, s)) (.ok [], s)

/-- Write a range of a context's virtual addresses as a compute engine of gallery g. -/
def State.farWrite (s : State) (g c va : Nat) (data : List Byte) : FarRes × State :=
  (pieces va data.length 65536).foldl (fun (r, s) (a, n) =>
    match r with
    | .ok _ => s.writePiece g c a ((data.drop (a - va)).take n)
    | r => (r, s)) (.ok [], s)

end Sys2Proof.Machine
end

