-- ==== Sys2Proof/Machine/Pager.lean ====
section
/-! DEFINITION. The sequence pager's commands: the aperture and its control line, page moves, background spill, and the
commands of PRT_SEQ_CMD (R208 to R224). -/

namespace Sys2Proof.Machine

-- Aperture ------------------------------------------------------------------------------------------------------------

/-- Answer an access of the aperture by gallery g for a context, with the fault that bad data raises. -/
def State.seqReply (s : State) (g c : Nat) (r : FarRes) : State :=
  match r with
  | .ok b => s.emit (.reply [mOK] b)
  | .xlate _ | .owner => s.emit (.reply [mREFUSED] [])
  | .poison l => (s.poisonFault c g 0xFF l).emit (.reply [mPOISON] [])
  | .poolUE h o => (s.ctxFault c cfPOISON 0 g 0xFF (s.cwInfo h o)).emit (.reply [mPOISON] [])

/-- `SEQUENCE_APERTURE_ACCESS` (R214, R215). -/
def execSequenceApertureAccess (g ctx addr len : Nat) (wr : Option (List Byte)) (s : State) :
    Host.Outcome State Fault Refusal :=
  checked s (.sequenceApertureAccess g ctx addr len wr)
    (if !isSeqAperture addr then s
     else
       let (r, s) := match wr with
         | none => s.farRead g ctx addr len
         | some b => s.farWrite g ctx addr b
       s.seqReply g ctx r)

/-- Address of a sequence's control line (R214). -/
def ctlAddr (idx : Nat) : Nat := 0xE00000000000 + idx * 2 ^ 31 + ctlOff

/-- The 128 bytes of a control line. -/
def ctlLineBytes (l : CtlLine) : List Byte :=
  natLe 8 l.len ++ natLe 4 l.hintLo ++ natLe 4 l.hintHi ++ natLe 1 l.cls ++ natLe 111 l.rest

/-- `CONTROL_LINE_WRITE`: one aligned access of 128 bytes (R214, R215). -/
def execControlLineWrite (g ctx idx : Nat) (l : CtlLine) (s : State) : Host.Outcome State Fault Refusal :=
  checked s (.controlLineWrite g ctx idx l)
    (let (r, s) := s.writePiece g ctx (ctlAddr idx) (ctlLineBytes l)
     s.seqReply g ctx r)

/-- `CONTROL_LINE_READ`. -/
def execControlLineRead (g ctx idx : Nat) (s : State) : Host.Outcome State Fault Refusal :=
  checked s (.controlLineRead g ctx idx)
    (let (r, s) := s.readPiece g ctx (ctlAddr idx) 128
     s.seqReply g ctx r)

-- Moves and spill -----------------------------------------------------------------------------------------------------

/-- `PAGE_MOVE_DONE` (R218). -/
def execPageMoveDone (idx page : Nat) (s : State) : Host.Outcome State Fault Refusal :=
  checked s (.pageMoveDone idx page) (s.finishMove idx page)

/-- Spill pages until the free count reaches a mark, at most n of them; an empty DDR5 free list ends it and is recorded (R219,
*Exhaustion*). -/
def State.spillTo (s : State) (p mark : Nat) : Nat → State
  | 0 => s
  | n + 1 =>
    if mark ≤ s.rd .PRT_PGR_FREE_hbm p then s
    else
      let v := (s.victim p).map (·.1)
      match s.spillOne p with
      | (.done, s) => s.spillTo p mark n
      | (.noVictim, s) => s
      | (.noDdr, s) => s.pgrFault p 2 0 (v.getD 0)

/-- `BACKGROUND_SPILL`: while the free count is below lowat, up to hiwat. -/
def execBackgroundSpill (p : Nat) (s : State) : Host.Outcome State Fault Refusal :=
  checked s (.backgroundSpill p)
    (let lo := s.rd .PRT_PGR_WMARK_lowat p
     let hi := max lo (s.rd .PRT_PGR_WMARK_hiwat p)
     let free := s.rd .PRT_PGR_FREE_hbm p
     if free < lo then s.spillTo p hi (min (hi - free) (s.rd .PRT_PGR_HBM_frames p)) else s)

-- Commands ------------------------------------------------------------------------------------------------------------

/-- Errors of PRT_SEQ_CMD. -/
def sqQUOTA : Nat := 1
def sqHANDLE : Nat := 2
def sqARG : Nat := 3
def sqFRAME : Nat := 4

/-- Whether a source may start a command: one at a time, a write of go while busy is ignored (R222). -/
def State.seqCmdOk (s : State) (src : Src) (p : Nat) : Bool := s.reachesPrt src p && !s.flag .PRT_SEQ_CMD_busy p

/-- Finish a command with an error code. -/
def State.seqErr (s : State) (p e : Nat) : State := s.wr .PRT_SEQ_CMD_err p e

/-- Whether the arguments of a create are valid: a head dimension, a class, a number of heads and a context of the
partition. -/
def State.seqArgOk (s : State) (p : Nat) : Bool :=
  let n := s.rd .PRT_SEQ_ARG_nkvh p
  let c := s.ctx (s.rd .PRT_SEQ_ARG_ctx p)
  s.rd .PRT_SEQ_ARG_hd p != 3 && s.rd .PRT_SEQ_ARG_class p != 3 && decide (1 ≤ n) && decide (n ≤ 64)
    && c.st != 0 && c.prt == p

/-- Entries of a partition in use. -/
def State.seqsOf (s : State) (p : Nat) : List Nat :=
  (s.seqs.filter (fun e => e.2.st != 0 && e.2.prt == p)).map (·.1)

/-- The lowest free table entry. -/
def State.freeSeqIdx (s : State) : Option Nat := (List.range 8192).find? (fun i => (s.seq i).st == 0)

/-- Create a sequence (R222). -/
def State.seqMake (s : State) (p : Nat) : State :=
  if !s.seqArgOk p then s.seqErr p sqARG
  else if (s.part p).seqQuota ≤ (s.seqsOf p).length then s.seqErr p sqQUOTA
  else match s.freeSeqIdx with
    | none => s.seqErr p sqQUOTA
    | some i => match s.frameFor p with
      | (none, s) => s.seqErr p sqFRAME
      | (some f, s) =>
        let gen := (s.seq i).gen
        let s := s.setSeq i
          { Seq.free with gen := gen, st := 1, prt := p, ctx := s.rd .PRT_SEQ_ARG_ctx p, fmt := s.rd .PRT_SEQ_ARG_fmt p,
                          hd := s.rd .PRT_SEQ_ARG_hd p, nkvh := s.rd .PRT_SEQ_ARG_nkvh p,
                          cls := s.rd .PRT_SEQ_ARG_class p, shared := s.flag .PRT_SEQ_ARG_shared p,
                          cmp := s.flag .PRT_SEQ_ARG_cmp p, lists := [f] }
        (s.wr .PRT_SEQ_CMD_handle p (seqHandle i gen)).seqErr p 0

/-- `SEQ_CREATE`. -/
def execSeqCreate (src : Src) (p : Nat) (s : State) : Host.Outcome State Fault Refusal :=
  checked s (.seqCreate src p) (if s.seqCmdOk src p then s.seqMake p else s)

/-- `SEQ_DESTROY`: the entry is condemned at once (R223). -/
def execSeqDestroy (src : Src) (p : Nat) (s : State) : Host.Outcome State Fault Refusal :=
  checked s (.seqDestroy src p)
    (if !s.seqCmdOk src p then s
     else match s.seqOf p (s.rd .PRT_SEQ_CMD_handle p) with
       | none => s.seqErr p sqHANDLE
       | some i => (((s.cancelHint i).modSeq i (fun x => { x with st := 2 })).wr .PRT_SEQ_CMD_busy p 1).seqErr p 0)

/-- Whether a condemned sequence may be torn down: no ATTEND runs on it and no page of it moves. -/
def State.seqQuiet (s : State) (i : Nat) : Bool :=
  !s.seqAttended i && (s.seq i).pages.all (fun e => !e.2.busy)

/-- Return a page of a sequence to its free list, zero-filled (R213). -/
def State.dropPage (s : State) (i k : Nat) : State :=
  let x := s.seq i
  let e := x.page k
  let s := match e.tier with
    | 1 => (s.leaveRegion i k).2
    | 2 => s.giveHbm x.prt e.frame
    | 3 => s.giveDdr x.prt e.frame
    | _ => s
  s.setPage i k .none

/-- Give back everything a sequence holds and free its entry: the generation advances (R209, R223). -/
def State.freeSeq (s : State) (i : Nat) : State :=
  let s := s.cancelHint i
  let x := s.seq i
  let s := s.each (x.pages.map (·.1)) (fun s k => (s.finishMove i k).dropPage i k)
  let s := s.each x.lists (fun s f => s.giveHbm x.prt f)
  let s := s.each (s.pgals.map (·.1)) (fun s g => s.modPgal g (fun y => { y with slots := y.slots.filter (fun q => q.2 != i) }))
  s.setSeq i { Seq.free with gen := (x.gen + 1) % 2 ^ 16 }

/-- `SEQ_DESTROY_DONE`: the condemned sequence of the partition is gone. -/
def execSeqDestroyDone (p : Nat) (s : State) : Host.Outcome State Fault Refusal :=
  checked s (.seqDestroyDone p)
    (if !s.flag .PRT_SEQ_CMD_busy p then s
     else match s.seqs.find? (fun e => e.2.st == 2 && e.2.prt == p) with
       | some e => if s.seqQuiet e.1 then (s.freeSeq e.1).wr .PRT_SEQ_CMD_busy p 0 else s
       | none => s.wr .PRT_SEQ_CMD_busy p 0)

/-- `SEQ_SET_CLASS`. -/
def execSeqSetClass (src : Src) (p : Nat) (s : State) : Host.Outcome State Fault Refusal :=
  checked s (.seqSetClass src p)
    (if !s.seqCmdOk src p then s
     else match s.seqOf p (s.rd .PRT_SEQ_CMD_handle p) with
       | none => s.seqErr p sqHANDLE
       | some i =>
         let c := s.rd .PRT_SEQ_ARG_class p
         if c = 3 then s.seqErr p sqARG else (s.modSeq i (fun x => { x with cls := c })).seqErr p 0)

/-- `SEQ_QUERY`. -/
def execSeqQuery (src : Src) (p : Nat) (s : State) : Host.Outcome State Fault Refusal :=
  checked s (.seqQuery src p)
    (if !s.seqCmdOk src p then s
     else match s.seqOf p (s.rd .PRT_SEQ_CMD_handle p) with
       | none => s.seqErr p sqHANDLE
       | some i =>
         let x := s.seq i
         (((s.wr .PRT_SEQ_INFO_len p x.len).wr .PRT_SEQ_INFO_groups p x.groups).wr .PRT_SEQ_INFO_state p x.st).seqErr p 0)

end Sys2Proof.Machine
end

