-- ==== Sys2Proof/Machine/Crypto.lean ====
section
/-! DEFINITION. The cryptographic functions that the spec names: SHA-512, HMAC and HKDF over it (RFC 5869), Ed25519 (RFC
8032), as R225, R228, R345, R418 and R421 use them. The spec takes them from those standards; log entry 13. -/

namespace Sys2Proof.Machine

-- SHA-512 -------------------------------------------------------------------------------------------------------------

/-- Integer root: the largest r below 2^n with r^k ≤ x, one bit per step. -/
def rootGo (k x : Nat) : Nat → Nat → Nat
  | 0, r => r
  | n + 1, r => rootGo k x n (if (r + 2 ^ n) ^ k ≤ x then r + 2 ^ n else r)

/-- The first 64 bits of the fractional part of the k-th root of p. -/
def rootFrac (k p : Nat) : Nat := rootGo k (p * 2 ^ (64 * k)) 70 0 % 2 ^ 64

/-- Whether n has no divisor from 2 to n - 1. -/
def isPrime (n : Nat) : Bool := decide (2 ≤ n) && (List.range n).all (fun d => decide (d < 2) || n % d != 0)

/-- The primes below 410, of which there are 80. -/
def primes80 : List Nat := (List.range 410).filter isPrime

/-- Round constants and initial state. -/
def shaK : List Nat := primes80.map (rootFrac 3)
def shaH : List Nat := (primes80.take 8).map (rootFrac 2)

/-- Rotate and shift right on 64 bits. -/
def rotr (x n : Nat) : Nat := (x >>> n) ||| (x <<< (64 - n)) % 2 ^ 64
def m64 (x : Nat) : Nat := x % 2 ^ 64

/-- Message schedule: the last 16 words, newest first, grow by one word a step. -/
def shaNext (w : List Nat) : Nat :=
  let a := w.getD 14 0
  let b := w.getD 1 0
  let s0 := rotr a 1 ^^^ rotr a 8 ^^^ (a >>> 7)
  let s1 := rotr b 19 ^^^ rotr b 61 ^^^ (b >>> 6)
  m64 (w.getD 15 0 + s0 + w.getD 6 0 + s1)

/-- The 80 words of a block's schedule, newest first. -/
def shaSchedule (w : List Nat) : Nat → List Nat
  | 0 => w
  | n + 1 =>
    let w := shaSchedule w n
    shaNext w :: w

/-- One round on the eight working variables. -/
def shaRound (v : List Nat) (k w : Nat) : List Nat :=
  match v with
  | [a, b, c, d, e, f, g, h] =>
    let s1 := rotr e 14 ^^^ rotr e 18 ^^^ rotr e 41
    let ch := (e &&& f) ^^^ ((2 ^ 64 - 1 - e) &&& g)
    let t1 := m64 (h + s1 + ch + k + w)
    let s0 := rotr a 28 ^^^ rotr a 34 ^^^ rotr a 39
    let mj := (a &&& b) ^^^ (a &&& c) ^^^ (b &&& c)
    [m64 (t1 + s0 + mj), a, b, c, m64 (d + t1), e, f, g]
  | v => v

/-- Big-endian bytes as a number, and back. -/
def beNat (l : List Byte) : Nat := l.foldl (fun a b => a * 256 + b.toNat) 0
def natBe (n v : Nat) : List Byte := (natLe n v).reverse

/-- Compress one block of 128 bytes. -/
def shaBlock (ks h : List Nat) (b : List Byte) : List Nat :=
  let w := ((List.range 16).map (fun i => beNat ((b.drop (8 * i)).take 8))).reverse
  let ws := (shaSchedule w 64).reverse
  List.zipWith (fun x y => m64 (x + y)) h ((List.zip ks ws).foldl (fun v (k, w) => shaRound v k w) h)

/-- SHA-512: 64 bytes. -/
def sha512 (m : List Byte) : List Byte :=
  let pad := (239 - m.length % 128) % 128
  let p := m ++ [0x80#8] ++ List.replicate pad 0#8 ++ natBe 16 (8 * m.length)
  let ks := shaK
  ((List.range (p.length / 128)).foldl (fun h i => shaBlock ks h ((p.drop (128 * i)).take 128)) shaH).flatMap (natBe 8)

/-- HMAC-SHA-512. -/
def hmac (key m : List Byte) : List Byte :=
  let k := if 128 < key.length then sha512 key else key
  let k := k ++ List.replicate (128 - k.length) 0#8
  sha512 (k.map (· ^^^ 0x5c#8) ++ sha512 (k.map (· ^^^ 0x36#8) ++ m))

/-- HKDF-SHA-512: n bytes, at most 255 blocks. -/
def hkdf (salt ikm info : List Byte) (n : Nat) : List Byte :=
  let prk := hmac (if salt.isEmpty then List.replicate 64 0#8 else salt) ikm
  ((List.range (ceilDiv n 64)).foldl (fun (acc : List Byte × List Byte) i =>
    let t := hmac prk (acc.1 ++ info ++ [BitVec.ofNat 8 (i + 1)])
    (t, acc.2 ++ t)) ([], [])).2.take n

-- Ed25519 -------------------------------------------------------------------------------------------------------------

/-- The field and the group order. -/
def edP : Nat := 2 ^ 255 - 19
def edL : Nat := 2 ^ 252 + 27742317777372353535851937790883648493

/-- b^e modulo m by the bits of e from bit n - 1 down. -/
def powGo (m b e : Nat) : Nat → Nat → Nat
  | 0, acc => acc
  | n + 1, acc =>
    let sq := acc * acc % m
    powGo m b e n (if e.testBit n then sq * b % m else sq)

def edPow (b e : Nat) : Nat := powGo edP b e 256 1
def edInv (x : Nat) : Nat := edPow x (edP - 2)
def edSub (a b : Nat) : Nat := (a + edP - b % edP) % edP

/-- The curve constant −121665/121666. -/
def edD : Nat := edSub 0 (121665 * edInv 121666 % edP)

/-- A point in extended coordinates. -/
structure EdPt where
  x : Nat
  y : Nat
  z : Nat
  t : Nat
  deriving DecidableEq, Repr

def edZero : EdPt := ⟨0, 1, 1, 0⟩

/-- Add points, d the curve constant. -/
def edAdd (d : Nat) (p q : EdPt) : EdPt :=
  let a := edSub p.y p.x * edSub q.y q.x % edP
  let b := (p.y + p.x) * (q.y + q.x) % edP
  let c := 2 * p.t * q.t * d % edP
  let dd := 2 * p.z * q.z % edP
  let e := edSub b a
  let f := edSub dd c
  let g := (dd + c) % edP
  let h := (b + a) % edP
  ⟨e * f % edP, g * h % edP, f * g % edP, e * h % edP⟩

/-- n times a point, by the bits of n from bit k - 1 down. -/
def edMulGo (d n : Nat) (p : EdPt) : Nat → EdPt → EdPt
  | 0, acc => acc
  | k + 1, acc =>
    let sq := edAdd d acc acc
    edMulGo d n p k (if n.testBit k then edAdd d sq p else sq)

def edMul (n : Nat) (p : EdPt) : EdPt := edMulGo edD n p 256 edZero

/-- The x of a y with a sign bit; none where there is none. -/
def edRecover (y sign : Nat) : Option Nat :=
  if edP ≤ y then none
  else
    let x2 := edSub (y * y) 1 * edInv ((edD * y % edP * y + 1) % edP) % edP
    if x2 = 0 then (if sign = 0 then some 0 else none)
    else
      let r := edPow x2 ((edP + 3) / 8)
      let r := if r * r % edP = x2 then r else r * edPow 2 ((edP - 1) / 4) % edP
      if r * r % edP ≠ x2 then none
      else some (if r % 2 = sign then r else edP - r)

/-- The base point, of y = 4/5. -/
def edBase : EdPt :=
  let y := 4 * edInv 5 % edP
  let x := (edRecover y 0).getD 0
  ⟨x, y, 1, x * y % edP⟩

/-- A point from its 32 bytes as a little-endian number, and back. -/
def edDecode (n : Nat) : Option EdPt :=
  let y := n % 2 ^ 255
  (edRecover y (n / 2 ^ 255)).map (fun x => ⟨x, y, 1, x * y % edP⟩)
def edEncode (p : EdPt) : Nat :=
  let zi := edInv p.z
  p.y * zi % edP + p.x * zi % edP % 2 * 2 ^ 255

/-- Whether points are equal. -/
def edEq (p q : EdPt) : Bool := p.x * q.z % edP == q.x * p.z % edP && p.y * q.z % edP == q.y * p.z % edP

/-- The public key of a 32-byte private key (RFC 8032 section 5.1.5), as a little-endian number. -/
def edPublic (priv : List Byte) : Nat :=
  let h := leNat ((sha512 priv).take 32)
  edEncode (edMul (h % 2 ^ 254 / 8 * 8 + 2 ^ 254) edBase)

/-- Whether a 64-byte signature of a message verifies under a public key (RFC 8032 section 5.1.7). -/
def edVerify (pub : Nat) (msg sig : List Byte) : Bool :=
  let r := leNat (sig.take 32)
  let sc := fieldAt sig 32 32
  match edDecode pub, edDecode r with
  | some a, some rp =>
    let k := leNat (sha512 (sig.take 32 ++ natLe 32 pub ++ msg)) % edL
    decide (sc < edL) && edEq (edMul sc edBase) (edAdd edD rp (edMul k a))
  | _, _ => false

/-- Key ID of a public key: bytes 0 to 7 of its SHA-512 digest (R228). -/
def keyId (pub : Nat) : Nat := leNat ((sha512 (natLe 32 pub)).take 8)

/-- Whether a body ends in a signature block by a key: 8-byte key ID, 64-byte signature over the SHA-512 digest of the
bytes before it (R228, R398). -/
def signedBy (pub : Nat) (bytes : List Byte) : Bool :=
  let n := bytes.length - 72
  decide (72 ≤ bytes.length) && fieldAt bytes n 8 == keyId pub && edVerify pub (sha512 (bytes.take n)) (bytes.drop (n + 8))

/-- ASCII text. -/
def ascii (s : String) : List Byte := s.toList.map (fun c => BitVec.ofNat 8 c.toNat)

end Sys2Proof.Machine
end

