-- ==== Sys2Proof/Machine/SvyDoc.lean ====
section
/-! DEFINITION. The Survey's bytes: header, sections, entries, and what they say (R225 to R230). -/

namespace Sys2Proof.Machine

/-- A failed check: error code and byte offset of the offending field. -/
structure SvyErr where
  code : Nat
  off : Nat
  deriving DecidableEq, Repr

/-- *Survey error codes*. -/
def svBUSY : Nat := 0x01
def svDMA : Nat := 0x02
def svFORMAT : Nat := 0x03
def svCOMPAT : Nat := 0x04
def svSIGNATURE : Nat := 0x05
def svGENERATION : Nat := 0x06
def svBASE : Nat := 0x07
def svSECTION : Nat := 0x08
def svRIGHTS : Nat := 0x09
def svBIND : Nat := 0x0A
def svQUOTA : Nat := 0x0B
def svORDER : Nat := 0x0C
def svLAYOUT : Nat := 0x0D
def svGEODE : Nat := 0x0E
def svRAMP : Nat := 0x0F
def svROUTE : Nat := 0x10
def svLIVE : Nat := 0x11
def svABORTED : Nat := 0x12

/-- Fail with a code at an offset when a condition does not hold. -/
def need (ok : Bool) (code off : Nat) : Option SvyErr := if ok then none else some ⟨code, off⟩

/-- The first failure of a list of checks. -/
def svyFirst (l : List (Option SvyErr)) : Option SvyErr := l.findSome? id

-- Sections ------------------------------------------------------------------------------------------------------------

/-- *Section types*. -/
def tPARTITIONS : Nat := 1
def tSLICE_BIND : Nat := 2
def tSPAN_ORDER : Nat := 3
def tMEM_LAYOUT : Nat := 4
def tROUTES : Nat := 5
def tREGULATION : Nat := 6
def tPOWER : Nat := 7
def tCONFIDENTIAL : Nat := 8
def tOBSERVABILITY : Nat := 9
def tENGINES : Nat := 10
def tRAMP : Nat := 11

/-- A section: its type, the offset of its value and the length of it. -/
structure Sect where
  ty : Nat
  off : Nat
  len : Nat
  deriving DecidableEq, Repr

/-- Round up to a multiple. -/
def roundUp (n m : Nat) : Nat := ceilDiv n m * m

/-- Walk n more sections from an offset after a type (R226). -/
def sectsGo (b : List Byte) (sigOff : Nat) : Nat → Nat → Nat → List Sect → Except SvyErr (List Sect)
  | 0, off, _, acc => if off = sigOff then .ok acc else .error ⟨svSECTION, off⟩
  | n + 1, off, last, acc =>
    let ty := fieldAt b off 2
    let len := fieldAt b (off + 4) 4
    let next := off + 8 + roundUp len 8
    if sigOff < off + 8 then .error ⟨svSECTION, off⟩
    else if ty ≤ last ∨ 11 < ty then .error ⟨svSECTION, off⟩
    else if fieldAt b (off + 2) 2 ≠ 0 then .error ⟨svSECTION, off + 2⟩
    else if sigOff < next then .error ⟨svSECTION, off + 4⟩
    else if !allZero ((b.drop (off + 8 + len)).take (roundUp len 8 - len)) then .error ⟨svSECTION, off + 8 + len⟩
    else sectsGo b sigOff n next ty (acc ++ [⟨ty, off + 8, len⟩])

-- Entries -------------------------------------------------------------------------------------------------------------

/-- What a field of an entry may hold: offset, size, lowest and highest value; a reserved field holds 0. -/
structure Lim where
  off : Nat
  size : Nat
  lo : Nat
  hi : Nat
  deriving DecidableEq, Repr

/-- Bytes of the device entry before the partitions' entries (R227). -/
def devBytes (ty : Nat) : Nat := if ty = tPOWER ∨ ty = tOBSERVABILITY then 8 else 0

/-- Size of the entry at an offset (R227). -/
def entSize (b : List Byte) (ty o : Nat) : Nat :=
  if ty = tPARTITIONS then 32
  else if ty = tSPAN_ORDER then roundUp (4 + fieldAt b (o + 1) 1) 4
  else if ty = tMEM_LAYOUT then roundUp (48 + 2 * fieldAt b (o + 6) 2) 8
  else if ty = tROUTES then 16 + 16 * fieldAt b (o + 1) 1
  else if ty = tREGULATION then 24
  else 4

/-- Offsets of the entries of a section's value from o to its end. -/
def entsGo (b : List Byte) (ty stop : Nat) : Nat → Nat → List Nat → Except SvyErr (List Nat)
  | 0, _, acc => .ok acc
  | n + 1, o, acc =>
    if o = stop then .ok acc
    else if stop < o + 4 ∨ stop < o + entSize b ty o then .error ⟨svSECTION, o⟩
    else entsGo b ty stop n (o + entSize b ty o) (acc ++ [o])

/-- Fields of an entry (*Section entries*, *MEM_LAYOUT entry*). -/
def entLims (ty : Nat) : List Lim :=
  if ty = tPARTITIONS then [⟨0, 1, 0, 31⟩, ⟨1, 1, 1, 3⟩, ⟨2, 1, 0, 1⟩, ⟨3, 1, 0, 3⟩, ⟨4, 2, 0, 127⟩, ⟨6, 2, 0, 0⟩, ⟨0x16, 10, 0, 0⟩]
  else if ty = tSLICE_BIND then [⟨0, 1, 0, 31⟩, ⟨1, 1, 0, 255⟩, ⟨2, 1, 0, 3⟩, ⟨3, 1, 0, 0⟩]
  else if ty = tSPAN_ORDER then [⟨0, 1, 0, 31⟩, ⟨1, 1, 1, 32⟩, ⟨2, 2, 0, 0⟩]
  else if ty = tMEM_LAYOUT then [⟨0, 1, 0, 31⟩, ⟨1, 1, 0, 3⟩, ⟨6, 2, 0, 3072⟩, ⟨0x26, 10, 0, 0⟩]
  else if ty = tROUTES then [⟨0, 1, 0, 31⟩, ⟨1, 1, 0, 64⟩, ⟨2, 2, 0, 0⟩, ⟨0xC, 4, 0, 0⟩]
  else if ty = tREGULATION then [⟨0, 1, 0, 31⟩, ⟨1, 3, 0, 0⟩, ⟨0x14, 4, 0, 0⟩]
  else if ty = tPOWER then [⟨0, 1, 0, 31⟩, ⟨1, 1, 1, 255⟩, ⟨2, 2, 0, 0⟩]
  else if ty = tCONFIDENTIAL then [⟨0, 1, 0, 31⟩, ⟨1, 1, 0, 1⟩, ⟨3, 1, 0, 1⟩]
  else if ty = tOBSERVABILITY then [⟨0, 1, 0, 31⟩, ⟨1, 1, 0, 7⟩, ⟨2, 2, 0, 0⟩]
  else if ty = tENGINES then [⟨0, 1, 0, 31⟩, ⟨1, 1, 0, 0⟩, ⟨2, 2, 0, 511⟩]
  else [⟨0, 1, 0, 31⟩, ⟨3, 1, 0, 1⟩]

/-- Fields of a device entry. -/
def devLims (ty : Nat) : List Lim :=
  if ty = tPOWER then [⟨0, 2, 800, 2200⟩, ⟨2, 1, 0, 1⟩, ⟨3, 1, 0, 15⟩, ⟨4, 1, 0, 1⟩, ⟨5, 1, 0, 15⟩, ⟨6, 2, 0, 0⟩]
  else if ty = tOBSERVABILITY then [⟨0, 1, 0, 1⟩, ⟨1, 7, 0, 0⟩]
  else []

/-- Check fields at an offset. -/
def limsErr (b : List Byte) (o : Nat) (l : List Lim) : Option SvyErr :=
  svyFirst (l.map (fun x =>
    let v := fieldAt b (o + x.off) x.size
    need (decide (x.lo ≤ v) && decide (v ≤ x.hi)) svSECTION (o + x.off)))

/-- The parts of an entry whose place depends on it: padding, peers of ROUTES, the partition of SLICE_BIND. -/
def entTailErr (b : List Byte) (ty o : Nat) : Option SvyErr :=
  if ty = tSPAN_ORDER then
    let n := fieldAt b (o + 1) 1
    need (allZero ((b.drop (o + 4 + n)).take (roundUp (4 + n) 4 - (4 + n)))) svSECTION (o + 4 + n)
  else if ty = tMEM_LAYOUT then
    let n := 48 + 2 * fieldAt b (o + 6) 2
    need (allZero ((b.drop (o + n)).take (roundUp n 8 - n))) svSECTION (o + n)
  else if ty = tROUTES then
    svyFirst ((List.range (fieldAt b (o + 1) 1)).map (fun k =>
      limsErr b (o + 16 + 16 * k) [⟨8, 1, 0, 31⟩, ⟨9, 3, 0, 0⟩]))
  else if ty = tSLICE_BIND then
    need (decide (fieldAt b (o + 1) 1 ≤ 31) || fieldAt b (o + 1) 1 == 0xFF) svSECTION (o + 1)
  else none

/-- Check one section: its length, its entries, and at most one entry for each partition (R227). -/
def sectErr (b : List Byte) (x : Sect) : Option SvyErr :=
  let d := devBytes x.ty
  if x.len < d then some ⟨svSECTION, x.off - 4⟩
  else match entsGo b x.ty (x.off + x.len) x.len (x.off + d) [] with
    | .error e => some e
    | .ok l =>
      limsErr b x.off (devLims x.ty)
        <|> svyFirst (l.map (fun o => limsErr b o (entLims x.ty) <|> entTailErr b x.ty o))
        <|> (if x.ty = tSLICE_BIND then none else
          svyFirst (l.zipIdx.map (fun (o, k) =>
            need (!(l.take k).any (fun o' => fieldAt b o' 1 == fieldAt b o 1)) svSECTION o)))

-- The Survey as read --------------------------------------------------------------------------------------------------

/-- A Survey whose sections are well formed. -/
structure Doc where
  b : List Byte
  sects : List Sect
  deriving DecidableEq, Repr

/-- Header fields (R225). -/
def hdKind (b : List Byte) : Nat := fieldAt b 0x06 1
def hdGen (b : List Byte) : Nat := fieldAt b 0x08 8
def hdBase (b : List Byte) : Nat := fieldAt b 0x10 8
def hdLen (b : List Byte) : Nat := fieldAt b 0x18 4
def hdSig (b : List Byte) : Nat := fieldAt b 0x24 4

/-- Whether a Survey is a delta. -/
def Doc.delta (d : Doc) : Bool := hdKind d.b == 1

/-- Read a Survey's sections; none when they are malformed. -/
def docOf (b : List Byte) : Except SvyErr Doc :=
  match sectsGo b (hdSig b) (fieldAt b 0x1C 2) 0x100 0 [] with
  | .error e => .error e
  | .ok l => match svyFirst (l.map (sectErr b)) with
    | some e => .error e
    | none => .ok ⟨b, l⟩

/-- The section of a type. -/
def Doc.sect (d : Doc) (ty : Nat) : Option Sect := d.sects.find? (fun x => x.ty == ty)

/-- Offsets of the entries of a section. -/
def Doc.ents (d : Doc) (ty : Nat) : List Nat :=
  match d.sect ty with
  | none => []
  | some x => match entsGo d.b ty (x.off + x.len) x.len (x.off + devBytes ty) [] with
    | .ok l => l
    | .error _ => []

/-- A field of an entry at o. -/
def Doc.u (d : Doc) (o k n : Nat) : Nat := fieldAt d.b (o + k) n

/-- The entry of a partition in a section. -/
def Doc.entOf (d : Doc) (ty p : Nat) : Option Nat := (d.ents ty).find? (fun o => d.u o 0 1 == p)

/-- The operation on a partition: 0 none, 1 create, 2 modify, 3 destroy. -/
def Doc.opOf (d : Doc) (p : Nat) : Nat :=
  match d.entOf tPARTITIONS p with
  | some o => d.u o 1 1
  | none => 0

/-- The entry that binds a slice. -/
def Doc.bindOf (d : Doc) (n : Nat) : Option Nat := (d.ents tSLICE_BIND).find? (fun o => d.u o 0 1 == n)

/-- A list of fields: count, first offset, size. -/
def Doc.us (d : Doc) (o n sz : Nat) : List Nat := (List.range n).map (fun k => d.u o (k * sz) sz)

-- What a Survey makes of a composition --------------------------------------------------------------------------------

/-- Apply the entry of a section to a partition, when there is one. -/
def Doc.on (d : Doc) (ty p : Nat) (x : Part) (f : Nat → Part → Part) : Part :=
  match d.entOf ty p with
  | some o => f o x
  | none => x

/-- Binding of a slice under a Survey, over the composition before it: partition and spare flag (R229, R230). -/
def Doc.binding (d : Doc) (m : Map) (n : Nat) : Option (Nat × Bool) :=
  match d.bindOf n with
  | some o => if d.u o 1 1 = 0xFF then none else some (d.u o 1 1, bit (d.u o 2 1) 0)
  | none =>
    if !d.delta then none
    else (m.parts.find? (fun e => e.2.slices.contains n || e.2.spares.contains n)).map
      (fun e => (e.1, e.2.spares.contains n))

/-- One partition under a Survey. -/
def Doc.part (d : Doc) (m : Map) (p : Nat) : Part :=
  let op := d.opOf p
  let x := if op = 1 ∨ !d.delta then Part.absent else m.parts.get .absent p
  if op = 3 ∨ (op ≠ 1 ∧ !x.defined) then Part.absent
  else
    let x := d.on tPARTITIONS p x (fun o x =>
      { x with defined := true, owner := d.u o 2 1, pflags := d.u o 3 1, func := d.u o 4 2, ctxQuota := d.u o 8 4,
               qQuota := d.u o 0xC 4, fenceQuota := d.u o 0x10 4, winQuota := d.u o 0x14 2 })
    let mine := fun sp => (List.range 32).filter (fun n => d.binding m n == some (p, sp))
    let x := { x with slices := mine false, spares := mine true }
    let x := d.on tSPAN_ORDER p x (fun o x =>
      let l := d.us (o + 4) (d.u o 1 1) 1
      { x with octets := l, order := l.map (fun n =>
          let r := x.order.getD (x.octets.idxOf n) n
          if (mine true).contains r then r else n) })
    let x := d.on tMEM_LAYOUT p x (fun o x =>
      { x with gran64 := bit (d.u o 1 1) 0, parity := bit (d.u o 1 1) 1, w := d.u o 2 1, pgrPages := d.u o 3 1,
               pgrBase := d.u o 4 2, exts := d.us (o + 0x30) (d.u o 6 2) 2, ownBase := d.u o 8 4,
               parkBase := d.u o 0xC 4, parkFrames := d.u o 0x10 4, phbmBase := d.u o 0x14 4,
               phbmFrames := d.u o 0x18 4, pddrBase := d.u o 0x1C 4, pddrFrames := d.u o 0x20 4,
               seqQuota := d.u o 0x24 2 })
    let x := d.on tROUTES p x (fun o x =>
      { x with sumpBase := d.u o 4 4, sumpFrames := d.u o 8 4,
               peers := (List.range (d.u o 1 1)).map (fun k =>
                 ⟨d.u o (16 + 16 * k) 8, d.u o (24 + 16 * k) 1, d.u o (28 + 16 * k) 4⟩) })
    let x := d.on tREGULATION p x (fun o x =>
      { x with targets := (List.range 4).map (fun k => d.u o (4 + 4 * k) 2),
               limits := (List.range 4).map (fun k => d.u o (6 + 4 * k) 2) })
    let x := d.on tPOWER p x (fun o x => { x with share := d.u o 1 1 })
    let x := d.on tCONFIDENTIAL p x (fun o x => { x with conf := d.u o 1 1, geode := d.u o 2 1, cflags := d.u o 3 1 })
    let x := d.on tOBSERVABILITY p x (fun o x => { x with oflags := d.u o 1 1 })
    let x := d.on tENGINES p x (fun o x => { x with engMask := d.u o 2 2 })
    d.on tRAMP p x (fun o x => { x with hum := d.u o 3 1 })

/-- The device settings under a Survey. -/
def Doc.dev (d : Doc) (m : Map) : DevSet :=
  let x := if d.delta then m.dev else .default
  let x := match d.sect tPOWER with
    | some e => { x with limit := d.u e.off 0 2, wMode := d.u e.off 2 1, wStep := d.u e.off 3 1, eMode := d.u e.off 4 1,
                         eStep := d.u e.off 5 1 }
    | none => x
  match d.sect tOBSERVABILITY with
  | some e => { x with fw := d.u e.off 0 1 }
  | none => x

/-- The composition under a Survey. -/
def Doc.map (d : Doc) (m : Map) : Map :=
  ⟨(List.range 32).foldl (fun t p => t.set .absent p (d.part m p)) [], d.dev m⟩

end Sys2Proof.Machine
end

