-- ==== Sys2Proof/Machine/SvyCheck.lean ====
section
/-! DEFINITION. The validation of a Survey, step by step in the order of R234. -/

namespace Sys2Proof.Machine

-- Header, signature, generation ---------------------------------------------------------------------------------------

/-- Step 1. -/
def svyFormat (b : List Byte) : Option SvyErr :=
  svyFirst [
    need (fieldAt b 0 4 == 0x59565253) svFORMAT 0,
    need (fieldAt b 4 2 == 1) svFORMAT 4,
    need (decide (hdKind b ≤ 1)) svFORMAT 6,
    need (fieldAt b 7 1 == 0) svFORMAT 7,
    need (decide (328 ≤ hdLen b) && decide (hdLen b ≤ 1048576) && hdLen b == b.length) svFORMAT 0x18,
    need (fieldAt b 0x20 4 == 0x100) svFORMAT 0x20,
    need (hdSig b + 72 == hdLen b && hdSig b % 8 == 0) svFORMAT 0x24,
    need (allZero ((b.drop 0x5C).take 164)) svFORMAT 0x5C]

/-- The identity public key that SEC_IDPUB shows. -/
def State.idPub (s : State) : Nat :=
  (List.range 4).foldl (fun a k => a + s.rd .SEC_IDPUB_key k * 2 ^ (64 * k)) 0

/-- The identity digest (R418). -/
def State.idDigest (s : State) : List Byte := sha512 (natLe 32 s.idPub)

/-- Step 2. -/
def State.svyCompat (s : State) (b : List Byte) : Option SvyErr :=
  let dev := (b.drop 0x28).take 16
  need (fieldAt b 0x1E 2 == s.rd .DEV_COMPAT_LEVEL_level 0) svCOMPAT 0x1E
    <|> need (allZero dev || dev == s.idDigest.take 16) svCOMPAT 0x28

/-- Step 3: the signature under the enrolled owner key (R228). -/
def State.svySignature (s : State) (b : List Byte) : Option SvyErr :=
  match s.sec.keys.owner with
  | none => some ⟨svSIGNATURE, hdSig b⟩
  | some pub =>
    need (fieldAt b (hdSig b) 8 == keyId pub) svSIGNATURE (hdSig b)
      <|> need (signedBy pub b) svSIGNATURE (hdSig b + 8)

/-- Step 4. -/
def State.svyGeneration (s : State) (b : List Byte) : Option SvyErr :=
  need (decide (s.rd .SVY_GEN_gen 0 < hdGen b)) svGENERATION 8

/-- Whether a full Survey may replace what exists (R229). -/
def State.fullOk (s : State) : Bool := (List.range 32).all (fun p => decide (s.rd .PRT_STAT_state p ≤ 1))

/-- Step 5. -/
def State.svyBase (s : State) (b : List Byte) : Option SvyErr :=
  if hdKind b = 1 then need (hdBase b == s.rd .SVY_GEN_gen 0) svBASE 0x10
  else need (hdBase b == 0 && s.fullOk) svBASE 0x10

-- Rights and structure ------------------------------------------------------------------------------------------------

/-- Sections whose entries name a partition at their first byte. -/
def partSects : List Nat :=
  [tSPAN_ORDER, tMEM_LAYOUT, tROUTES, tREGULATION, tPOWER, tCONFIDENTIAL, tOBSERVABILITY, tENGINES, tRAMP]

/-- Whether a partition exists before a Survey that is applied: a full Survey destroys the building ones first (R229). -/
def State.existed (s : State) (d : Doc) (p : Nat) : Bool := d.delta && (s.part p).defined

/-- The operations of PARTITIONS fit what exists, and every other entry names a partition that exists after the Survey (R229,
R230): part of step 6. -/
def State.svyOps (s : State) (d : Doc) : Option SvyErr :=
  svyFirst ((d.ents tPARTITIONS).map (fun o =>
      let op := d.u o 1 1
      need (if s.existed d (d.u o 0 1) then op != 1 else op == 1) svSECTION (o + 1)))
    <|> svyFirst (partSects.flatMap (fun ty => (d.ents ty).map (fun o =>
      let p := d.u o 0 1
      need (d.opOf p == 1 || (s.existed d p && d.opOf p != 3)) svSECTION o)))

/-- Step 7: what the driver may change (R232), and confidential mode in OPEN-DEBUG (R430). -/
def State.svyRights (s : State) (d : Doc) (mgmt : Bool) : Option SvyErr :=
  let hostOwned := fun p => (s.part p).owner == 0
  let own := fun p => match d.entOf tPARTITIONS p with
    | some o => d.u o 2 1 == 0 && hostOwned p
    | none => hostOwned p
  let slice := fun n => match s.prtOf n with
    | some p => hostOwned p
    | none => true
  (if mgmt then none else
    need (d.delta || (List.range 32).all hostOwned) svRIGHTS 6
      <|> svyFirst ((d.ents tPARTITIONS).map (fun o => need (own (d.u o 0 1)) svRIGHTS (o + 2)))
      <|> svyFirst ((d.ents tSLICE_BIND).map (fun o =>
        need (slice (d.u o 0 1) && (d.u o 1 1 == 0xFF || own (d.u o 1 1))) svRIGHTS o))
      <|> svyFirst (partSects.flatMap (fun ty => (d.ents ty).map (fun o => need (own (d.u o 0 1)) svRIGHTS o))))
    <|> svyFirst ((d.ents tCONFIDENTIAL).map (fun o =>
      need (!(s.rd .SEC_LC_state 0 == 3 && d.u o 1 1 == 1)) svRIGHTS (o + 1)))

-- Slices and quotas ---------------------------------------------------------------------------------------------------

/-- Whether a slice may be bound: no failed bank, not lost, its octet trained, and no lost channel without parity groups (R183,
R197, R385). -/
def State.bindable (s : State) (n : Nat) (parity : Bool) : Bool :=
  let st := (List.range 8).map (fun k => s.rd .MEM_HBM_STAT_state (8 * n + k))
  s.rd .GAL_POOL_MFAIL_bank n == 0 && !s.ras.lost.contains n && !st.contains 0
    && (parity || !st.contains 3)

/-- The partitions of a composition. -/
def Map.used (m : Map) : List Nat := (m.parts.filter (fun e => e.2.defined)).map (·.1)

/-- A partition of a composition. -/
def Map.at (m : Map) (p : Nat) : Part := m.parts.get .absent p

/-- Offset that a failure about a partition names: its entry in a section, or in PARTITIONS, or the first section. -/
def Doc.offOf (d : Doc) (ty p : Nat) : Nat :=
  match d.entOf ty p with
  | some o => o
  | none => (d.entOf tPARTITIONS p).getD 0x100

/-- Step 8. -/
def State.svyBind (s : State) (d : Doc) (m : Map) : Option SvyErr :=
  let l := d.ents tSLICE_BIND
  svyFirst (l.zipIdx.map (fun (o, k) =>
      need (!(l.take k).any (fun o' => d.u o' 0 1 == d.u o 0 1)) svBIND o))
    <|> svyFirst (l.map (fun o =>
      let p := d.u o 1 1
      need (p == 0xFF || ((m.at p).defined && s.bindable (d.u o 0 1) (m.at p).parity)) svBIND o))
    <|> svyFirst ((d.ents tPARTITIONS).map (fun o =>
      need (!(d.delta && d.u o 1 1 == 3) || ((s.part (d.u o 0 1)).slices ++ (s.part (d.u o 0 1)).spares).all
        (fun n => (d.bindOf n).isSome)) svBIND o))
    <|> svyFirst (m.used.map (fun p => need (!(m.at p).slices.isEmpty) svBIND (d.offOf tPARTITIONS p)))

/-- Contexts, queues, fences and windows a partition has in use. -/
def State.ctxUse (s : State) (p : Nat) : Nat := (s.ctxs.filter (fun e => e.2.st != 0 && e.2.prt == p)).length
def State.queueUse (s : State) (p : Nat) : Nat := (s.queues.filter (fun e => e.2.live && (s.ctx e.2.ctx).prt == p)).length
def State.fenceUse (s : State) (p : Nat) : Nat := (s.fences.filter (fun e => e.2.live && (s.ctx e.2.ctx).prt == p)).length
def State.winUse (s : State) (p : Nat) : Nat := (s.wins.filter (fun e => e.2.kind != 0 && (s.ctx e.2.ctx).prt == p)).length
def State.seqUse (s : State) (p : Nat) : Nat := (s.seqs.filter (fun e => e.2.st != 0 && e.2.prt == p)).length

/-- Step 9. -/
def State.svyQuota (s : State) (d : Doc) (m : Map) : Option SvyErr :=
  let sum := fun (f : Part → Nat) => (m.used.map (fun p => f (m.at p))).foldl (· + ·) 0
  let off := fun ty k => match d.ents ty with
    | o :: _ => o + k
    | [] => 0x100
  svyFirst [
    need (decide (sum Part.ctxQuota ≤ 65535)) svQUOTA (off tPARTITIONS 8),
    need (decide (sum Part.qQuota ≤ 262144)) svQUOTA (off tPARTITIONS 0xC),
    need (decide (sum Part.fenceQuota ≤ 1048576)) svQUOTA (off tPARTITIONS 0x10),
    need (decide (sum Part.winQuota ≤ 4096)) svQUOTA (off tPARTITIONS 0x14),
    need (decide (sum Part.seqQuota ≤ 8192)) svQUOTA (off tMEM_LAYOUT 0x24)]
    <|> svyFirst ((m.used.filter (s.existed d)).map (fun p =>
      let x := m.at p
      let o := d.offOf tPARTITIONS p
      svyFirst [
        need (decide (s.ctxUse p ≤ x.ctxQuota)) svQUOTA (o + 8),
        need (decide (s.queueUse p ≤ x.qQuota)) svQUOTA (o + 0xC),
        need (decide (s.fenceUse p ≤ x.fenceQuota)) svQUOTA (o + 0x10),
        need (decide (s.winUse p ≤ x.winQuota)) svQUOTA (o + 0x14),
        need (decide (s.seqUse p ≤ x.seqQuota)) svQUOTA (d.offOf tMEM_LAYOUT p + 0x24)]))

-- Order ---------------------------------------------------------------------------------------------------------------

/-- Place of a gallery in the floor plan (R14). -/
def galCol (g : Nat) : Nat := g / 4
def galRow (g : Nat) : Nat := if g / 4 % 2 = 0 then g % 4 else 3 - g % 4

/-- Whether edge-forwarding wires join two galleries (R15). -/
def joined (a b : Nat) : Bool :=
  let near := fun x y => x + 1 == y || y + 1 == x
  (galRow a == galRow b && near (galCol a) (galCol b)) || (galCol a == galCol b && near (galRow a) (galRow b))

/-- The first position whose gallery is not joined to the one before it. -/
def unjoined : List Nat → Nat → Option Nat
  | a :: b :: t, k => if joined a b then unjoined (b :: t) (k + 1) else some (k + 1)
  | _, _ => none

/-- Step 10. -/
def svyOrder (d : Doc) (m : Map) : Option SvyErr :=
  svyFirst (m.used.map (fun p =>
    let x := m.at p
    let o := d.offOf tSPAN_ORDER p
    need (x.slices.all x.octets.contains && x.octets.all x.slices.contains && x.octets.length == x.slices.length)
        svORDER (o + 4)
      <|> (match unjoined x.octets 0 with
        | some k => some ⟨svORDER, o + 4 + k⟩
        | none => none)))

-- Memory layout -------------------------------------------------------------------------------------------------------

/-- 64 KiB frames of the page-owner table (R200). -/
def Part.ownFrames (x : Part) : Nat := ceilDiv (4 * x.frames) 65536

/-- The ranges of MEM_LAYOUT in frames, with the offset of the field that names each. -/
def Part.ranges (x : Part) : List (Nat × Nat × Nat) :=
  [(x.ownBase, x.ownFrames, 8), (x.parkBase, x.parkFrames, 0xC), (x.phbmBase, x.phbmFrames, 0x14),
   (x.pddrBase, x.pddrFrames, 0x1C)]

/-- Whether n frames from a frame lie in a partition's HBM, or in its DDR5. -/
def Part.inHbm (x : Part) (b n : Nat) : Bool := n == 0 || decide ((b + n) * 65536 ≤ x.hbm)
def Part.inDdr (x : Part) (b n : Nat) : Bool :=
  n == 0 || (decide (ddrBase ≤ b * 65536) && decide ((b + n) * 65536 ≤ ddrBase + x.ddr))

/-- Whether stripes lie on distinct channels (R193). -/
def stripesOk (w : Nat) : Nat → List Nat → Bool
  | 0, l => l.isEmpty
  | n + 1, l =>
    let c := (l.take w).map (· / 256)
    c.length == w && c.eraseDups.length == w && stripesOk w n (l.drop w)

/-- Whether an extent exists: its channel is active and reaches so far. -/
def State.extOk (s : State) (e : Nat) : Bool :=
  decide (e < 3072) && s.rd .MEM_DDR_STAT_state (e / 256) == 1 && decide (e % 256 < s.rd .MEM_DDR_STAT_ext (e / 256))

/-- Pool bytes where the pager region ends. -/
def Part.pgrEnd (x : Part) : Nat := (x.pgrBase + x.pgrPages) * 65536

/-- Step 11 for one partition. -/
def State.layoutErr (s : State) (d : Doc) (m : Map) (p : Nat) : Option SvyErr :=
  let x := m.at p
  let o := d.offOf tMEM_LAYOUT p
  let own := m.used.filter (· != p)
  svyFirst [
    need ((d.entOf tMEM_LAYOUT p).isSome || (s.existed d p && d.opOf p != 1)) svLAYOUT o,
    need (decide (x.pgrPages ≤ 128)) svLAYOUT (o + 3),
    need (decide (x.pgrBase < 512) && decide (x.pgrEnd ≤ 0x2000000)) svLAYOUT (o + 4),
    need (x.exts.isEmpty || (decide (1 ≤ x.w) && decide (x.w ≤ 12))) svLAYOUT (o + 2),
    need (x.exts.isEmpty || x.exts.length % max x.w 1 == 0) svLAYOUT (o + 6),
    need (x.inHbm x.ownBase x.ownFrames) svLAYOUT (o + 8),
    need (x.inHbm x.parkBase x.parkFrames || x.inDdr x.parkBase x.parkFrames) svLAYOUT (o + 0xC),
    need (x.inHbm x.phbmBase x.phbmFrames) svLAYOUT (o + 0x14),
    need (x.inDdr x.pddrBase x.pddrFrames) svLAYOUT (o + 0x1C)]
    <|> svyFirst (x.ranges.zipIdx.map (fun ((b, n, k), i) =>
      need ((x.ranges.take i).all (fun (b', n', _) => n == 0 || n' == 0 || !overlap b n b' n')) svLAYOUT (o + k)))
    <|> svyFirst (x.exts.zipIdx.map (fun (e, k) =>
      need (s.extOk e && !(x.exts.take k).contains e && own.all (fun q => !(m.at q).exts.contains e)) svLAYOUT
        (o + 0x30 + 2 * k)))
    <|> need (x.exts.isEmpty || stripesOk x.w (x.exts.length / max x.w 1) x.exts) svLAYOUT (o + 0x30)

/-- Step 11. -/
def State.svyLayout (s : State) (d : Doc) (m : Map) : Option SvyErr := svyFirst (m.used.map (s.layoutErr d m))

-- Geode, ramp, routes -------------------------------------------------------------------------------------------------

/-- Whether an engine ring of a gallery reaches the geode window. -/
def State.ringInGeode (s : State) (g : Nat) : Bool :=
  (List.range 9).any (fun e =>
    let k := g * 16 + e
    s.flag .GAL_ENG_RING_en k &&
      decide (0x1E00000 < s.rd .GAL_ENG_RING_base k * 64 + 64 * 2 ^ s.rd .GAL_ENG_RING_size k))

/-- Step 12: geode banks are designated for no slice or four of each, and a gallery that has them keeps its semaphores, pager
region, rings and program windows below the geode window (R174). -/
def State.svyGeode (s : State) (d : Doc) (m : Map) : Option SvyErr :=
  svyFirst (m.used.map (fun p =>
    let x := m.at p
    let o := d.offOf tCONFIDENTIAL p
    let gals := x.slices ++ x.spares
    need (x.geode == 0 || x.geode == 4) svGEODE (o + 2)
      <|> (if x.geode = 0 then none else
        svyFirst [
          need (gals.all (fun g => decide (s.rd .GAL_SEM_BASE_base g ≤ 0x3B))) svGEODE (o + 2),
          need (x.pgrPages == 0 || decide (x.pgrEnd ≤ 0x1E00000)) svGEODE (o + 2),
          need (gals.all (fun g => !s.ringInGeode g)) svGEODE (o + 2),
          need (s.progs.all (fun e => !(e.1 / 256 == p && e.2.reg) || decide (e.2.base + e.2.size ≤ 0x1E00000)))
            svGEODE (o + 2)])))

/-- Step 13 (R50). -/
def svyRamp (d : Doc) : Option SvyErr :=
  svyFirst ((d.ents tRAMP).map (fun o =>
    need (d.u o 1 1 == 8) svRAMP (o + 1) <|> need (d.u o 2 1 == 4) svRAMP (o + 2)))

/-- Step 14. -/
def svyRoutes (d : Doc) (m : Map) : Option SvyErr :=
  svyFirst (m.used.map (fun p =>
    let x := m.at p
    let o := d.offOf tROUTES p
    svyFirst (x.peers.zipIdx.map (fun (q, k) =>
        need ((List.range 32).all (fun n => !q.ports.testBit n || x.slices.contains n)) svROUTE (o + 28 + 16 * k)))
      <|> need (x.inHbm x.sumpBase (x.sumpFrames * x.slices.length)) svROUTE (o + 4)))

-- Running partitions --------------------------------------------------------------------------------------------------

/-- Whether one list continues another. -/
def isPrefix (a b : List Nat) : Bool := b.take a.length == a

/-- Whether a range that moves lies in both spaces (R238). -/
def movesOk (x y : Part) (b n b' n' : Nat) : Bool :=
  (b == b' && n == n') || ((x.inHbm b' n' || x.inDdr b' n') && (y.inHbm b' n' || y.inDdr b' n'))

/-- Whether frames of the page-owner table from lo to hi hold no valid entry. -/
def State.noOwners (s : State) (p lo hi : Nat) : Bool :=
  (List.range (hi - lo)).all (fun k =>
    let idx := lo + k
    let c := s.ownCache.get 0 (p * 2 ^ 32 + idx)
    let e := if c != 0 then c - 1 else leNat (s.pmemRd p (s.rd .MEM_PRT_OWN_base p * 65536 + 4 * idx) 4)
    !bit e 16)

/-- Whether a sealed partition x may become y (R237, R238). -/
def State.liveErr (s : State) (d : Doc) (mgmt : Bool) (p : Nat) (y : Part) : Option SvyErr :=
  let x := s.part p
  let oP := d.offOf tPARTITIONS p
  let oL := d.offOf tMEM_LAYOUT p
  let dd := y.exts.length < x.exts.length
  svyFirst [
    need (y.func == x.func) svLIVE (oP + 4),
    need (y.owner == x.owner || mgmt) svLIVE (oP + 2),
    need (y.pflags / 2 == x.pflags / 2) svLIVE (oP + 3),
    need (isPrefix x.octets y.octets || isPrefix y.octets x.octets) svLIVE (d.offOf tSPAN_ORDER p + 4),
    need (y.gran64 == x.gran64 && y.parity == x.parity) svLIVE (oL + 1),
    need (y.w == x.w || (x.exts.isEmpty && y.exts.isEmpty)) svLIVE (oL + 2),
    need (y.pgrPages == x.pgrPages) svLIVE (oL + 3),
    need (y.pgrBase == x.pgrBase) svLIVE (oL + 4),
    need (isPrefix x.exts y.exts || isPrefix y.exts x.exts) svLIVE (oL + 6),
    need (movesOk x y x.ownBase x.ownFrames y.ownBase y.ownFrames) svLIVE (oL + 8),
    need (movesOk x y x.parkBase x.parkFrames y.parkBase y.parkFrames) svLIVE (oL + 0xC),
    need (movesOk x y x.phbmBase x.phbmFrames y.phbmBase y.phbmFrames) svLIVE (oL + 0x14),
    need (movesOk x y x.pddrBase x.pddrFrames y.pddrBase y.pddrFrames) svLIVE (oL + 0x1C),
    need (movesOk x y x.sumpBase (x.sumpFrames * x.slices.length) y.sumpBase (y.sumpFrames * y.slices.length)) svLIVE
      (d.offOf tROUTES p + 4),
    need (y.conf == x.conf && y.geode == x.geode && y.cflags == x.cflags) svLIVE (d.offOf tCONFIDENTIAL p),
    need (y.hum == x.hum) svLIVE (d.offOf tRAMP p + 3)]
    <|> (if s.flag .MEM_PRT_OWN_en p then
      need ((decide (x.hbm ≤ y.hbm) || s.noOwners p (y.hbm / 65536) (x.hbm / 65536))
          && (!dd || s.noOwners p ((x.hbm + y.ddr) / 65536) x.frames)) svLIVE (d.offOf tSPAN_ORDER p + 4)
      else none)

/-- Step 15. -/
def State.svyLive (s : State) (d : Doc) (m : Map) (mgmt : Bool) : Option SvyErr :=
  if !d.delta then none
  else svyFirst (((List.range 32).filter (fun p => s.rd .PRT_STAT_state p == 2 && d.opOf p != 3)).map (fun p =>
    s.liveErr d mgmt p (m.at p)))

-- The whole order -----------------------------------------------------------------------------------------------------

/-- Steps 1 to 6: the Survey as read. -/
def State.svyRead (s : State) (b : List Byte) : Except SvyErr Doc :=
  match svyFormat b <|> s.svyCompat b <|> s.svySignature b <|> s.svyGeneration b <|> s.svyBase b with
  | some e => .error e
  | none => match docOf b with
    | .error e => .error e
    | .ok d => match s.svyOps d with
      | some e => .error e
      | none => .ok d

/-- The whole of R234: the Survey and the composition it makes. -/
def State.svyValidate (s : State) (b : List Byte) (mgmt : Bool) : Except SvyErr (Doc × Map) :=
  match s.svyRead b with
  | .error e => .error e
  | .ok d =>
    let m := d.map s.map
    match s.svyRights d mgmt <|> s.svyBind d m <|> s.svyQuota d m <|> svyOrder d m <|> s.svyLayout d m <|> s.svyGeode d m
        <|> svyRamp d <|> svyRoutes d m <|> s.svyLive d m mgmt with
    | some e => .error e
    | none => .ok (d, m)

end Sys2Proof.Machine
end

