-- ==== Sys2Proof/Machine/HostCmd.lean ====
section
/-! DEFINITION. The CTX and FEN commands (R254 to R257, R262, R267 to R272, R276, R277, R476, R477). -/

namespace Sys2Proof.Machine

-- Contexts ------------------------------------------------------------------------------------------------------------

/-- `CTX_CREATE` in window f. -/
def State.ctxMake (s : State) (f : Nat) (a0 a1 : Nat) : CmdRes :=
  let p := bits a0 25 21
  let w := bits a0 47 32
  s.checks [(bits a0 31 27 == 0 && zeroFrom a0 48, eBAD_OP), (s.mayCmd f p false, eRIGHTS), (w != 0, eBAD_ARG),
      (s.rd .PRT_STAT_state p != 3, eSTATE), (decide (s.ctxUse p < (s.part p).ctxQuota), eQUOTA)] (fun s =>
    match (List.range 65535).find? (fun k => (s.ctx (k + 1)).st == 0) with
    | none => s.fails eQUOTA
    | some k =>
      let c := k + 1
      let s := s.setCtx c { Ctx.free with st := 1, epoch := (s.ctx c).epoch, prt := p, pasid := bits a0 19 0,
                                          nopasid := bit a0 20, relaxed := bit a0 26, weight := w, seed := a1, func := f }
      ⟨eOK, c, 0, s⟩)

/-- `CTX_CREATE`. -/
def execCtxCreate (f : Nat) (a : Args) (s : State) : Host.Outcome State Fault Refusal :=
  checked s (.ctxCreate f a)
    (if s.barOf f then s.command .ctx f 0x01 a (fun s => s.ctxMake f a.a0.toNat a.a1.toNat) else s)

/-- `CTX_ABORT` (R276). -/
def State.ctxAbortCmd (s : State) (f a0 : Nat) : CmdRes :=
  let c := a0
  s.checks [(zeroFrom a0 16, eBAD_OP), (s.ctxRights f c true, eRIGHTS), (s.ctxExists c, eBAD_HANDLE),
      ((s.ctx c).st == 1 || (s.ctx c).st == 2, eSTATE)] (fun s => (s.abortCtx c).done)

/-- `CTX_ABORT`. -/
def execCtxAbort (f : Nat) (a : Args) (s : State) : Host.Outcome State Fault Refusal :=
  checked s (.ctxAbort f a) (if s.barOf f then s.command .ctx f 0x02 a (fun s => s.ctxAbortCmd f a.a0.toNat) else s)

/-- The fences, sequences and memory objects of a context. -/
def State.fencesOf (s : State) (c : Nat) : List Nat := (s.fences.filter (fun e => e.2.live && e.2.ctx == c)).map (·.1)
def State.seqsOfCtx (s : State) (c : Nat) : List Nat := (s.seqs.filter (fun e => e.2.st != 0 && e.2.ctx == c)).map (·.1)
def State.mobjsOf (s : State) (c : Nat) : List Nat := (s.mobjs.filter (fun e => e.2.live && e.2.ctx == c)).map (·.1)

/-- Destroy a context (R277). -/
def State.destroyCtx (s : State) (c : Nat) : State :=
  let s := s.modCtx c (fun x => { x with st := 3 })
  let s := (s.abortWork c).haltAll c eABORTED
  let s := s.each (s.fencesOf c) State.fenceError
  let s := s.each (s.seqsOfCtx c) State.freeSeq
  let s := s.each (s.queuesOf c) State.freeQueue
  let s := s.modCtx c (fun x => { x with st := 4 })
  let s := s.each (s.mobjsOf c) (fun s i => (s.setMobj i { s.mobj i with host := 0 }).reclaim i)
  s.drainCheck c

/-- `CTX_DESTROY`. -/
def State.ctxDestroyCmd (s : State) (f a0 : Nat) : CmdRes :=
  let c := a0
  s.checks [(zeroFrom a0 16, eBAD_OP), (s.ctxRights f c true, eRIGHTS), (s.ctxExists c, eBAD_HANDLE),
      ((s.ctx c).st == 1 || (s.ctx c).st == 2, eSTATE)] (fun s => (s.destroyCtx c).done)

/-- `CTX_DESTROY`. -/
def execCtxDestroy (f : Nat) (a : Args) (s : State) : Host.Outcome State Fault Refusal :=
  checked s (.ctxDestroy f a) (if s.barOf f then s.command .ctx f 0x03 a (fun s => s.ctxDestroyCmd f a.a0.toNat) else s)

/-- `CTX_SET`: seed from the next dispatch, weight from the next increase, numeric flags (R76, R256, R305). -/
def State.ctxSetCmd (s : State) (f a0 a1 : Nat) : CmdRes :=
  let c := bits a0 15 0
  let w := bits a0 47 32
  s.checks [(bits a0 31 19 == 0 && zeroFrom a0 48, eBAD_OP), (s.ctxRights f c false, eRIGHTS), (s.ctxExists c, eBAD_HANDLE),
      (!bit a0 17 || w != 0, eBAD_ARG), (s.isLive c, eSTATE)] (fun s =>
    (s.modCtx c (fun x => { x with seed := if bit a0 16 then a1 else x.seed, weight := if bit a0 17 then w else x.weight,
                                   flags := if bit a0 18 then 0 else x.flags })).done)

/-- `CTX_SET`. -/
def execCtxSet (f : Nat) (a : Args) (s : State) : Host.Outcome State Fault Refusal :=
  checked s (.ctxSet f a) (if s.barOf f then s.command .ctx f 0x04 a (fun s => s.ctxSetCmd f a.a0.toNat a.a1.toNat) else s)

/-- `CTX_EVRING`: a new ring starts empty; records dropped and not reported carry over (R272). -/
def State.ctxEvringCmd (s : State) (f a0 a1 : Nat) : CmdRes :=
  let c := bits a0 15 0
  let lg := bits a0 20 16
  s.checks [(zeroFrom a0 33, eBAD_OP), (s.ctxRights f c false, eRIGHTS), (s.ctxExists c, eBAD_HANDLE),
      (decide (6 ≤ lg) && decide (lg ≤ 16) && a1 % 4096 == 0, eBAD_ARG), (s.isLive c, eSTATE)] (fun s =>
    ((s.modCtx c (fun x => { x with evEn := bit a0 32, evFunc := f, evVec := bits a0 31 21, evLog := lg, evBase := a1,
                                    evHead := 0, evTail := 0, evPass := 0, evSeq := 0 })).evFlush c).done)

/-- `CTX_EVRING`. -/
def execCtxEvring (f : Nat) (a : Args) (s : State) : Host.Outcome State Fault Refusal :=
  checked s (.ctxEvring f a)
    (if s.barOf f then s.command .ctx f 0x05 a (fun s => s.ctxEvringCmd f a.a0.toNat a.a1.toNat) else s)

/-- The result words of CTX_QUERY. -/
def State.ctxQueryRes (s : State) (c : Nat) : Nat × Nat :=
  let x := s.ctx c
  (x.st + x.code * 2 ^ 8 + x.epoch * 2 ^ 16 + x.flags * 2 ^ 32 + x.evLost * 2 ^ 40 + b2n x.acctSat * 2 ^ 63, x.acct)

/-- `CTX_QUERY`: a FREE context answers zeros to any function (R476). -/
def State.ctxQueryCmd (s : State) (f a0 : Nat) : CmdRes :=
  s.checks [(zeroFrom a0 16, eBAD_OP), (s.ctxRights f a0 false, eRIGHTS)] (fun s =>
    if (s.ctx a0).st = 0 then s.done else ⟨eOK, (s.ctxQueryRes a0).1, (s.ctxQueryRes a0).2, s⟩)

/-- `CTX_QUERY`. -/
def execCtxQuery (f : Nat) (a : Args) (s : State) : Host.Outcome State Fault Refusal :=
  checked s (.ctxQuery f a) (if s.barOf f then s.command .ctx f 0x06 a (fun s => s.ctxQueryCmd f a.a0.toNat) else s)

-- Queues --------------------------------------------------------------------------------------------------------------

/-- Put a queue into the active-queue cache of 4,096 entries; a full cache gives up an entry that is not pinned, the choice
being open (R257). -/
def State.cacheQueue (s : State) (q : Nat) : State :=
  if (s.queue q).cached then s
  else
    let n := s.rd .DSP_STAT_cached 0
    let s := if n < 4096 then s.wr .DSP_STAT_cached 0 (n + 1)
      else
        let l := (s.queues.filter (fun e => e.2.cached && !e.2.pin)).map (·.1)
        let v := l.getD (Config.pick s.tick % max l.length 1) 0
        s.ticked.modQueue v (fun x => { x with cached := false })
    s.modQueue q (fun x => { x with cached := true })

/-- `Q_CREATE` (R257). -/
def State.qCreateCmd (s : State) (f a0 a1 a2 : Nat) : CmdRes :=
  let c := bits a0 15 0
  let k := bits a0 19 16
  let lg := bits a0 24 20
  let p := (s.ctx c).prt
  s.checks [(zeroFrom a0 28, eBAD_OP), (s.ctxRights f c false, eRIGHTS), (s.ctxExists c, eBAD_HANDLE),
      (decide (4 ≤ lg) && decide (lg ≤ 16) && a1 % 4096 == 0 && (!bit a0 25 || decide (a1 < 2 ^ 48)), eBAD_ARG),
      (s.isLive c && (s.slotQueue c k).isNone, eSTATE),
      (decide (s.queueUse p < (s.part p).qQuota) && (!bit a0 26 || decide (s.rd .DSP_STAT_pinned 0 < 1024)), eQUOTA)]
    (fun s =>
      match s.chooseFree (2 ^ 18) (fun i => i != 0 && !(s.queue i).live) with
      | (none, s) => s.fails eQUOTA
      | (some i, s) =>
        let g := (s.queue i).gen
        let s := s.setQueue i { Queue.free with gen := g, live := true, ctx := c, slot := k, log := lg, devmem := bit a0 25,
                                                pin := bit a0 26, held := bit a0 27, base := a1, cookie := a2 }
        let s := if bit a0 26 then
            (s.wr .DSP_STAT_pinned 0 (s.rd .DSP_STAT_pinned 0 + 1)).cacheQueue i
          else s
        ⟨eOK, qHandle i g, 0, s⟩)

/-- `Q_CREATE`. -/
def execQCreate (f : Nat) (a : Args) (s : State) : Host.Outcome State Fault Refusal :=
  checked s (.qCreate f a)
    (if s.barOf f then s.command .ctx f 0x10 a (fun s => s.qCreateCmd f a.a0.toNat a.a1.toNat a.a2.toNat) else s)

/-- Give a captured command of a task an epoch its context no longer has. -/
def staleCap (t : Nat) (e : Nat × Captured) : Nat × Captured :=
  if e.2.task = t then (e.1, { e.2 with epoch := (e.2.epoch + 0x8000) % 2 ^ 16 }) else e

/-- Engine commands of a task, running or in the rings, are discarded: those in the rings when the engine reaches them,
because their captured epoch is no longer the context's (R132, R262). -/
def State.killCmds (s : State) (t : Nat) : State :=
  s.each (s.engs.map (·.1)) (fun s k =>
    let x := s.eng k
    let x := { x with caps := x.caps.map (staleCap t), relays := x.relays.filter (fun r => r.cap.task != t) }
    let s := s.wr .GAL_ENG_STAT_relays k (b2n (!x.relays.isEmpty))
    if x.cur.any (fun e => e.2.1.task == t) then
      (s.wr .GAL_ENG_STAT_state k 0).setEng k { x with cur := none, phase := .idle, parked := none }
    else s.setEng k x)

/-- Stop one task as an abort stops it: its galleries freeze and are cleared, its engine commands are discarded. -/
def State.killTask (s : State) (t : Nat) : State :=
  let u := s.sub t
  let gals := (List.range 32).filter (fun g => (s.gal g).task == some t)
  let s := s.each gals (fun s g => (s.account t (s.gal g).used).releaseGal g)
  let s := s.killCmds t
  let s := s.setSub t { u with gals := [], stage := .accepted }
  s.each u.gals (fun s g => if (s.gal g).task.isNone then s.wr .GAL_DISP_STAT_susp g 0 else s)

/-- `Q_DESTROY`: submissions are discarded, running tasks aborted, the handle freed (R262). -/
def State.qDestroyCmd (s : State) (f a0 : Nat) : CmdRes :=
  s.checks [(zeroFrom a0 32, eBAD_OP), (s.queueRights f a0 true, eRIGHTS), ((s.queueOf a0).isSome, eBAD_HANDLE)] (fun s =>
    match s.queueOf a0 with
    | none => s.done
    | some q =>
      let s := s.each (s.queue q).subs (fun s t => (s.killTask t).discardSub t)
      (s.freeQueue q).done)

/-- `Q_DESTROY`. -/
def execQDestroy (f : Nat) (a : Args) (s : State) : Host.Outcome State Fault Refusal :=
  checked s (.qDestroy f a) (if s.barOf f then s.command .ctx f 0x11 a (fun s => s.qDestroyCmd f a.a0.toNat) else s)

/-- The result word of Q_QUERY. -/
def State.qQueryRes (s : State) (q : Nat) : Nat :=
  let x := s.queue q
  x.head + x.tail * 2 ^ 16 + (if x.halted then 1 else if x.held then 2 else 0) * 2 ^ 32 + x.code * 2 ^ 40

/-- `Q_QUERY`. -/
def State.qQueryCmd (s : State) (f a0 : Nat) : CmdRes :=
  s.checks [(zeroFrom a0 32, eBAD_OP), (s.queueRights f a0 false, eRIGHTS), ((s.queueOf a0).isSome, eBAD_HANDLE)] (fun s =>
    match s.queueOf a0 with
    | none => s.done
    | some q => ⟨eOK, s.qQueryRes q, 0, s⟩)

/-- `Q_QUERY`. -/
def execQQuery (f : Nat) (a : Args) (s : State) : Host.Outcome State Fault Refusal :=
  checked s (.qQuery f a) (if s.barOf f then s.command .ctx f 0x13 a (fun s => s.qQueryCmd f a.a0.toNat) else s)

-- Memory objects ------------------------------------------------------------------------------------------------------

/-- `MOBJ_CREATE` (R267). -/
def State.mobjCreateCmd (s : State) (f a0 a1 a2 a3 : Nat) : CmdRes :=
  let c := bits a0 15 0
  s.checks [(zeroFrom a0 17 && a1 % 2 ^ 16 == 0 && zeroFrom a1 48, eBAD_OP), (s.ctxRights f c false, eRIGHTS),
      (s.ctxExists c, eBAD_HANDLE), (a2 % 65536 == 0, eBAD_ARG), (s.isLive c, eSTATE)] (fun s =>
    match s.chooseFree (2 ^ 18) (fun i => i != 0 && !(s.mobj i).live) with
    | (none, s) => s.fails eQUOTA
    | (some i, s) =>
      let g := (s.mobj i).gen
      ⟨eOK, mHandle i g, 0, s.setMobj i ⟨g, true, c, bit a0 16, a1, a2, a3, 1, 0⟩⟩)

/-- `MOBJ_CREATE`. -/
def execMobjCreate (f : Nat) (a : Args) (s : State) : Host.Outcome State Fault Refusal :=
  checked s (.mobjCreate f a)
    (if s.barOf f then
      s.command .ctx f 0x20 a (fun s => s.mobjCreateCmd f a.a0.toNat a.a1.toNat a.a2.toNat a.a3.toNat)
     else s)

/-- A command on an existing memory object. -/
def State.mobjCmd (s : State) (f a0 : Nat) (k : Nat → State → CmdRes) : CmdRes :=
  s.checks [(zeroFrom a0 32, eBAD_OP), (s.mobjRights f a0, eRIGHTS), ((s.mobjOf a0).isSome, eBAD_HANDLE)] (fun s =>
    match s.mobjOf a0 with
    | none => s.done
    | some i => k i s)

/-- `MOBJ_RETAIN`: a condemned object fails with STATE (R267). -/
def State.mobjRetainCmd (s : State) (f a0 : Nat) : CmdRes :=
  s.mobjCmd f a0 (fun i s =>
    let m := s.mobj i
    if m.host = 0 then s.fails eSTATE
    else if 2 ^ 32 - 1 ≤ m.host then s.fails eOVERFLOW
    else (s.setMobj i { m with host := m.host + 1 }).done)

/-- `MOBJ_RETAIN`. -/
def execMobjRetain (f : Nat) (a : Args) (s : State) : Host.Outcome State Fault Refusal :=
  checked s (.mobjRetain f a) (if s.barOf f then s.command .ctx f 0x21 a (fun s => s.mobjRetainCmd f a.a0.toNat) else s)

/-- `MOBJ_RELEASE`: at a host count of 0 it fails with STATE. -/
def State.mobjReleaseCmd (s : State) (f a0 : Nat) : CmdRes :=
  s.mobjCmd f a0 (fun i s =>
    let m := s.mobj i
    if m.host = 0 then s.fails eSTATE else ((s.setMobj i { m with host := m.host - 1 }).reclaim i).done)

/-- `MOBJ_RELEASE`. -/
def execMobjRelease (f : Nat) (a : Args) (s : State) : Host.Outcome State Fault Refusal :=
  checked s (.mobjRelease f a) (if s.barOf f then s.command .ctx f 0x22 a (fun s => s.mobjReleaseCmd f a.a0.toNat) else s)

/-- `MOBJ_QUERY`. -/
def State.mobjQueryCmd (s : State) (f a0 : Nat) : CmdRes :=
  s.mobjCmd f a0 (fun i s => ⟨eOK, (s.mobj i).host + (s.mobj i).dev * 2 ^ 32, b2n ((s.mobj i).host == 0), s⟩)

/-- `MOBJ_QUERY`. -/
def execMobjQuery (f : Nat) (a : Args) (s : State) : Host.Outcome State Fault Refusal :=
  checked s (.mobjQuery f a) (if s.barOf f then s.command .ctx f 0x23 a (fun s => s.mobjQueryCmd f a.a0.toNat) else s)

-- Fences --------------------------------------------------------------------------------------------------------------

/-- `FEN_CREATE`. -/
def State.fenCreateCmd (s : State) (f a0 : Nat) : CmdRes :=
  let c := a0
  let p := (s.ctx c).prt
  s.checks [(zeroFrom a0 16, eBAD_OP), (s.ctxRights f c false, eRIGHTS), (s.ctxExists c, eBAD_HANDLE), (s.isLive c, eSTATE),
      (decide (s.fenceUse p < (s.part p).fenceQuota), eQUOTA)] (fun s =>
    match s.chooseFree (2 ^ 20) (fun i => i != 0 && !(s.fence i).live) with
    | (none, s) => s.fails eQUOTA
    | (some i, s) =>
      let g := (s.fence i).gen
      ⟨eOK, fHandle i g, 0, s.setFence i { Fence.free with gen := g, live := true, ctx := c }⟩)

/-- `FEN_CREATE`. -/
def execFenCreate (f : Nat) (a : Args) (s : State) : Host.Outcome State Fault Refusal :=
  checked s (.fenCreate f a) (if s.barOf f then s.command .fen f 0x01 a (fun s => s.fenCreateCmd f a.a0.toNat) else s)

/-- A command on an existing fence, with the bits of ARG0 that it names and its check of arguments. -/
def State.fenCmd (s : State) (f a0 named : Nat) (arg : Bool) (k : Nat → State → CmdRes) : CmdRes :=
  let h := bits a0 31 0
  s.checks [(zeroFrom a0 named, eBAD_OP), (s.fenceRights f h, eRIGHTS), ((s.fenceOf h).isSome, eBAD_HANDLE), (arg, eBAD_ARG)]
    (fun s => match s.fenceOf h with
      | none => s.done
      | some i => k i s)

/-- `FEN_SIGNAL` (R269): a fence in error keeps its state, and the command fails with STATE. -/
def State.fenSignalCmd (s : State) (f a0 v : Nat) : CmdRes :=
  s.fenCmd f a0 32 true (fun i s =>
    if (s.fence i).st = 2 then s.fails eSTATE
    else if (s.fence i).takes v then (s.fenceSignal i v).done
    else s.fails eFENCE_BACK)

/-- `FEN_SIGNAL`. -/
def execFenSignal (f : Nat) (a : Args) (s : State) : Host.Outcome State Fault Refusal :=
  checked s (.fenSignal f a)
    (if s.barOf f then s.command .fen f 0x02 a (fun s => s.fenSignalCmd f a.a0.toNat a.a1.toNat) else s)

/-- `FEN_ERROR`. -/
def State.fenErrorCmd (s : State) (f a0 : Nat) : CmdRes := s.fenCmd f a0 32 true (fun i s => (s.fenceError i).done)

/-- `FEN_ERROR`. -/
def execFenError (f : Nat) (a : Args) (s : State) : Host.Outcome State Fault Refusal :=
  checked s (.fenError f a) (if s.barOf f then s.command .fen f 0x03 a (fun s => s.fenErrorCmd f a.a0.toNat) else s)

/-- `FEN_ARM` (R271). -/
def State.fenArmCmd (s : State) (f a0 a1 a2 : Nat) : CmdRes :=
  s.fenCmd f a0 34 (bits a0 33 32 != 3) (fun i s =>
    (s.setFence i { s.fence i with mode := bits a0 33 32, cookie := a1, thr := a2 }).done)

/-- `FEN_ARM`. -/
def execFenArm (f : Nat) (a : Args) (s : State) : Host.Outcome State Fault Refusal :=
  checked s (.fenArm f a)
    (if s.barOf f then s.command .fen f 0x04 a (fun s => s.fenArmCmd f a.a0.toNat a.a1.toNat a.a2.toNat) else s)

/-- `FEN_QUERY`. -/
def State.fenQueryCmd (s : State) (f a0 : Nat) : CmdRes :=
  s.fenCmd f a0 32 true (fun i s => ⟨eOK, (s.fence i).st, (s.fence i).value, s⟩)

/-- `FEN_QUERY`. -/
def execFenQuery (f : Nat) (a : Args) (s : State) : Host.Outcome State Fault Refusal :=
  checked s (.fenQuery f a) (if s.barOf f then s.command .fen f 0x05 a (fun s => s.fenQueryCmd f a.a0.toNat) else s)

/-- `FEN_DESTROY`: the index is free and its generation advances (R254). -/
def State.fenDestroyCmd (s : State) (f a0 : Nat) : CmdRes :=
  s.fenCmd f a0 32 true (fun i s =>
    let s := s.setFence i { Fence.free with gen := ((s.fence i).gen + 1) % 2 ^ 12 }
    { s with flinks := s.flinks.filter (fun l => l.fence != i) }.done)

/-- `FEN_DESTROY`. -/
def execFenDestroy (f : Nat) (a : Args) (s : State) : Host.Outcome State Fault Refusal :=
  checked s (.fenDestroy f a) (if s.barOf f then s.command .fen f 0x06 a (fun s => s.fenDestroyCmd f a.a0.toNat) else s)

end Sys2Proof.Machine
end

