-- ==== Sys2Proof/Machine/LinkPhy.lean ====
section
/-! DEFINITION. Huaton ports: negotiation, link state, flits, receive buffering (R324 to R332, R349). -/

namespace Sys2Proof.Machine

-- Modes ---------------------------------------------------------------------------------------------------------------

/-- Lanes of a rank (*Port modes*). -/
def rankLanes (r : Nat) : Nat := if r ≤ 7 then 4 else if r ≤ 13 then 2 else 1

/-- Whether a rank is an Ethernet mode. -/
def rankEth (r : Nat) : Bool := [4, 5, 6, 11, 12, 17].contains r

/-- The bit of the Huaton ability word that a native rank needs. -/
def rankBit (r : Nat) : Nat :=
  if [1, 8, 14].contains r then 0 else if [2, 9, 15].contains r then 1 else if [3, 10, 16].contains r then 2 else 3

/-- The lane sets a rank may use, the one tried first first. -/
def laneSets (n : Nat) : List Nat :=
  match n with
  | 4 => [0xF]
  | 2 => [0x3, 0xC]
  | _ => [1, 2, 4, 8]

/-- The first lane set of a rank within some lanes. -/
def laneSet (r avail : Nat) : Option Nat := (laneSets (rankLanes r)).find? (fun m => m &&& avail == m)

/-- The Huaton ability word a port advertises. -/
def State.ability (s : State) (n : Nat) : Nat :=
  let rk := s.rd .HTN_PORT_CTRL_ranks n
  let has := fun (b : Nat) => ((List.range 18).map (· + 1)).any (fun r => !rankEth r && rankBit r == b && rk.testBit (r - 1))
  b2n (has 0) + 2 * b2n (has 1) + 4 * b2n (has 2) + 8 * b2n (has 3) + 16 * s.rd .HTN_PORT_CTRL_lanes n + 256

/-- Lanes a rank may use on a port: enabled here and, in native modes, there, less those that failed (R324, R327). -/
def State.availLanes (s : State) (n r : Nat) : Nat :=
  let own := s.rd .HTN_PORT_CTRL_lanes n &&& (15 ^^^ ((s.port n).failed % 16))
  if rankEth r then own else own &&& bits (s.rd .HTN_AN_LP_ability n) 7 4

/-- The lowest common rank (R324, R327). -/
def State.commonRank (s : State) (n : Nat) : Option Nat :=
  ((List.range 18).map (· + 1)).find? (fun r =>
    (s.rd .HTN_PORT_CTRL_ranks n).testBit (r - 1)
      && (if rankEth r then (s.port n).lpEth.testBit r else (s.rd .HTN_AN_LP_ability n).testBit (rankBit r))
      && (laneSet r (s.availLanes n r)).isSome)

/-- Choose a rank and train it, or fail (R327). -/
def State.chooseRank (s : State) (n : Nat) : State :=
  match s.commonRank n with
  | some r =>
    let s := (s.wr .HTN_PORT_STAT_state n 2).wr .HTN_PORT_STAT_rank n r
    s.wr .HTN_PORT_STAT_lanes n ((laneSet r (s.availLanes n r)).getD 0)
  | none => ((s.wr .HTN_PORT_STAT_state n 5).wr .HTN_PORT_STAT_rank n 0).wr .HTN_PORT_STAT_lanes n 0

-- Link state ----------------------------------------------------------------------------------------------------------

/-- Domain of a port's link clock (R23). -/
def portDom (n : Nat) : Nat := if n < 16 then 4 else 5

/-- Sessions that a port carries. -/
def State.sessOn (s : State) (n : Nat) : List Nat :=
  (s.sesss.filter (fun e => e.2.st == 2 && e.2.ports.testBit n)).map (·.1)

/-- Show whether a port carries a session. -/
def State.showPort (s : State) (n : Nat) : State :=
  if s.linkUp n then s.wr .HTN_PORT_STAT_state n (if (s.sessOn n).isEmpty then 3 else 4) else s

/-- Move a session's traffic off a port: it leaves the port set unless it is the last one, and the packets it carried are
sent again at once (R336). -/
def State.failOver (s : State) (i n : Nat) : State :=
  let x := s.sess i
  let rest := x.ports - 2 ^ n
  let s := if rest = 0 then s else s.setSess i { x with ports := rest }
  (x.unacked.filter (fun p => p.port == n)).foldl (fun s p => s.resend i p.psn) s

/-- What a link that goes down leaves of a port: what waits to be sent, and completed packets. -/
def Port.cut (x : Port) : Port := { Port.idle with txq := x.txq, sump := x.sump, sumpPos := x.sumpPos, elastic := x.elastic }

/-- A link goes down: state, flag, failover (R328, R336). -/
def State.goDown (s : State) (n st : Nat) : State :=
  let ses := s.sessOn n
  let s := if s.linkUp n then s.wr .HTN_PORT_STAT_down n 1 else s
  let s := ((s.wr .HTN_PORT_STAT_state n st).wr .HTN_PORT_STAT_rank n 0).wr .HTN_PORT_STAT_lanes n 0
  let s := (s.wr .HTN_PORT_STAT_eth n 0).modPort n Port.cut
  s.each ses (fun s i => s.failOver i n)

/-- The RAS record of a lane (row 9) or a port (row 10) lost (R370, R372). -/
def State.portFault (s : State) (n row : Nat) : State :=
  (s.count .RAS_CNT_UNIT_count .RAS_CNT_UNIT_ovf 0 1).rasRecord
    ⟨3, row, 6, uPORT, n, (s.prtOf n).getD 0xFF, portDom n, 0, 0⟩

/-- A running link fails: it is negotiated again (R330). -/
def State.linkFail (s : State) (n : Nat) : State := if s.linkUp n then (s.goDown n 1).portFault n 10 else s

/-- Whether a source may write the PHY and Ethernet registers of a port: the physical function and management, and neither
while the port's partition is confidential. -/
def State.phySrc (s : State) (src : Src) (n : Nat) : Bool :=
  (match src with
    | .mgmt => true
    | .func f => f == 0 && s.barOf 0 && !s.moving n) && !(match s.prtOf n with
    | some p => s.confidential p
    | none => false)

/-- `RENEGO` (R327): a disabled port stays so. -/
def execRenego (src : Src) (n : Nat) (s : State) : Host.Outcome State Fault Refusal :=
  gate s (src.ok && decide (n < 32))
    (if s.phySrc src n && s.flag .HTN_PORT_CTRL_en n then
      let s := s.goDown n 1
      s.wr .HTN_AN_ADV_ability n (s.ability n)
     else s)

/-- `AUTO_NEGOTIATION`: the partner's pages arrive; no Ohmair page means an ability word of 0 (R327 step 2). -/
def execAutoNegotiation (n lpAbility lpEth : Nat) (s : State) : Host.Outcome State Fault Refusal :=
  gate s (decide (n < 32))
    (if s.flag .HTN_PORT_CTRL_en n && s.rd .HTN_PORT_STAT_state n == 1 then
      let s := (s.wr .HTN_AN_ADV_ability n (s.ability n)).wr .HTN_AN_LP_ability n lpAbility
      (s.modPort n (fun x => { x with lpEth := lpEth, failed := 0 })).chooseRank n
     else s)

-- Greetings go out ----------------------------------------------------------------------------------------------------

/-- n bytes of the random-bit generator (R425). -/
def State.random (s : State) (n : Nat) : List Byte × State :=
  ((List.range n).map (Config.randomByte s.tick), { s.ticked with sec := { s.sec with drbg := s.sec.drbg + 1 } })

/-- Largest data field a port accepts (R333, R348). -/
def State.portMax (s : State) (n : Nat) : Nat :=
  if s.native n then 4096
  else
    let room := s.rd .HTN_ETH_CFG_mtu n * 256 - (if s.flag .HTN_ETH_CFG_ipv6 n then 112 else 92)
    if 4096 ≤ room then 4096 else if 1024 ≤ room then 1024 else 256

/-- Live exports of a partition that name a peer partition. -/
def State.exportsTo (s : State) (p peer peerPrt : Nat) : Nat :=
  (s.wins.filter (fun e => e.2.kind == 1 && (s.ctx e.2.ctx).prt == p && e.2.peer == peer && e.2.peerPrt == peerPrt)).length

/-- The header values of a greeting: phase, versions, flags, capabilities, partitions, windows, sizes, session, generation. -/
def State.greetVals (s : State) (n i phase : Nat) : List Nat :=
  let x := s.sess i
  [phase, 1, 0, b2n (!s.native n), 0xF, x.prt, x.peerPrt, s.exportsTo x.prt x.peer x.peerPrt, s.portMax n, i,
   s.rd .SVY_GEN_gen 0]

/-- Send phase 0 of an exchange on a port: identity key, a fresh public key and a nonce (R333). -/
def State.sendOffer (s : State) (n i : Nat) : State :=
  let (r, s) := s.random 48
  s.onPort n 3 (flitsOf 104) (.link n .greetingOffer (s.greetVals n i 0) (natLe 32 s.idPub ++ r))

/-- Send phase 1: the signature of the transcript. -/
def State.sendConfirm (s : State) (n i : Nat) : State :=
  let (r, s) := s.random 64
  s.onPort n 3 (flitsOf 88) (.link n .greetingConfirm (s.greetVals n i 1) r)

/-- The session of a partition with a peer, found or taken free; none when all 1,024 are in use (R333). -/
def State.sessFor (s : State) (p peer peerPrt : Nat) : Option Nat × State :=
  match s.sesss.find? (fun e => e.2.st != 0 && e.2.prt == p && e.2.peer == peer && e.2.peerPrt == peerPrt) with
  | some e => (some e.1, s)
  | none => match (List.range 1024).find? (fun i => (s.sess i).st == 0) with
    | some i => (some i, s.setSess i { Sess.free with st := 1, prt := p, peer := peer, peerPrt := peerPrt })
    | none => (none, s)

/-- Whether an Ethernet port has a neighbour entry for a peer (R349). -/
def State.hasNbr (s : State) (n peer : Nat) : Bool :=
  (List.range 64).any (fun e => s.flag .HTN_NBR_MAC_valid (64 * n + e) && s.rd .HTN_NBR_PEER_value (64 * n + e) == peer)

/-- Greet every peer whose routes name a port that has come up (R327 step 5, R333). -/
def State.greet (s : State) (n : Nat) : State :=
  match s.prtOf n with
  | none => s
  | some p => s.each ((s.part p).peers.filter (fun q => q.ports.testBit n)) (fun s q =>
      if s.native n || s.hasNbr n q.id then
        match s.sessFor p q.id q.prt with
        | (some i, s) => s.sendOffer n i
        | (none, s) => s
      else s)

/-- A link comes up: mode, timers for it, a fresh link layer, greetings (R327, R350). -/
def State.goUp (s : State) (n r lanes : Nat) : State :=
  let eth := rankEth r
  let s := ((s.wr .HTN_PORT_STAT_state n 3).wr .HTN_PORT_STAT_rank n r).wr .HTN_PORT_STAT_lanes n lanes
  let s := (s.wr .HTN_PORT_STAT_eth n (b2n eth)).modPort n Port.cut
  let s := (s.wr .HTN_TMR_req n (if eth then 50 else 5)).wr .HTN_TMR_rto n (if eth then 100 else 8)
  (s.greet n).showPort n

/-- `LINK_UP`: the lanes that trained; without a lane set for the rank, the next rank that avoids the others is tried (R327). -/
def execLinkUp (n lanesTrained : Nat) (s : State) : Host.Outcome State Fault Refusal :=
  gate s (decide (n < 32))
    (if s.rd .HTN_PORT_STAT_state n != 2 then s
     else
      let r := s.rd .HTN_PORT_STAT_rank n
      match laneSet r (s.availLanes n r &&& lanesTrained) with
      | some m => s.goUp n r m
      | none => (s.modPort n (fun x => { x with failed := x.failed ||| (15 ^^^ (lanesTrained % 16)) })).chooseRank n)

/-- `LANE_LOSS`: a running native link retrains at the next usable rank; its traffic moves (R328, row 9). -/
def execLaneLoss (n lane : Nat) (s : State) : Host.Outcome State Fault Refusal :=
  gate s (decide (n < 32) && decide (lane < 4))
    (if s.linkUp n && s.native n && (s.rd .HTN_PORT_STAT_lanes n).testBit lane then
      let s := (s.goDown n 2).modPort n (fun x => { x with failed := 2 ^ lane })
      (s.chooseRank n).portFault n 9
     else s)

/-- `LINK_DOWN` (R330). -/
def execLinkDown (n : Nat) (s : State) : Host.Outcome State Fault Refusal := gate s (decide (n < 32)) (s.linkFail n)

-- Receiving -----------------------------------------------------------------------------------------------------------

/-- Bytes of receive SRAM that packets in the elastic region take: 80 for a flit. -/
def Port.elasticFlits (x : Port) : Nat := x.elastic.foldl (fun a e => a + e.1) 0
def Port.sumpBytes (x : Port) : Nat := x.sump.foldl (fun a e => a + ceilDiv e.2 64 * 64) 0

/-- Show the receive buffers (R350). -/
def State.showRx (s : State) (n : Nat) : State :=
  let x := s.port n
  let s := (s.wr .HTN_RX_STAT_flits n x.elasticFlits).wr .HTN_RX_STAT_sump n (x.sumpBytes / 64)
  s.wr .HTN_RX_STAT_bp n (b2n (decide (880 * 1024 ≤ 80 * x.elasticFlits)))

/-- A control flit: the next flit expected and the credits returned per channel (R329). -/
def State.sendControl (s : State) (n : Nat) (cr : List Nat) : State := s.emit (.link n .credits ((s.port n).rxSeq :: cr) [])

/-- Credits of one channel. -/
def credit (vc n : Nat) : List Nat := (List.replicate 4 0).set vc n

/-- Write bytes into a ring of a memory, wrapping at its size. -/
def ringWrite (m : List Host.Cell) (base size pos : Nat) : List Byte → List Host.Cell
  | [] => m
  | b :: l => ringWrite (memWrite m (base + pos % size) [b]) base size (pos + 1) l

/-- Write a completed packet to the sump ring, in whole 64-byte units (R332). -/
def State.toSump (s : State) (n flits : Nat) (d : List Byte) : State :=
  let x := s.port n
  let size := s.rd .HTN_SUMP_frames n * 65536
  let base := s.rd .HTN_SUMP_base n * 65536
  let pad := d ++ List.replicate (ceilDiv d.length 64 * 64 - d.length) 0#8
  let s := match s.prtOf n with
    | some p => { s with pmem := ringWrite s.pmem (pmemKey p base) size x.sumpPos pad }
    | none => s
  s.setPort n { x with sump := x.sump ++ [(flits, d.length)], sumpPos := (x.sumpPos + pad.length) % max size 1 }

/-- Whether a packet goes to the sump: the elastic region is above 768 KiB, and the sump has room (R332). -/
def State.spills (s : State) (n len : Nat) : Bool :=
  let x := s.port n
  decide (768 * 1024 < 80 * x.elasticFlits) && decide (x.sumpBytes + ceilDiv len 64 * 64 ≤ s.rd .HTN_SUMP_frames n * 65536)

/-- A packet of VC0 or VC2 is complete: it waits in SRAM or in the sump. -/
def State.packetIn (s : State) (n vc flits : Nat) (d : List Byte) : State :=
  if vc = 0 ∨ vc = 2 then
    if s.spills n d.length then (s.toSump n flits d).sendControl n (credit vc flits)
    else s.modPort n (fun x => { x with elastic := x.elastic ++ [(flits, d.length)] })
  else s.sendControl n (credit vc flits)

/-- Deliver the oldest waiting packet of a port: its space is free again (R332). -/
def State.deliverPacket (s : State) (n : Nat) : State :=
  let x := s.port n
  match x.elastic, x.sump with
  | (fl, _) :: rest, _ => ((s.setPort n { x with elastic := rest }).sendControl n (credit 0 fl)).showRx n
  | [], _ :: rest => (s.setPort n { x with sump := rest }).showRx n
  | [], [] => s

/-- A payload flit in order (R329, R330). -/
def State.flitIn (s : State) (n : Nat) (f : Flit) : State :=
  let s := s.modPort n (fun x => { x with rxSeq := (x.rxSeq + 1) % 2048, discarding := false })
  let x := s.port n
  let old := (x.partials.find? (fun e => e.1 == f.vc)).getD (f.vc, 0, [])
  let cur := if f.sop then (f.vc, 1, f.data) else (f.vc, old.2.1 + 1, old.2.2 ++ f.data)
  let others := x.partials.filter (fun e => e.1 != f.vc)
  if f.eop then ((s.setPort n { x with partials := others }).packetIn n f.vc cur.2.1 cur.2.2).showRx n
  else s.setPort n { x with partials := others ++ [cur] }

/-- `PAYLOAD_FLIT`: only the flit expected is accepted; any other is discarded, and the first time a replay is asked for. -/
def execPayloadFlit (n : Nat) (f : Flit) (s : State) : Host.Outcome State Fault Refusal :=
  gate s (decide (n < 32))
    (if !(s.linkUp n && s.native n) then s
     else
      let s := if f.ok then s else s.count .HTN_FEC_UE_count .HTN_FEC_UE_ovf n 1
      let x := s.port n
      if f.ok && f.seq == x.rxSeq then (s.flitIn n f).sendControl n [0, 0, 0, 0]
      else if x.discarding then s
      else (s.setPort n { x with discarding := true }).emit (.link n .replayRequest [x.rxSeq] []))

/-- `CONTROL_FLIT`: the cumulative acknowledgement and returned credits; what waited goes out (R329 to R331). -/
def execControlFlit (n ack : Nat) (credits : List Nat) (s : State) : Host.Outcome State Fault Refusal :=
  gate s (decide (n < 32))
    (if !(s.linkUp n && s.native n) then s
     else
      let x := s.port n
      let moved := decide (0 < (ack + 2048 - x.ackSeq) % 2048) && decide ((ack + 2048 - x.ackSeq) % 2048 ≤ (x.txSeq + 2048 - x.ackSeq) % 2048)
      let s := s.setPort n { x with ackSeq := if moved then ack % 2048 else x.ackSeq, replays := if moved then 0 else x.replays,
                                    credits := (List.range 4).map (fun k => x.credits.getD k 0 + credits.getD k 0) }
      s.drainPort n (s.port n).txq.length)

/-- `REPLAY_REQUEST`: go back to the flit asked for; eight replays of one flit that failed take the link down (R330). -/
def execReplayRequest (n seq : Nat) (s : State) : Host.Outcome State Fault Refusal :=
  gate s (decide (n < 32))
    (if !(s.linkUp n && s.native n) then s
     else
      let x := s.port n
      let back := (seq + 2048 - x.ackSeq) % 2048
      if (x.txSeq + 2048 - x.ackSeq) % 2048 ≤ back then s
      else
        let cnt := if x.replayOf = seq then x.replays + 1 else 1
        if 8 < cnt then s.linkFail n
        else
          let s := s.setPort n { x with ackSeq := seq % 2048, replays := cnt, replayOf := seq }
          (s.count .HTN_LINK_RETRY_count .HTN_LINK_RETRY_ovf n 1).emit (.link n .replay [seq, x.txSeq] []))

-- Neighbours ----------------------------------------------------------------------------------------------------------

/-- Whether a port runs an Ethernet mode. -/
def State.ethUp (s : State) (n : Nat) : Bool := s.linkUp n && !s.native n

/-- `ARP_REQUEST` for the port's IPv4 address (R349). -/
def execArpRequest (n ip : Nat) (s : State) : Host.Outcome State Fault Refusal :=
  gate s (decide (n < 32))
    (if s.ethUp n && !s.flag .HTN_ETH_CFG_ipv6 n && ip == s.rd .HTN_ETH_IP0_value n % 2 ^ 32 then
      s.emit (.link n .arpReply [ip, s.rd .HTN_ETH_MAC_mac n] [])
     else s)

/-- `NEIGHBOUR_SOLICITATION` for the port's IPv6 address (R349). -/
def execNeighbourSolicitation (n ip : Nat) (s : State) : Host.Outcome State Fault Refusal :=
  gate s (decide (n < 32))
    (if s.ethUp n && s.flag .HTN_ETH_CFG_ipv6 n && ip == s.rd .HTN_ETH_IP0_value n + s.rd .HTN_ETH_IP1_value n * 2 ^ 64 then
      s.emit (.link n .neighbourAdvert [ip, s.rd .HTN_ETH_MAC_mac n] [])
     else s)

end Sys2Proof.Machine
end

