-- ==== Sys2Proof/Machine/MemSlot.lean ====
section
/-! DEFINITION. Slot M: loads, stores, atomics at the bank and far moves (R97 to R101, R106, R107). -/

namespace Sys2Proof.Machine

/-- Rank of a sequencer data access (R166). -/
def rankSEQ : Nat := 4

/-- base + imm modulo 2^48 (R97). -/
def State.memOff (s : State) (g base : Nat) (imm : Int) : Nat := (s.areg g base + BitVec.ofInt 48 imm).toNat

/-- Checks of an M-slot range (R98): window, semaphore and pager regions, bank owners, then alignment; k goes on. -/
def memChecked (g off len al : Nat) (k : State → SlotRes) (s : State) : SlotRes :=
  if !inWindow off len (s.winBase g) (s.winLimit g) || s.inSems g off len || s.inPager g off len then .plain tPOOL_BOUNDS
  else
    let bad := s.bankViols g off len (s.taskCtx g)
    if !bad.isEmpty then .trap tPOOL_BOUNDS 0 (fun s => s.setViols g bad)
    else if off % al ≠ 0 then .plain tALIGN
    else k s

/-- Read pool bytes for the sequencer: it arbitrates first, and an uncorrectable codeword ends the task (R107, R172). -/
def seqRead (g off len : Nat) (k : List Byte → State → SlotRes) (s : State) : SlotRes :=
  let s := s.arbitrate g (s.banksOf g off len)
  match s.poolRead g off len rankSEQ (s.taskCtx g) with
  | (.ok b, s) => k b s
  | (.ue o, s) => .stop (s.poolFault g o)

/-- Write pool bytes for the sequencer. -/
def seqWrite (g off : Nat) (data : List Byte) (k : State → SlotRes) (s : State) : SlotRes :=
  let s := s.arbitrate g (s.banksOf g off data.length)
  match s.poolWrite g off rankSEQ (s.taskCtx g) data with
  | (.ok _, s) => k s
  | (.ue o, s) => .stop (s.poolFault g o)

/-- Bytes as a vector word, and back. -/
def vwordOf (l : List Byte) : VWord := BitVec.ofNat 4096 (leNat l)
def vbytes (v : VWord) : List Byte := natLe 512 v.toNat

/-- Finish a slot with a pending result. -/
def doneM (g lat : Nat) (r : Result) (s : State) : SlotRes := .ok (s.pendRes g 4 lat 0 r) none

/-- Core c loads 512 bytes at offset + 512c, latency 6 (R97). -/
def slotVld (g : Nat) (o : MemOp) : SlotAct :=
  ⟨4, o.p, true, fun s => 
    let off := s.memOff g o.base o.imm
    memChecked g off 2048 128 (seqRead g off 2048 (fun b =>
      let w := fun c => vwordOf ((b.drop (512 * c)).take 512)
      doneM g 6 (.v o.r (w 0) (w 1) (w 2) (w 3)))) s⟩

/-- `VLD`. -/
def execVld (g : Nat) (o : MemOp) (s : State) : Host.Outcome State Fault Refusal :=
  checked s (.vld g o) (s.issueOne g (slotVld g o))

/-- Every core loads the same 512 bytes, latency 6 (R97). -/
def slotVldb (g : Nat) (o : MemOp) : SlotAct :=
  ⟨4, o.p, true, fun s => 
    let off := s.memOff g o.base o.imm
    memChecked g off 512 128 (seqRead g off 512 (fun b => doneM g 6 (.v o.r (vwordOf b) (vwordOf b) (vwordOf b) (vwordOf b)))) s⟩

/-- `VLDB`. -/
def execVldb (g : Nat) (o : MemOp) (s : State) : Host.Outcome State Fault Refusal :=
  checked s (.vldb g o) (s.issueOne g (slotVldb g o))

/-- Core c stores 512 bytes at offset + 512c (R97). -/
def slotVst (g : Nat) (o : MemOp) : SlotAct :=
  ⟨4, o.p, true, fun s => 
    let off := s.memOff g o.base o.imm
    let b := (List.range 4).flatMap (fun c => vbytes (s.vreg g o.r c))
    memChecked g off 2048 128 (seqWrite g off b (fun s => .ok s none)) s⟩

/-- `VST`. -/
def execVst (g : Nat) (o : MemOp) (s : State) : Host.Outcome State Fault Refusal :=
  checked s (.vst g o) (s.issueOne g (slotVst g o))

/-- s r := the 64-bit word, latency 5 (R97). -/
def slotSld (g : Nat) (o : MemOp) : SlotAct :=
  ⟨4, o.p, decide (o.r.val < 32), fun s => 
    let off := s.memOff g o.base o.imm
    memChecked g off 8 8 (seqRead g off 8 (fun b => doneM g 5 (.s o.r (BitVec.ofNat 64 (leNat b))))) s⟩

/-- `SLD`. -/
def execSld (g : Nat) (o : MemOp) (s : State) : Host.Outcome State Fault Refusal :=
  checked s (.sld g o) (s.issueOne g (slotSld g o))

/-- The 64-bit word := s r (R97). -/
def slotSst (g : Nat) (o : MemOp) : SlotAct :=
  ⟨4, o.p, decide (o.r.val < 32), fun s => 
    let off := s.memOff g o.base o.imm
    memChecked g off 8 8 (seqWrite g off (natLe 8 (s.sreg g o.r).toNat) (fun s => .ok s none)) s⟩

/-- `SST`. -/
def execSst (g : Nat) (o : MemOp) (s : State) : Host.Outcome State Fault Refusal :=
  checked s (.sst g o) (s.issueOne g (slotSst g o))

/-- a r := bits [47:0] of the word, latency 5 (R97). -/
def slotAld (g : Nat) (o : MemOp) : SlotAct :=
  ⟨4, o.p, decide (o.r.val < 32), fun s => 
    let off := s.memOff g o.base o.imm
    memChecked g off 8 8 (seqRead g off 8 (fun b => doneM g 5 (.a o.r (BitVec.ofNat 48 (leNat b))))) s⟩

/-- `ALD`. -/
def execAld (g : Nat) (o : MemOp) (s : State) : Host.Outcome State Fault Refusal :=
  checked s (.ald g o) (s.issueOne g (slotAld g o))

/-- An atomic at the bank: the old word goes to s d, zero-extended, latency 7 (R97, R170). -/
def bankAtomic (g : Nat) (o : AtmOp) (op : AtomicOp) (s : State) : SlotRes :=
  let off := s.memOff g o.base o.imm
  let n := atomicSize op
  let y := (s.sreg g o.y).toNat
  memChecked g off n n (seqRead g off n (fun b s =>
    match s.poolWrite g off rankSEQ (s.taskCtx g) (natLe n (atomicNew op (leNat b) y)) with
    | (.ok _, s) => doneM g 7 (.s o.d (BitVec.ofNat 64 (leNat b))) s
    | (.ue u, s) => .stop (s.poolFault g u))) s

/-- Atomic word += s y (R97). -/
def slotPadd64 (g : Nat) (o : AtmOp) : SlotAct :=
  ⟨4, o.p, true, fun s => bankAtomic g o .add64 s⟩

/-- `PADD64`. -/
def execPadd64 (g : Nat) (o : AtmOp) (s : State) : Host.Outcome State Fault Refusal :=
  checked s (.padd64 g o) (s.issueOne g (slotPadd64 g o))

/-- Atomic 32-bit word += s y (R97). -/
def slotPadd32 (g : Nat) (o : AtmOp) : SlotAct :=
  ⟨4, o.p, true, fun s => bankAtomic g o .add32 s⟩

/-- `PADD32`. -/
def execPadd32 (g : Nat) (o : AtmOp) (s : State) : Host.Outcome State Fault Refusal :=
  checked s (.padd32 g o) (s.issueOne g (slotPadd32 g o))

/-- Atomic word := s y (R97). -/
def slotPswp64 (g : Nat) (o : AtmOp) : SlotAct :=
  ⟨4, o.p, true, fun s => bankAtomic g o .swp64 s⟩

/-- `PSWP64`. -/
def execPswp64 (g : Nat) (o : AtmOp) (s : State) : Host.Outcome State Fault Refusal :=
  checked s (.pswp64 g o) (s.issueOne g (slotPswp64 g o))

/-- Atomic 32-bit word := s y (R97). -/
def slotPswp32 (g : Nat) (o : AtmOp) : SlotAct :=
  ⟨4, o.p, true, fun s => bankAtomic g o .swp32 s⟩

/-- `PSWP32`. -/
def execPswp32 (g : Nat) (o : AtmOp) (s : State) : Host.Outcome State Fault Refusal :=
  checked s (.pswp32 g o) (s.issueOne g (slotPswp32 g o))

-- Far moves -----------------------------------------------------------------------------------------------------------

/-- Trap info of a far move that fails after its issue (R116): the trap of the lowest semaphore bits. -/
def semInfo (sem : Nat) : Nat := sem % 65536

/-- Whether a length is one R100 allows. -/
def moveLenOk (n : Nat) : Bool := n % 128 == 0 && decide (128 ≤ n) && decide (n ≤ 2 ^ 20)

/-- The checks of a far move in their order (R98): length, pool range, alignment of both addresses, far address; then it is
outstanding. A sixteenth outstanding move makes it wait (R100). -/
def farMove (g : Nat) (o : FarOp) (get : Bool) (s : State) : SlotRes :=
  let c := s.taskCtx g
  let pa := (s.areg g o.pa).toNat
  let fa := (s.areg g o.fa).toNat
  let len := (s.sreg g o.len).toNat
  if 16 ≤ (s.gal g).fars.length then .wait
  else if !moveLenOk len then .plain tMOVE_LEN
  else memChecked g pa len 128 (fun s =>
    if fa % 128 ≠ 0 then .plain tALIGN
    else
      let id := s.nextSeq
      let put := fun (w : Option Nat) (s : State) =>
        { s with nextSeq := s.nextSeq + 1 }.modGal g (fun x =>
          { x with fars := x.fars ++ [(⟨get, pa, fa, len, o.sem, id, w, 0⟩ : FarMove)] })
      if isWindow fa then
        if !s.winOk c (winOf fa) (winOff fa) len (if get then rREAD else rWRITE) then .plain tWINDOW
        else
          let s := put (some (winOf fa)) s
          if get then .ok (s.winRead c (winOf fa) (winOff fa) len (.far g id)) none
          else
            let (r, s) := s.poolRead g pa len 7 c
            match r with
            | .ok b => .ok (s.winWrite c (winOf fa) 1 (winOff fa) 0 b (.far g id)) none
            | .ue u => .stop (s.poolFault g u)
      else if s.farOk c fa len (!get) then .ok (put none s) none
      else .trap tXLATE 0 (fun s => s.farRefuse c fa len (!get))) s

/-- Copies s len bytes from far address a fa to pool offset a pa (R97, R100). -/
def slotMget (g : Nat) (o : FarOp) : SlotAct :=
  ⟨4, o.p, true, fun s => farMove g o true s⟩

/-- `MGET`. -/
def execMget (g : Nat) (o : FarOp) (s : State) : Host.Outcome State Fault Refusal :=
  checked s (.mget g o) (s.issueOne g (slotMget g o))

/-- Copies s len bytes from pool offset a pa to far address a fa (R97, R100). -/
def slotMput (g : Nat) (o : FarOp) : SlotAct :=
  ⟨4, o.p, true, fun s => farMove g o false s⟩

/-- `MPUT`. -/
def execMput (g : Nat) (o : FarOp) (s : State) : Host.Outcome State Fault Refusal :=
  checked s (.mput g o) (s.issueOne g (slotMput g o))

/-- The end of a move that failed after issue: the trap falls where the semaphore would have been incremented (R101, R116). -/
def State.farTrap (s : State) (g code sem : Nat) : State := s.raiseTrap g 7 code (semInfo sem) (s.gal g).pc

/-- The semaphore of a finished move increments (R100), and a task that ended waits no longer than for its last move. -/
def State.farDone (s : State) (g sem : Nat) : State :=
  let s := s.semAdd g sem 1 (s.markNo g)
  s.modGal g (fun x => if x.wait == .drain && x.fars.isEmpty then { x with wait := .none } else x)

/-- `FAR_MOVE_COMPLETE`: outstanding move k of a gallery ends: its writes are made and acknowledged, then its semaphore
increments; a move whose window failed or was revoked traps (R100, R101). -/
def State.farMoveComplete (s : State) (g k : Nat) : State :=
  match (s.gal g).fars[k]? with
  | none => s
  | some f =>
    let c := s.taskCtx g
    let own := ReqOwner.far g f.id
    if !s.running g then s
    else if f.win.isNone ∧ f.get ∧ s.hostHeld c f.fa f.len then s
    else if f.err = 0 ∧ !s.reqsDone own then s
    else
      let bad := f.err != 0 || s.reqsBad own
      let data := s.reqsData own
      let s := (s.dropReqs own).modGal g (fun x => { x with fars := x.fars.eraseIdx k })
      if bad then s.farTrap g tWINDOW f.sem
      else
        let store := fun (b : List Byte) (s : State) =>
          match s.poolWrite g f.pa 7 c b with
          | (.ok _, s) => s.farDone g f.sem
          | (.ue u, s) => s.poolFault g u
        match f.win, f.get with
        | some _, true => store data s
        | some _, false => s.farDone g f.sem
        | none, true => match s.farRead g c f.fa f.len with
          | (.ok b, s) => store b s
          | (.xlate _, s) => s.farTrap g tXLATE f.sem
          | (.owner, s) => s
          | (.poison l, s) => s.poisonFault c g 0xFF l
          | (.poolUE h o, s) => s.ctxFault c cfPOISON 0 h 0xFF (s.cwInfo h o)
        | none, false => match s.poolRead g f.pa f.len 7 c with
          | (.ue u, s) => s.poolFault g u
          | (.ok b, s) => match s.farWrite g c f.fa b with
            | (.ok _, s) => s.farDone g f.sem
            | (.xlate _, s) => s.farTrap g tXLATE f.sem
            | (.owner, s) => s
            | (.poison l, s) => s.poisonFault c g 0xFF l
            | (.poolUE h o, s) => s.ctxFault c cfPOISON 0 h 0xFF (s.cwInfo h o)

/-- `FAR_MOVE_COMPLETE`. -/
def execFarMoveComplete (g k : Nat) (s : State) : Host.Outcome State Fault Refusal :=
  checked s (.farMoveComplete g k) (s.farMoveComplete g k)

end Sys2Proof.Machine
end

