-- ==== Sys2Proof/Machine/EngSlot.lean ====
section
/-! DEFINITION. Slot E: posting engine commands and pool semaphores (R102 to R106, R122, R123). -/

namespace Sys2Proof.Machine

/-- Instance of an engine's registers. -/
def engKey (g e : Nat) : Nat := 16 * g + e

/-- Entries of an engine's ring (R122). -/
def State.ringSize (s : State) (k : Nat) : Nat := 2 ^ s.rd .GAL_ENG_RING_size k

/-- Pool offset of ring entry i. -/
def State.ringOff (s : State) (k i : Nat) : Nat := s.rd .GAL_ENG_RING_base k * 64 + 64 * i

/-- Whether the ENGINES section enables an engine for the gallery's partition (R103). -/
def State.engEnabled (s : State) (g e : Nat) : Bool :=
  match s.prtOf g with
  | some p => (s.part p).engMask.testBit e
  | none => true

/-- What EPOST records with a command (R123). -/
def State.capture (s : State) (g : Nat) : Captured :=
  let t := ((s.gal g).task).getD 0
  let c := s.taskCtx g
  ⟨t, c, (s.ctx c).epoch, s.winBase g, s.winLimit g, s.taskSeed g, (s.ctx c).relaxed, s.markNo g⟩

/-- Copy the command to the ring's tail (R102, R103, R122, R123). -/
def slotEpost (g : Nat) (o : PostOp) : SlotAct :=
  ⟨5, o.p, true, fun s =>
    let e := o.eng.val
    let k := engKey g e
    let a := (s.areg g o.a).toNat
    if 9 ≤ e ∨ !s.engEnabled g e ∨ !s.flag .GAL_ENG_RING_en k then .plain tENGINE
    else memChecked g a 64 64 (fun s =>
      let tail := s.rd .GAL_ENG_PTR_tail k
      let next := (tail + 1) % s.ringSize k
      if next = s.rd .GAL_ENG_PTR_head k then .wait
      else seqRead g a 64 (fun b s =>
        let cap := s.capture g
        match s.poolWrite g (s.ringOff k tail) rankSEQ (s.taskCtx g) b with
        | (.ue u, s) => .stop (s.poolFault g u)
        | (.ok _, s) =>
          let s := s.wr .GAL_ENG_PTR_tail k next
          let s := s.modEng k (fun x => { x with caps := x.caps.filter (fun c => c.1 != tail) ++ [(tail, cap)] })
          .ok (s.modSub cap.task (fun u => { u with posted := u.posted + 1 })) none) s) s⟩

/-- `EPOST`. -/
def execEpost (g : Nat) (o : PostOp) (s : State) : Host.Outcome State Fault Refusal :=
  checked s (.epost g o) (s.issueOne g (slotEpost g o))

/-- Access a semaphore at its bank (R104, R107). -/
def semAccess (g n : Nat) (k : Nat → State → SlotRes) (s : State) : SlotRes :=
  seqRead g (s.semOff g n) 8 (fun b => k (leNat b)) s

/-- Semaphore sem += s, atomically at the bank (R102, R104). -/
def slotSinc (g : Nat) (o : SemOp) : SlotAct :=
  ⟨5, o.p, true, fun s => 
    let v := (s.sreg g o.s).toNat
    semAccess g o.sem (fun _ s => .ok (s.semAdd g o.sem v (s.markNo g)) none) s⟩

/-- `SINC`. -/
def execSinc (g : Nat) (o : SemOp) (s : State) : Host.Outcome State Fault Refusal :=
  checked s (.sinc g o) (s.issueOne g (slotSinc g o))

/-- Semaphore sem += 1; s reserved (R102). -/
def slotSinc1 (g : Nat) (o : SemOp) : SlotAct :=
  ⟨5, o.p, o.s == 0, fun s => 
    semAccess g o.sem (fun _ s => .ok (s.semAdd g o.sem 1 (s.markNo g)) none) s⟩

/-- `SINC1`. -/
def execSinc1 (g : Nat) (o : SemOp) (s : State) : Host.Outcome State Fault Refusal :=
  checked s (.sinc1 g o) (s.issueOne g (slotSinc1 g o))

/-- Wait until semaphore sem ≥ s, unsigned; a mark, with its state rule (R102, R105, R110). -/
def slotSwait (g : Nat) (o : SemOp) : SlotAct :=
  ⟨5, o.p, true, fun s => 
    if s.markOk g then .ok s (some (.swait o.sem (s.sreg g o.s).toNat)) else .plain tYIELD_STATE⟩

/-- `SWAIT`. -/
def execSwait (g : Nat) (o : SemOp) (s : State) : Host.Outcome State Fault Refusal :=
  checked s (.swait g o) (s.issueOne g (slotSwait g o))

/-- s := semaphore sem, latency 7 (R102, R106). -/
def slotSrd (g : Nat) (o : SemOp) : SlotAct :=
  ⟨5, o.p, true, fun s => 
    semAccess g o.sem (fun v s => .ok (s.pendRes g 5 7 0 (.s o.s (BitVec.ofNat 64 v))) none) s⟩

/-- `SRD`. -/
def execSrd (g : Nat) (o : SemOp) (s : State) : Host.Outcome State Fault Refusal :=
  checked s (.srd g o) (s.issueOne g (slotSrd g o))

/-- Increment semaphore sem of the gallery at span position s[4:0]; a position outside the span traps (R102). -/
def slotSsig (g : Nat) (o : SemOp) : SlotAct :=
  ⟨5, o.p, true, fun s => 
    let pos := (s.sreg g o.s).toNat % 32
    if s.rd .GAL_SPAN_len g ≤ pos then .plain tSIGNAL
    else
      let dst := match (s.gal g).task with
        | some t => (s.sub t).gals.getD pos g
        | none => g
      .ok (s.emit (.echo .ssig g dst o.sem)) none⟩

/-- `SSIG`. -/
def execSsig (g : Nat) (o : SemOp) (s : State) : Host.Outcome State Fault Refusal :=
  checked s (.ssig g o) (s.issueOne g (slotSsig g o))

/-- `SSIG_ARRIVAL`: the increment is applied at the bank of the target (R102, R104). -/
def execSsigArrival (g sem : Nat) (s : State) : Host.Outcome State Fault Refusal :=
  checked s (.ssigArrival g sem) (if sem < 65536 then s.semAdd g sem 1 (s.markNo g) else s)

/-- `SWAIT_END`: a hall cycle at an SWAIT: it ends when the condition and, away from the head, the decision are there, else
the cycle is a wait cycle (R105, R113). -/
def execSwaitEnd (g : Nat) (s : State) : Host.Outcome State Fault Refusal :=
  checked s (.swaitEnd g)
    (match (s.gal g).wait with
      | .swait m v go =>
        if s.running g then
          let s := s.trySwait g m v go
          if (s.gal g).wait == .none then s else s.waitCycle g
        else s
      | _ => s)

end Sys2Proof.Machine
end

