-- ==== Sys2Proof/Machine/Scalar.lean ====
section
/-! DEFINITION. Slots S0 and S1: scalar, address and predicate operations and control flow (R89 to R92, R106, R115, R116).
For each operation: its slot, then the command that issues a bundle with that slot alone. -/

namespace Sys2Proof.Machine

-- Results -------------------------------------------------------------------------------------------------------------

/-- A scalar result. -/
def putS (g : Nat) (sl : SSlot) (lat d : Nat) (v : Word) (s : State) : SlotRes :=
  .ok (s.pendRes g (sslotNo sl) lat 0 (.s d v)) none

/-- An address result. -/
def putA (g : Nat) (sl : SSlot) (d : Nat) (v : Addr) (s : State) : SlotRes :=
  .ok (s.pendRes g (sslotNo sl) 1 0 (.a d v)) none

/-- A predicate result. -/
def putP (g : Nat) (sl : SSlot) (d : Nat) (b : Bool) (s : State) : SlotRes :=
  .ok (s.pendRes g (sslotNo sl) 1 0 (.p d b)) none

/-- An immediate as a scalar. -/
def immWord (i : Int) : Word := BitVec.ofInt 64 i

/-- Bits [47:0] of a scalar. -/
def lowAddr (w : Word) : Addr := w.setWidth 48

-- Arithmetic, logic, shifts -------------------------------------------------------------------------------------------

/-- d := x + y (R89). -/
def slotAdd (g : Nat) (o : RR) : SlotAct :=
  ⟨sslotNo o.sl, o.p, true, fun s => putS g o.sl 1 o.d (s.sreg g o.x + s.sreg g o.y) s⟩

/-- `ADD`. -/
def execAdd (g : Nat) (o : RR) (s : State) : Host.Outcome State Fault Refusal :=
  checked s (.add g o) (s.issueOne g (slotAdd g o))

/-- d := x − y (R89). -/
def slotSub (g : Nat) (o : RR) : SlotAct :=
  ⟨sslotNo o.sl, o.p, true, fun s => putS g o.sl 1 o.d (s.sreg g o.x - s.sreg g o.y) s⟩

/-- `SUB`. -/
def execSub (g : Nat) (o : RR) (s : State) : Host.Outcome State Fault Refusal :=
  checked s (.sub g o) (s.issueOne g (slotSub g o))

/-- d := low 64 bits of x × y, latency 3 (R89, R106). -/
def slotMul (g : Nat) (o : RR) : SlotAct :=
  ⟨sslotNo o.sl, o.p, true, fun s => putS g o.sl 3 o.d (s.sreg g o.x * s.sreg g o.y) s⟩

/-- `MUL`. -/
def execMul (g : Nat) (o : RR) (s : State) : Host.Outcome State Fault Refusal :=
  checked s (.mul g o) (s.issueOne g (slotMul g o))

/-- Bitwise (R89). -/
def slotAnd (g : Nat) (o : RR) : SlotAct :=
  ⟨sslotNo o.sl, o.p, true, fun s => putS g o.sl 1 o.d (s.sreg g o.x &&& s.sreg g o.y) s⟩

/-- `AND`. -/
def execAnd (g : Nat) (o : RR) (s : State) : Host.Outcome State Fault Refusal :=
  checked s (.and g o) (s.issueOne g (slotAnd g o))

/-- Bitwise (R89). -/
def slotOr (g : Nat) (o : RR) : SlotAct :=
  ⟨sslotNo o.sl, o.p, true, fun s => putS g o.sl 1 o.d (s.sreg g o.x ||| s.sreg g o.y) s⟩

/-- `OR`. -/
def execOr (g : Nat) (o : RR) (s : State) : Host.Outcome State Fault Refusal :=
  checked s (.or g o) (s.issueOne g (slotOr g o))

/-- Bitwise (R89). -/
def slotXor (g : Nat) (o : RR) : SlotAct :=
  ⟨sslotNo o.sl, o.p, true, fun s => putS g o.sl 1 o.d (s.sreg g o.x ^^^ s.sreg g o.y) s⟩

/-- `XOR`. -/
def execXor (g : Nat) (o : RR) (s : State) : Host.Outcome State Fault Refusal :=
  checked s (.xor g o) (s.issueOne g (slotXor g o))

/-- Left shift by y[5:0] (R89). -/
def slotShl (g : Nat) (o : RR) : SlotAct :=
  ⟨sslotNo o.sl, o.p, true, fun s => putS g o.sl 1 o.d (s.sreg g o.x <<< ((s.sreg g o.y).toNat % 64)) s⟩

/-- `SHL`. -/
def execShl (g : Nat) (o : RR) (s : State) : Host.Outcome State Fault Refusal :=
  checked s (.shl g o) (s.issueOne g (slotShl g o))

/-- Logical right shift by y[5:0] (R89). -/
def slotShr (g : Nat) (o : RR) : SlotAct :=
  ⟨sslotNo o.sl, o.p, true, fun s => putS g o.sl 1 o.d (s.sreg g o.x >>> ((s.sreg g o.y).toNat % 64)) s⟩

/-- `SHR`. -/
def execShr (g : Nat) (o : RR) (s : State) : Host.Outcome State Fault Refusal :=
  checked s (.shr g o) (s.issueOne g (slotShr g o))

/-- Arithmetic right shift by y[5:0] (R89). -/
def slotSar (g : Nat) (o : RR) : SlotAct :=
  ⟨sslotNo o.sl, o.p, true, fun s => putS g o.sl 1 o.d ((s.sreg g o.x).sshiftRight ((s.sreg g o.y).toNat % 64)) s⟩

/-- `SAR`. -/
def execSar (g : Nat) (o : RR) (s : State) : Host.Outcome State Fault Refusal :=
  checked s (.sar g o) (s.issueOne g (slotSar g o))

/-- Signed minimum (R89). -/
def slotMin (g : Nat) (o : RR) : SlotAct :=
  ⟨sslotNo o.sl, o.p, true, fun s => putS g o.sl 1 o.d (if (s.sreg g o.x).slt (s.sreg g o.y) then s.sreg g o.x else s.sreg g o.y) s⟩

/-- `MIN`. -/
def execMin (g : Nat) (o : RR) (s : State) : Host.Outcome State Fault Refusal :=
  checked s (.min g o) (s.issueOne g (slotMin g o))

/-- Signed maximum (R89). -/
def slotMax (g : Nat) (o : RR) : SlotAct :=
  ⟨sslotNo o.sl, o.p, true, fun s => putS g o.sl 1 o.d (if (s.sreg g o.x).slt (s.sreg g o.y) then s.sreg g o.y else s.sreg g o.x) s⟩

/-- `MAX`. -/
def execMax (g : Nat) (o : RR) (s : State) : Host.Outcome State Fault Refusal :=
  checked s (.max g o) (s.issueOne g (slotMax g o))

/-- d := x + imm (R89). -/
def slotAddi (g : Nat) (o : RI) : SlotAct :=
  ⟨sslotNo o.sl, o.p, true, fun s => putS g o.sl 1 o.d (s.sreg g o.x + immWord o.imm) s⟩

/-- `ADDI`. -/
def execAddi (g : Nat) (o : RI) (s : State) : Host.Outcome State Fault Refusal :=
  checked s (.addi g o) (s.issueOne g (slotAddi g o))

/-- d := imm; x reserved (R89). -/
def slotLi (g : Nat) (o : RI) : SlotAct :=
  ⟨sslotNo o.sl, o.p, o.x == 0, fun s => putS g o.sl 1 o.d (immWord o.imm) s⟩

/-- `LI`. -/
def execLi (g : Nat) (o : RI) (s : State) : Host.Outcome State Fault Refusal :=
  checked s (.li g o) (s.issueOne g (slotLi g o))

/-- d[43:22] := imm[21:0]; slot S0 only; x reserved (R89). -/
def slotLih (g : Nat) (o : RI) : SlotAct :=
  ⟨sslotNo o.sl, o.p, o.sl == .s0 && o.x == 0, fun s => 
    putS g o.sl 1 o.d ((s.sreg g o.d &&& ~~~(0xFFFFFC00000 : Word))
      ||| (((BitVec.ofInt 22 o.imm).setWidth 64 : Word) <<< 22)) s⟩

/-- `LIH`. -/
def execLih (g : Nat) (o : RI) (s : State) : Host.Outcome State Fault Refusal :=
  checked s (.lih g o) (s.issueOne g (slotLih g o))

/-- d[63:44] := imm[19:0]; slot S0 only; x and imm[21:20] reserved (R89). -/
def slotLit (g : Nat) (o : RI) : SlotAct :=
  ⟨sslotNo o.sl, o.p, o.sl == .s0 && o.x == 0 && decide (0 ≤ o.imm) && decide (o.imm < 2 ^ 20), fun s => 
    putS g o.sl 1 o.d ((s.sreg g o.d &&& (0xFFFFFFFFFFF : Word)) ||| (((BitVec.ofInt 20 o.imm).setWidth 64 : Word) <<< 44)) s⟩

/-- `LIT`. -/
def execLit (g : Nat) (o : RI) (s : State) : Host.Outcome State Fault Refusal :=
  checked s (.lit g o) (s.issueOne g (slotLit g o))

-- Addresses -----------------------------------------------------------------------------------------------------------

/-- a d := a x + y[47:0] (R89). -/
def slotAadd (g : Nat) (o : RR) : SlotAct :=
  ⟨sslotNo o.sl, o.p, true, fun s => putA g o.sl o.d (s.areg g o.x + lowAddr (s.sreg g o.y)) s⟩

/-- `AADD`. -/
def execAadd (g : Nat) (o : RR) (s : State) : Host.Outcome State Fault Refusal :=
  checked s (.aadd g o) (s.issueOne g (slotAadd g o))

/-- a d := a x + imm (R89). -/
def slotAaddi (g : Nat) (o : RI) : SlotAct :=
  ⟨sslotNo o.sl, o.p, true, fun s => putA g o.sl o.d (s.areg g o.x + BitVec.ofInt 48 o.imm) s⟩

/-- `AADDI`. -/
def execAaddi (g : Nat) (o : RI) (s : State) : Host.Outcome State Fault Refusal :=
  checked s (.aaddi g o) (s.issueOne g (slotAaddi g o))

/-- a d := x[47:0]; y reserved (R89). -/
def slotAmov (g : Nat) (o : RR) : SlotAct :=
  ⟨sslotNo o.sl, o.p, o.y == 0, fun s => putA g o.sl o.d (lowAddr (s.sreg g o.x)) s⟩

/-- `AMOV`. -/
def execAmov (g : Nat) (o : RR) (s : State) : Host.Outcome State Fault Refusal :=
  checked s (.amov g o) (s.issueOne g (slotAmov g o))

/-- d := a x, zero-extended; y reserved (R89). -/
def slotSmova (g : Nat) (o : RR) : SlotAct :=
  ⟨sslotNo o.sl, o.p, o.y == 0, fun s => putS g o.sl 1 o.d ((s.areg g o.x).setWidth 64) s⟩

/-- `SMOVA`. -/
def execSmova (g : Nat) (o : RR) (s : State) : Host.Outcome State Fault Refusal :=
  checked s (.smova g o) (s.issueOne g (slotSmova g o))

-- Predicates ----------------------------------------------------------------------------------------------------------

/-- d := (x = y) (R89). -/
def slotCmpeq (g : Nat) (o : RRP) : SlotAct :=
  ⟨sslotNo o.sl, o.p, true, fun s => putP g o.sl o.d (s.sreg g o.x == s.sreg g o.y) s⟩

/-- `CMPEQ`. -/
def execCmpeq (g : Nat) (o : RRP) (s : State) : Host.Outcome State Fault Refusal :=
  checked s (.cmpeq g o) (s.issueOne g (slotCmpeq g o))

/-- Signed less-than (R89). -/
def slotCmplt (g : Nat) (o : RRP) : SlotAct :=
  ⟨sslotNo o.sl, o.p, true, fun s => putP g o.sl o.d ((s.sreg g o.x).slt (s.sreg g o.y)) s⟩

/-- `CMPLT`. -/
def execCmplt (g : Nat) (o : RRP) (s : State) : Host.Outcome State Fault Refusal :=
  checked s (.cmplt g o) (s.issueOne g (slotCmplt g o))

/-- Unsigned less-than (R89). -/
def slotCmpltu (g : Nat) (o : RRP) : SlotAct :=
  ⟨sslotNo o.sl, o.p, true, fun s => putP g o.sl o.d ((s.sreg g o.x).ult (s.sreg g o.y)) s⟩

/-- `CMPLTU`. -/
def execCmpltu (g : Nat) (o : RRP) (s : State) : Host.Outcome State Fault Refusal :=
  checked s (.cmpltu g o) (s.issueOne g (slotCmpltu g o))

/-- d := (x = imm) (R89). -/
def slotCmpeqi (g : Nat) (o : RIP) : SlotAct :=
  ⟨sslotNo o.sl, o.p, true, fun s => putP g o.sl o.d (s.sreg g o.x == immWord o.imm) s⟩

/-- `CMPEQI`. -/
def execCmpeqi (g : Nat) (o : RIP) (s : State) : Host.Outcome State Fault Refusal :=
  checked s (.cmpeqi g o) (s.issueOne g (slotCmpeqi g o))

/-- Signed less-than immediate (R89). -/
def slotCmplti (g : Nat) (o : RIP) : SlotAct :=
  ⟨sslotNo o.sl, o.p, true, fun s => putP g o.sl o.d ((s.sreg g o.x).slt (immWord o.imm)) s⟩

/-- `CMPLTI`. -/
def execCmplti (g : Nat) (o : RIP) (s : State) : Host.Outcome State Fault Refusal :=
  checked s (.cmplti g o) (s.issueOne g (slotCmplti g o))

/-- d := x and y (R89). -/
def slotPand (g : Nat) (o : PPP) : SlotAct :=
  ⟨sslotNo o.sl, o.p, true, fun s => putP g o.sl o.d (s.preg g o.x && s.preg g o.y) s⟩

/-- `PAND`. -/
def execPand (g : Nat) (o : PPP) (s : State) : Host.Outcome State Fault Refusal :=
  checked s (.pand g o) (s.issueOne g (slotPand g o))

/-- d := x or y (R89). -/
def slotPor (g : Nat) (o : PPP) : SlotAct :=
  ⟨sslotNo o.sl, o.p, true, fun s => putP g o.sl o.d (s.preg g o.x || s.preg g o.y) s⟩

/-- `POR`. -/
def execPor (g : Nat) (o : PPP) (s : State) : Host.Outcome State Fault Refusal :=
  checked s (.por g o) (s.issueOne g (slotPor g o))

/-- d := x xor y (R89). -/
def slotPxor (g : Nat) (o : PPP) : SlotAct :=
  ⟨sslotNo o.sl, o.p, true, fun s => putP g o.sl o.d (s.preg g o.x != s.preg g o.y) s⟩

/-- `PXOR`. -/
def execPxor (g : Nat) (o : PPP) (s : State) : Host.Outcome State Fault Refusal :=
  checked s (.pxor g o) (s.issueOne g (slotPxor g o))

/-- d := not x; y reserved (R89). -/
def slotPnot (g : Nat) (o : PPP) : SlotAct :=
  ⟨sslotNo o.sl, o.p, o.y == 0, fun s => putP g o.sl o.d (!s.preg g o.x) s⟩

/-- `PNOT`. -/
def execPnot (g : Nat) (o : PPP) (s : State) : Host.Outcome State Fault Refusal :=
  checked s (.pnot g o) (s.issueOne g (slotPnot g o))

-- Control values ------------------------------------------------------------------------------------------------------

/-- *Control values* (R89). -/
def State.ctlValue (s : State) (g : Nat) (i : Int) : Nat :=
  if i = 0 then (s.gal g).lcycle
  else if i = 1 then s.rd .GAL_SPAN_pos g
  else if i = 2 then s.rd .GAL_SPAN_len g
  else (s.gal g).marks

/-- d := control value imm; values from 4 and x reserved (R89). -/
def slotRdctl (g : Nat) (o : RI) : SlotAct :=
  ⟨sslotNo o.sl, o.p, o.x == 0 && decide (0 ≤ o.imm) && decide (o.imm < 4), fun s => putS g o.sl 1 o.d (BitVec.ofNat 64 (s.ctlValue g o.imm)) s⟩

/-- `RDCTL`. -/
def execRdctl (g : Nat) (o : RI) (s : State) : Host.Outcome State Fault Refusal :=
  checked s (.rdctl g o) (s.issueOne g (slotRdctl g o))

-- Control flow --------------------------------------------------------------------------------------------------------

/-- Whether the bundle due is a delay bundle of a taken branch (R90). -/
def State.inDelay (s : State) (g : Nat) : Bool := (s.gal g).delay.isSome

/-- PC + 32 × imm, a pool offset; one below 0 or above the pool lies outside every window. -/
def branchTarget (pc : Nat) (imm : Int) : Nat := (((pc : Int) + 32 * imm) % (2 ^ 48 : Nat)).toNat

/-- Take a branch: three delay bundles follow (R90). -/
def State.branch (s : State) (g tgt : Nat) : State := s.modGal g (fun x => { x with delay := some (tgt, 4) })

/-- A control transfer in a delay bundle or inside a loop body is illegal (R90, R92). -/
def transfer (g : Nat) (k : State → SlotRes) (s : State) : SlotRes :=
  if s.inDelay g || !(s.gal g).loops.isEmpty then .plain tILLEGAL else k s

/-- Branch to PC + 32 × imm (R89, R90). -/
def slotBr (g : Nat) (o : CT) : SlotAct :=
  ⟨0, o.p, o.x == 0, fun s => transfer g (fun s =>
    .ok (s.branch g (branchTarget (s.gal g).pc o.imm)) none) s⟩

/-- `BR`. -/
def execBr (g : Nat) (o : CT) (s : State) : Host.Outcome State Fault Refusal :=
  checked s (.br g o) (s.issueOne g (slotBr g o))

/-- Branch to pool offset a x, 32-byte aligned and inside the window (R89, R90); imm reserved. -/
def slotBri (g : Nat) (o : CT) : SlotAct :=
  ⟨0, o.p, o.imm == 0, fun s => transfer g (fun s =>
    let t := (s.areg g o.x).toNat
    if t % 32 ≠ 0 then .plain tALIGN
    else if !inWindow t 32 (s.winBase g) (s.winLimit g) then .plain tPOOL_BOUNDS
    else .ok (s.branch g t) none) s⟩

/-- `BRI`. -/
def execBri (g : Nat) (o : CT) (s : State) : Host.Outcome State Fault Refusal :=
  checked s (.bri g o) (s.issueOne g (slotBri g o))

/-- Push PC + 128 and branch; a ninth push traps (R89, R91). -/
def slotCall (g : Nat) (o : CT) : SlotAct :=
  ⟨0, o.p, o.x == 0, fun s => transfer g (fun s =>
    let x := s.gal g
    if 8 ≤ x.rets.length then .plain tCALL_STACK
    else .ok ((s.modGal g (fun x => { x with rets := (x.pc + 128) :: x.rets })).branch g (branchTarget x.pc o.imm)) none) s⟩

/-- `CALL`. -/
def execCall (g : Nat) (o : CT) (s : State) : Host.Outcome State Fault Refusal :=
  checked s (.call g o) (s.issueOne g (slotCall g o))

/-- Pop the return point and branch to it; an empty stack traps (R89, R91). -/
def slotRet (g : Nat) (o : CT) : SlotAct :=
  ⟨0, o.p, o.x == 0 && o.imm == 0, fun s => transfer g (fun s =>
    match (s.gal g).rets with
    | [] => .plain tCALL_STACK
    | t :: rest => .ok ((s.modGal g (fun x => { x with rets := rest })).branch g t) none) s⟩

/-- `RET`. -/
def execRet (g : Nat) (o : CT) (s : State) : Host.Outcome State Fault Refusal :=
  checked s (.ret g o) (s.issueOne g (slotRet g o))

/-- Repeat the next imm bundles s x times (R92). -/
def slotLoop (g : Nat) (o : CT) : SlotAct :=
  ⟨0, o.p, true, fun s => 
    let x := s.gal g
    let n := (s.sreg g o.x).toNat
    let last := x.pc + 32 * o.imm.toNat
    let passes := match x.loops with
      | f :: _ => decide (f.last < last)
      | [] => false
    if s.inDelay g then .plain tILLEGAL
    else if o.imm < 1 ∨ 256 < o.imm then .plain tILLEGAL
    else if 4 ≤ x.loops.length then .plain tLOOP_STACK
    else if passes then .plain tILLEGAL
    else if n = 0 then .ok (s.modGal g (fun x => { x with nops := 3, pc := last })) none
    else .ok (s.modGal g (fun x => { x with loops := ⟨x.pc + 32, last, n, false⟩ :: x.loops })) none⟩

/-- `LOOP`. -/
def execLoop (g : Nat) (o : CT) (s : State) : Host.Outcome State Fault Refusal :=
  checked s (.loop g o) (s.issueOne g (slotLoop g o))

/-- Pre-emption and replay mark (R110, R112, R113); a mark outside the state of R110 traps. -/
def slotYield (g : Nat) (p : Pred) : SlotAct :=
  ⟨0, p, true, fun s =>
    if s.inDelay g then .plain tILLEGAL
    else if s.markOk g then .ok s (some .yield) else .plain tYIELD_STATE⟩

/-- `YIELD`. -/
def execYield (g : Nat) (p : Pred) (s : State) : Host.Outcome State Fault Refusal :=
  checked s (.yield g p) (s.issueOne g (slotYield g p))

/-- Task complete (R115). -/
def slotEndTask (g : Nat) (p : Pred) : SlotAct :=
  ⟨0, p, true, fun s => if s.inDelay g then .plain tILLEGAL else .ok s (some .fin)⟩

/-- `END`. -/
def execEndTask (g : Nat) (p : Pred) (s : State) : Host.Outcome State Fault Refusal :=
  checked s (.endTask g p) (s.issueOne g (slotEndTask g p))

/-- Program trap with code imm[15:0]; x and imm[21:16] reserved (R89, R116). -/
def slotTrap (_g : Nat) (o : CT) : SlotAct :=
  ⟨0, o.p, o.x == 0 && decide (0 ≤ o.imm) && decide (o.imm < 2 ^ 16), fun _ => .trap tPROGRAM o.imm.toNat id⟩

/-- `TRAP`. -/
def execTrap (g : Nat) (o : CT) (s : State) : Host.Outcome State Fault Refusal :=
  checked s (.trap g o) (s.issueOne g (slotTrap g o))

/-- A slot with opcode 0 does nothing (R86). -/
def slotNop (sl : Slot) (p : Pred) : SlotAct := ⟨slotNo sl, p, true, fun s => .ok s none⟩

/-- `NOP`. -/
def execNop (g : Nat) (sl : Slot) (p : Pred) (s : State) : Host.Outcome State Fault Refusal :=
  checked s (.nop g sl p) (s.issueOne g (slotNop sl p))

-- Traps that no slot raises -------------------------------------------------------------------------------------------

/-- `YIELD_SPACING`: 1,024 local cycles have issued without a mark (R111). -/
def execYieldSpacing (g : Nat) (s : State) : Host.Outcome State Fault Refusal :=
  checked s (.yieldSpacing g)
    (if s.running g && decide (1024 ≤ (s.gal g).sinceMark) then s.raiseTrap g 7 tYIELD_SPACING 0 (s.gal g).pc else s)

/-- `TRAP_STOP`: the stop message of a trap reaches every gallery of the span: the task ends with a context fault (R116,
R371); the detail is the trap code and the info the trap's PC. -/
def execTrapStop (g : Nat) (s : State) : Host.Outcome State Fault Refusal :=
  checked s (.trapStop g)
    (match (s.gal g).trapped, (s.gal g).task with
      | some (code, pc), some t => s.ctxFault (s.sub t).ctx cfTRAP code g 0xFF pc
      | _, _ => s)

end Sys2Proof.Machine
end

