-- ==== Sys2Proof/Machine/Vector.lean ====
section
/-! DEFINITION. Slot V: the vector operations on every lane of every core (R69 to R75, R93 to R95, R106). Types are 0 FP32,
1 BF16, 2 INT32. A lane's result is an encoding with the flags it raises. -/

namespace Sys2Proof.Machine

-- Lanes ---------------------------------------------------------------------------------------------------------------

/-- The n lanes of w bits of a vector word, lane 0 first (R83). -/
def lanesOf (w n : Nat) (x : VWord) : List Nat := (List.range n).map (fun l => (x.toNat >>> (w * l)) % 2 ^ w)

/-- Lanes of w bits as a vector word, zero above. -/
def packLanes (w : Nat) (l : List Nat) : VWord := BitVec.ofNat 4096 (l.foldr (fun v acc => v % 2 ^ w + 2 ^ w * acc) 0)

/-- Lane width of a type. -/
def laneW (ty : Nat) : Nat := if ty = 1 then 16 else 32

/-- Lanes of a core. -/
def laneN (ty : Nat) : Nat := if ty = 1 then 256 else 128

/-- The element format of a floating-point type. -/
def laneFmt (ty : Nat) : Fmt := if ty = 1 then .bf16 else .fp32

/-- A plain result. -/
def plainRes (v : Nat) : FpRes := ⟨v, 0⟩

/-- The rounding of the result at index idx, under the slot's rm, tensor index and stream (R72, R75, R95). -/
def State.vRnd (s : State) (g : Nat) (rm base stream idx : Nat) : Rnd :=
  match rm with
  | 0 => .rne
  | 1 => .rtz
  | _ => .sr (srWord (s.taskSeed g) (base + idx) stream purposeVSR)

/-- The tensor index and stream that register s N names (R95). -/
def State.vIndex (s : State) (g n : Nat) : Nat := (s.sreg g n).toNat
def State.vStream (s : State) (g n : Nat) : Nat := (s.sreg g ((n + 1) % 32)).toNat % 2 ^ 32

/-- Queue a vector result computed per core, with the flags of all lanes. -/
def putV (g d lat w : Nat) (f : Nat → List FpRes) (s : State) : SlotRes :=
  let r := (List.range 4).map f
  let fl := r.foldl (fun a l => l.foldl (fun a x => a ||| x.flags) a) 0
  let word := fun c => packLanes w ((r.getD c []).map FpRes.bits)
  .ok (s.pendRes g 2 lat fl (.v d (word 0) (word 1) (word 2) (word 3))) none

/-- Queue the byte quarter q of a vector register (R94). -/
def putQuarter (g d q lat : Nat) (f : Nat → List FpRes) (s : State) : SlotRes :=
  let r := (List.range 4).map f
  let fl := r.foldl (fun a l => l.foldl (fun a x => a ||| x.flags) a) 0
  let word := fun c => (packLanes 8 ((r.getD c []).map FpRes.bits)).setWidth 1024
  .ok (s.pendRes g 2 lat fl (.vq d q (word 0) (word 1) (word 2) (word 3))) none

/-- The lanes of a register in core c. -/
def State.vlanes (s : State) (g r c ty : Nat) : List Nat := lanesOf (laneW ty) (laneN ty) (s.vreg g r c)

/-- A result per lane from one source. -/
def map1 (f : Nat → Nat → FpRes) (xs : List Nat) : List FpRes := xs.zipIdx.map (fun e => f e.2 e.1)

/-- A result per lane from two sources. -/
def map2 (f : Nat → Nat → Nat → FpRes) (xs ys : List Nat) : List FpRes := map1 (fun l e => f l e (ys.getD l 0)) xs

/-- A two-source operation: fi on integers, ff on decoded values with the lane's rounding. -/
def vBin (g : Nat) (o : VOp) (lat : Nat) (fi : Int → Int → Int) (ff : Fmt → Rnd → Val → Val → FpRes) (s : State) : SlotRes :=
  let ty := o.ty.val
  let f := laneFmt ty
  putV g o.vd lat (laneW ty) (fun c => map2 (fun l x y =>
    if ty = 2 then plainRes (wrapInt 32 (fi (sInt 32 x) (sInt 32 y)))
    else ff f (s.vRnd g o.rm (s.vIndex g o.s) (s.vStream g o.s) (laneN ty * c + l)) (f.decode x) (f.decode y))
    (s.vlanes g o.vx c ty) (s.vlanes g o.vy c ty)) s

-- Legal encodings -----------------------------------------------------------------------------------------------------

/-- rm is not the reserved mode, and s is zero unless rm is SR (R93). -/
def vRmOk (o : VOp) : Bool := o.rm != 3 && (o.rm == 2 || o.s == 0)

/-- rm and s are zero. -/
def vNoRm (o : VOp) : Bool := o.rm == 0 && o.s == 0

/-- Fields of VADD and its like: rm and s for FP types only. -/
def vArith (o : VOp) : Bool := o.ty != 3 && (if o.ty == 2 then (vNoRm o) else (vRmOk o)) && o.cv == 0

-- Arithmetic ----------------------------------------------------------------------------------------------------------

/-- vd := vx + vy (R93). -/
def slotVadd (g : Nat) (o : VOp) : SlotAct :=
  ⟨2, o.p, (vArith o) && o.vz == 0, fun s => vBin g o 4 (· + ·) fpAdd s⟩

/-- `VADD`. -/
def execVadd (g : Nat) (o : VOp) (s : State) : Host.Outcome State Fault Refusal :=
  checked s (.vadd g o) (s.issueOne g (slotVadd g o))

/-- vd := vx − vy (R93). -/
def slotVsub (g : Nat) (o : VOp) : SlotAct :=
  ⟨2, o.p, (vArith o) && o.vz == 0, fun s => vBin g o 4 (· - ·) (fun f md x y => fpAdd f md x y.flip) s⟩

/-- `VSUB`. -/
def execVsub (g : Nat) (o : VOp) (s : State) : Host.Outcome State Fault Refusal :=
  checked s (.vsub g o) (s.issueOne g (slotVsub g o))

/-- vd := vx × vy (R93). -/
def slotVmul (g : Nat) (o : VOp) : SlotAct :=
  ⟨2, o.p, (vArith o) && o.vz == 0, fun s => vBin g o 4 (· * ·) fpMul s⟩

/-- `VMUL`. -/
def execVmul (g : Nat) (o : VOp) (s : State) : Host.Outcome State Fault Refusal :=
  checked s (.vmul g o) (s.issueOne g (slotVmul g o))

/-- vd := vx × vy + vz, rounded once, latency 5 (R69, R93). -/
def slotVfma (g : Nat) (o : VOp) : SlotAct :=
  ⟨2, o.p, (vArith o), fun s => 
    let ty := o.ty.val
    let f := laneFmt ty
    putV g o.vd 5 (laneW ty) (fun c =>
      let zs := s.vlanes g o.vz c ty
      map2 (fun l x y =>
        let z := zs.getD l 0
        if ty = 2 then plainRes (wrapInt 32 (sInt 32 x * sInt 32 y + sInt 32 z))
        else fpFma f (s.vRnd g o.rm (s.vIndex g o.s) (s.vStream g o.s) (laneN ty * c + l)) (f.decode x) (f.decode y)
          (f.decode z)) (s.vlanes g o.vx c ty) (s.vlanes g o.vy c ty)) s⟩

/-- `VFMA`. -/
def execVfma (g : Nat) (o : VOp) (s : State) : Host.Outcome State Fault Refusal :=
  checked s (.vfma g o) (s.issueOne g (slotVfma g o))

/-- Minimum or maximum of lanes (R70). -/
def vMinMax (g : Nat) (o : VOp) (isMax : Bool) (s : State) : SlotRes :=
  let ty := o.ty.val
  putV g o.vd 4 (laneW ty) (fun c => map2 (fun _ x y =>
    if ty = 2 then plainRes (if decide (sInt 32 x < sInt 32 y) != isMax then x else y)
    else fpMinMax (laneFmt ty) isMax x y) (s.vlanes g o.vx c ty) (s.vlanes g o.vy c ty)) s

/-- Fields of VMIN and the compares. -/
def vTwo (o : VOp) : Bool := o.ty != 3 && o.vz == 0 && (vNoRm o) && o.cv == 0

/-- IEEE minimum, or signed minimum (R70, R93). -/
def slotVmin (g : Nat) (o : VOp) : SlotAct :=
  ⟨2, o.p, (vTwo o), fun s => vMinMax g o false s⟩

/-- `VMIN`. -/
def execVmin (g : Nat) (o : VOp) (s : State) : Host.Outcome State Fault Refusal :=
  checked s (.vmin g o) (s.issueOne g (slotVmin g o))

/-- IEEE maximum, or signed maximum (R70, R93). -/
def slotVmax (g : Nat) (o : VOp) : SlotAct :=
  ⟨2, o.p, (vTwo o), fun s => vMinMax g o true s⟩

/-- `VMAX`. -/
def execVmax (g : Nat) (o : VOp) (s : State) : Host.Outcome State Fault Refusal :=
  checked s (.vmax g o) (s.issueOne g (slotVmax g o))

/-- Change of sign bits of one lane: neg flips the sign, otherwise it is cleared; a NaN gives the canonical NaN (R70). -/
def signLane (ty : Nat) (neg : Bool) (x : Nat) : FpRes :=
  if ty = 2 then
    let i := sInt 32 x
    plainRes (wrapInt 32 (if neg then -i else if i < 0 then -i else i))
  else
    let f := laneFmt ty
    match f.decode x with
    | .nan sig _ => f.nanRes (if sig then fINV else 0)
    | _ =>
      let mag := x % 2 ^ (laneW ty - 1)
      plainRes (if neg && x == mag then mag + 2 ^ (laneW ty - 1) else mag)

/-- Fields of VABS and VNEG. -/
def vOne (o : VOp) : Bool := (vTwo o) && o.vy == 0

/-- vd := |vx| (R93). -/
def slotVabs (g : Nat) (o : VOp) : SlotAct :=
  ⟨2, o.p, (vOne o), fun s => putV g o.vd 4 (laneW o.ty) (fun c => map1 (fun _ x => signLane o.ty false x) (s.vlanes g o.vx c o.ty)) s⟩

/-- `VABS`. -/
def execVabs (g : Nat) (o : VOp) (s : State) : Host.Outcome State Fault Refusal :=
  checked s (.vabs g o) (s.issueOne g (slotVabs g o))

/-- vd := −vx (R93). -/
def slotVneg (g : Nat) (o : VOp) : SlotAct :=
  ⟨2, o.p, (vOne o), fun s => putV g o.vd 4 (laneW o.ty) (fun c => map1 (fun _ x => signLane o.ty true x) (s.vlanes g o.vx c o.ty)) s⟩

/-- `VNEG`. -/
def execVneg (g : Nat) (o : VOp) (s : State) : Host.Outcome State Fault Refusal :=
  checked s (.vneg g o) (s.issueOne g (slotVneg g o))

/-- The scalar operand of VADDS and VBCAST: s[31:0], or s[15:0] for BF16. -/
def State.vScalar (s : State) (g n ty : Nat) : Nat := (s.sreg g n).toNat % 2 ^ laneW ty

/-- vd := vx + scalar; in SR mode the index and stream are in s N+1 and s N+2 (R93, R95). -/
def slotVadds (g : Nat) (o : VOp) : SlotAct :=
  ⟨2, o.p, o.ty != 3 && o.rm != 3 && (o.ty != 2 || o.rm == 0) && o.vy == 0 && o.vz == 0 && o.cv == 0, fun s => 
    let ty := o.ty.val
    let f := laneFmt ty
    let y := s.vScalar g o.s ty
    let n1 := (o.s.val + 1) % 32
    putV g o.vd 4 (laneW ty) (fun c => map1 (fun l x =>
      if ty = 2 then plainRes (wrapInt 32 (sInt 32 x + sInt 32 y))
      else fpAdd f (s.vRnd g o.rm (s.vIndex g n1) (s.vStream g n1) (laneN ty * c + l)) (f.decode x) (f.decode y))
      (s.vlanes g o.vx c ty)) s⟩

/-- `VADDS`. -/
def execVadds (g : Nat) (o : VOp) (s : State) : Host.Outcome State Fault Refusal :=
  checked s (.vadds g o) (s.issueOne g (slotVadds g o))

/-- Legal VCVT fields (R93, R94). -/
def vCvtOk (o : VOp) : Bool :=
  let cv := o.cv.val
  decide (cv < 12) && o.vz == 0 && (decide (cv ≤ 1) || o.vy == 0) && (decide (8 ≤ cv) || o.ty == 0)
    && (if decide (cv ≤ 1) || (decide (6 ≤ cv) && decide (cv ≤ 9)) then (vRmOk o) else (vNoRm o))

/-- Bytes of quarter q of a vector word (R94). -/
def quarterOf (x : VWord) (q : Nat) : List Nat := (List.range 128).map (fun b => (x.toNat >>> (8 * (128 * q + b))) % 256)

/-- Narrow FP32 lanes of vx, then of vy, to a 16-bit format (codes 0x0 and 0x1). -/
def cvtNarrow (g : Nat) (o : VOp) (f : Fmt) (s : State) : SlotRes :=
  putV g o.vd 4 16 (fun c => map1 (fun l x =>
    f.encode (s.vRnd g o.rm (s.vIndex g o.s) (s.vStream g o.s) (256 * c + l)) false (Fmt.fp32.decode x))
    (s.vlanes g o.vx c 0 ++ s.vlanes g o.vy c 0)) s

/-- Widen 16-bit lanes from lane lo of vx to FP32 (codes 0x2 to 0x5). -/
def cvtWiden (g : Nat) (o : VOp) (f : Fmt) (lo : Nat) (s : State) : SlotRes :=
  putV g o.vd 4 32 (fun c => map1 (fun _ x => Fmt.fp32.encode .rne false (f.decode x))
    (((s.vlanes g o.vx c 1).drop lo).take 128)) s

/-- Narrow FP32 lanes to FP8 bytes in a quarter of vd (codes 0x8 and 0x9). -/
def cvtFp8 (g : Nat) (o : VOp) (f : Fmt) (s : State) : SlotRes :=
  putQuarter g o.vd o.ty 4 (fun c => map1 (fun l x =>
    f.encode (s.vRnd g o.rm (s.vIndex g o.s) (s.vStream g o.s) (128 * c + l)) false (Fmt.fp32.decode x))
    (s.vlanes g o.vx c 0)) s

/-- Widen FP8 bytes of a quarter of vx (codes 0xA and 0xB). -/
def cvtFromFp8 (g : Nat) (o : VOp) (f : Fmt) (s : State) : SlotRes :=
  putV g o.vd 4 32 (fun c => map1 (fun _ x => Fmt.fp32.encode .rne false (f.decode x)) (quarterOf (s.vreg g o.vx c) o.ty)) s

/-- FP32 from INT32 (code 0x7), exact then rounded. -/
def intToFp (md : Rnd) (x : Nat) : FpRes := Fmt.fp32.roundInt md (sInt 32 x) 0 false

/-- *Vector conversions* (R94). -/
def slotVcvt (g : Nat) (o : VOp) : SlotAct :=
  ⟨2, o.p, (vCvtOk o), fun s => 
    match o.cv.val with
    | 0 => cvtNarrow g o .bf16 s
    | 1 => cvtNarrow g o .fp16 s
    | 2 => cvtWiden g o .bf16 0 s
    | 3 => cvtWiden g o .bf16 128 s
    | 4 => cvtWiden g o .fp16 0 s
    | 5 => cvtWiden g o .fp16 128 s
    | 6 => putV g o.vd 4 32 (fun c => map1 (fun l x =>
        encodePlain 32 (s.vRnd g o.rm (s.vIndex g o.s) (s.vStream g o.s) (128 * c + l)) (Fmt.fp32.decode x))
        (s.vlanes g o.vx c 0)) s
    | 7 => putV g o.vd 4 32 (fun c => map1 (fun l x =>
        intToFp (s.vRnd g o.rm (s.vIndex g o.s) (s.vStream g o.s) (128 * c + l)) x) (s.vlanes g o.vx c 0)) s
    | 8 => cvtFp8 g o .e4m3 s
    | 9 => cvtFp8 g o .e5m2 s
    | 10 => cvtFromFp8 g o .e4m3 s
    | _ => cvtFromFp8 g o .e5m2 s⟩

/-- `VCVT`. -/
def execVcvt (g : Nat) (o : VOp) (s : State) : Host.Outcome State Fault Refusal :=
  checked s (.vcvt g o) (s.issueOne g (slotVcvt g o))

/-- A one-source FP operation with rounding. -/
def vUn (g : Nat) (o : VOp) (lat : Nat) (ff : Fmt → Rnd → Val → FpRes) (s : State) : SlotRes :=
  let ty := o.ty.val
  let f := laneFmt ty
  putV g o.vd lat (laneW ty) (fun c => map1 (fun l x =>
    ff f (s.vRnd g o.rm (s.vIndex g o.s) (s.vStream g o.s) (laneN ty * c + l)) (f.decode x)) (s.vlanes g o.vx c ty)) s

/-- Fields of VRCP, VRSQ and VSQRT: FP types only. -/
def vFpOne (o : VOp) : Bool := decide (o.ty.val < 2) && (vRmOk o) && o.vy == 0 && o.vz == 0 && o.cv == 0

/-- vd := 1 / vx, correctly rounded, latency 10 (R93). -/
def slotVrcp (g : Nat) (o : VOp) : SlotAct :=
  ⟨2, o.p, (vFpOne o), fun s => vUn g o 10 fpRcp s⟩

/-- `VRCP`. -/
def execVrcp (g : Nat) (o : VOp) (s : State) : Host.Outcome State Fault Refusal :=
  checked s (.vrcp g o) (s.issueOne g (slotVrcp g o))

/-- vd := 1 / √vx, correctly rounded, latency 10 (R93). -/
def slotVrsq (g : Nat) (o : VOp) : SlotAct :=
  ⟨2, o.p, (vFpOne o), fun s => vUn g o 10 fpRsqrt s⟩

/-- `VRSQ`. -/
def execVrsq (g : Nat) (o : VOp) (s : State) : Host.Outcome State Fault Refusal :=
  checked s (.vrsq g o) (s.issueOne g (slotVrsq g o))

/-- vd := √vx, correctly rounded, latency 14 (R93). -/
def slotVsqrt (g : Nat) (o : VOp) : SlotAct :=
  ⟨2, o.p, (vFpOne o), fun s => vUn g o 14 fpSqrt s⟩

/-- `VSQRT`. -/
def execVsqrt (g : Nat) (o : VOp) (s : State) : Host.Outcome State Fault Refusal :=
  checked s (.vsqrt g o) (s.issueOne g (slotVsqrt g o))

-- Comparisons and selection -------------------------------------------------------------------------------------------

/-- A lane mask: all ones where the relation holds; a NaN gives zero, a signalling NaN sets invalid (R93). -/
def vCmp (g : Nat) (o : VOp) (rel : Int → Bool) (s : State) : SlotRes :=
  let ty := o.ty.val
  let f := laneFmt ty
  let ones := 2 ^ laneW ty - 1
  putV g o.vd 4 (laneW ty) (fun c => map2 (fun _ x y =>
    if ty = 2 then plainRes (if rel (sInt 32 x - sInt 32 y) then ones else 0)
    else
      let a := f.decode x
      let b := f.decode y
      if a.isNan || b.isNan then ⟨0, sNanFlag [a, b]⟩ else plainRes (if rel (cmpVal a b) then ones else 0))
    (s.vlanes g o.vx c ty) (s.vlanes g o.vy c ty)) s

/-- Lane mask of vx = vy (R93). -/
def slotVcmpeq (g : Nat) (o : VOp) : SlotAct :=
  ⟨2, o.p, (vTwo o), fun s => vCmp g o (fun d => d == 0) s⟩

/-- `VCMPEQ`. -/
def execVcmpeq (g : Nat) (o : VOp) (s : State) : Host.Outcome State Fault Refusal :=
  checked s (.vcmpeq g o) (s.issueOne g (slotVcmpeq g o))

/-- Lane mask of vx < vy (R93). -/
def slotVcmplt (g : Nat) (o : VOp) : SlotAct :=
  ⟨2, o.p, (vTwo o), fun s => vCmp g o (fun d => decide (d < 0)) s⟩

/-- `VCMPLT`. -/
def execVcmplt (g : Nat) (o : VOp) (s : State) : Host.Outcome State Fault Refusal :=
  checked s (.vcmplt g o) (s.issueOne g (slotVcmplt g o))

/-- Lane mask of vx ≤ vy (R93). -/
def slotVcmple (g : Nat) (o : VOp) : SlotAct :=
  ⟨2, o.p, (vTwo o), fun s => vCmp g o (fun d => decide (d ≤ 0)) s⟩

/-- `VCMPLE`. -/
def execVcmple (g : Nat) (o : VOp) (s : State) : Host.Outcome State Fault Refusal :=
  checked s (.vcmple g o) (s.issueOne g (slotVcmple g o))

/-- vd := vx where the vz lane is non-zero, else vy (R93). -/
def slotVsel (g : Nat) (o : VOp) : SlotAct :=
  ⟨2, o.p, o.ty != 3 && (vNoRm o) && o.cv == 0, fun s => 
    putV g o.vd 4 (laneW o.ty) (fun c =>
      let zs := s.vlanes g o.vz c o.ty
      map2 (fun l x y => plainRes (if zs.getD l 0 != 0 then x else y)) (s.vlanes g o.vx c o.ty) (s.vlanes g o.vy c o.ty)) s⟩

/-- `VSEL`. -/
def execVsel (g : Nat) (o : VOp) (s : State) : Host.Outcome State Fault Refusal :=
  checked s (.vsel g o) (s.issueOne g (slotVsel g o))

/-- A bitwise operation on whole registers. -/
def vBits (g : Nat) (o : VOp) (f : VWord → VWord → VWord) (s : State) : SlotRes :=
  let r := fun c => f (s.vreg g o.vx c) (s.vreg g o.vy c)
  .ok (s.pendRes g 2 4 0 (.v o.vd (r 0) (r 1) (r 2) (r 3))) none

/-- Fields of VAND, VOR and VXOR: type reserved. -/
def vWhole (o : VOp) : Bool := (vTwo o) && o.ty == 0

/-- Bitwise, whole register (R93). -/
def slotVand (g : Nat) (o : VOp) : SlotAct :=
  ⟨2, o.p, (vWhole o), fun s => vBits g o (· &&& ·) s⟩

/-- `VAND`. -/
def execVand (g : Nat) (o : VOp) (s : State) : Host.Outcome State Fault Refusal :=
  checked s (.vand g o) (s.issueOne g (slotVand g o))

/-- Bitwise, whole register (R93). -/
def slotVor (g : Nat) (o : VOp) : SlotAct :=
  ⟨2, o.p, (vWhole o), fun s => vBits g o (· ||| ·) s⟩

/-- `VOR`. -/
def execVor (g : Nat) (o : VOp) (s : State) : Host.Outcome State Fault Refusal :=
  checked s (.vor g o) (s.issueOne g (slotVor g o))

/-- Bitwise, whole register (R93). -/
def slotVxor (g : Nat) (o : VOp) : SlotAct :=
  ⟨2, o.p, (vWhole o), fun s => vBits g o (· ^^^ ·) s⟩

/-- `VXOR`. -/
def execVxor (g : Nat) (o : VOp) (s : State) : Host.Outcome State Fault Refusal :=
  checked s (.vxor g o) (s.issueOne g (slotVxor g o))

-- Across lanes --------------------------------------------------------------------------------------------------------

/-- Lane 0 of each core := the exact sum of its lanes, rounded once, latency 8 (R79, R93). -/
def slotVhsum (g : Nat) (o : VOp) : SlotAct :=
  ⟨2, o.p, (vArith o) && o.vy == 0 && o.vz == 0, fun s => 
    let ty := o.ty.val
    let f := laneFmt ty
    putV g o.vd 8 (laneW ty) (fun c =>
      let xs := s.vlanes g o.vx c ty
      [if ty = 2 then plainRes (xs.foldl (fun a x => (a + x) % 2 ^ 32) 0)
       else exactSum f (s.vRnd g o.rm (s.vIndex g o.s) (s.vStream g o.s) (laneN ty * c)) (xs.map f.decode)]) s⟩

/-- `VHSUM`. -/
def execVhsum (g : Nat) (o : VOp) (s : State) : Host.Outcome State Fault Refusal :=
  checked s (.vhsum g o) (s.issueOne g (slotVhsum g o))

/-- Every lane := the scalar (R93). -/
def slotVbcast (g : Nat) (o : VOp) : SlotAct :=
  ⟨2, o.p, o.ty != 3 && o.rm == 0 && o.vx == 0 && o.vy == 0 && o.vz == 0 && o.cv == 0, fun s => 
    putV g o.vd 4 (laneW o.ty) (fun _ => (List.range (laneN o.ty)).map (fun _ => plainRes (s.vScalar g o.s o.ty))) s⟩

/-- `VBCAST`. -/
def execVbcast (g : Nat) (o : VOp) (s : State) : Host.Outcome State Fault Refusal :=
  checked s (.vbcast g o) (s.issueOne g (slotVbcast g o))

/-- The lane index of VEXT: slot bits [32:23], in the places of vy and vz[3:0]. -/
def vLane (o : VOp) : Nat := o.vy.val + 64 * (o.vz.val % 16)

/-- s := one lane of vx, zero-extended, latency 6 (R93). -/
def slotVext (g : Nat) (o : VOp) : SlotAct :=
  ⟨2, o.p, o.ty != 3 && o.vd == 0 && o.rm == 0 && o.cv == 0 && decide (o.vz.val < (if o.ty == 1 then 16 else 8)), fun s => 
    let n := laneN o.ty
    let v := (s.vlanes g o.vx ((vLane o) / n) o.ty).getD ((vLane o) % n) 0
    .ok (s.pendRes g 2 6 0 (.s o.s (BitVec.ofNat 64 v))) none⟩

/-- `VEXT`. -/
def execVext (g : Nat) (o : VOp) (s : State) : Host.Outcome State Fault Refusal :=
  checked s (.vext g o) (s.issueOne g (slotVext g o))

/-- Predicate vd := whether any bit of vx is set in any core, latency 6 (R93). -/
def slotVany (g : Nat) (o : VOp) : SlotAct :=
  ⟨2, o.p, decide (o.vd.val < 16) && o.ty == 0 && (vOne o), fun s => 
    .ok (s.pendRes g 2 6 0 (.p o.vd ((List.range 4).any (fun c => s.vreg g o.vx c != 0)))) none⟩

/-- `VANY`. -/
def execVany (g : Nat) (o : VOp) (s : State) : Host.Outcome State Fault Refusal :=
  checked s (.vany g o) (s.issueOne g (slotVany g o))

end Sys2Proof.Machine
end

