-- ==== Sys2Proof/Machine/Bundle.lean ====
section
/-! DEFINITION. Whole bundles: the effect of each instruction's slot, and the issue of a bundle fetched from the pool
(R85, R108), with the commands that fetch, start and step a gallery. -/

namespace Sys2Proof.Machine

/-- The slot effect of an instruction. -/
def slotAct : Instr → Option SlotAct
  | .nop _ sl p => some (slotNop sl p)
  | .add g o => some (slotAdd g o)
  | .sub g o => some (slotSub g o)
  | .mul g o => some (slotMul g o)
  | .and g o => some (slotAnd g o)
  | .or g o => some (slotOr g o)
  | .xor g o => some (slotXor g o)
  | .shl g o => some (slotShl g o)
  | .shr g o => some (slotShr g o)
  | .sar g o => some (slotSar g o)
  | .min g o => some (slotMin g o)
  | .max g o => some (slotMax g o)
  | .addi g o => some (slotAddi g o)
  | .li g o => some (slotLi g o)
  | .lih g o => some (slotLih g o)
  | .lit g o => some (slotLit g o)
  | .aadd g o => some (slotAadd g o)
  | .aaddi g o => some (slotAaddi g o)
  | .amov g o => some (slotAmov g o)
  | .smova g o => some (slotSmova g o)
  | .cmpeq g o => some (slotCmpeq g o)
  | .cmplt g o => some (slotCmplt g o)
  | .cmpltu g o => some (slotCmpltu g o)
  | .cmpeqi g o => some (slotCmpeqi g o)
  | .cmplti g o => some (slotCmplti g o)
  | .pand g o => some (slotPand g o)
  | .por g o => some (slotPor g o)
  | .pxor g o => some (slotPxor g o)
  | .pnot g o => some (slotPnot g o)
  | .rdctl g o => some (slotRdctl g o)
  | .br g o => some (slotBr g o)
  | .bri g o => some (slotBri g o)
  | .call g o => some (slotCall g o)
  | .ret g o => some (slotRet g o)
  | .loop g o => some (slotLoop g o)
  | .yield g o => some (slotYield g o)
  | .endTask g o => some (slotEndTask g o)
  | .trap g o => some (slotTrap g o)
  | .vadd g o => some (slotVadd g o)
  | .vsub g o => some (slotVsub g o)
  | .vmul g o => some (slotVmul g o)
  | .vfma g o => some (slotVfma g o)
  | .vmin g o => some (slotVmin g o)
  | .vmax g o => some (slotVmax g o)
  | .vabs g o => some (slotVabs g o)
  | .vneg g o => some (slotVneg g o)
  | .vadds g o => some (slotVadds g o)
  | .vcvt g o => some (slotVcvt g o)
  | .vrcp g o => some (slotVrcp g o)
  | .vrsq g o => some (slotVrsq g o)
  | .vsqrt g o => some (slotVsqrt g o)
  | .vcmpeq g o => some (slotVcmpeq g o)
  | .vcmplt g o => some (slotVcmplt g o)
  | .vcmple g o => some (slotVcmple g o)
  | .vsel g o => some (slotVsel g o)
  | .vand g o => some (slotVand g o)
  | .vor g o => some (slotVor g o)
  | .vxor g o => some (slotVxor g o)
  | .vhsum g o => some (slotVhsum g o)
  | .vbcast g o => some (slotVbcast g o)
  | .vext g o => some (slotVext g o)
  | .vany g o => some (slotVany g o)
  | .aop g o => some (slotAop g o)
  | .aldb g o => some (slotAldb g o)
  | .adrn g o => some (slotAdrn g o)
  | .aclr g o => some (slotAclr g o)
  | .vld g o => some (slotVld g o)
  | .vldb g o => some (slotVldb g o)
  | .vst g o => some (slotVst g o)
  | .sld g o => some (slotSld g o)
  | .sst g o => some (slotSst g o)
  | .ald g o => some (slotAld g o)
  | .padd64 g o => some (slotPadd64 g o)
  | .padd32 g o => some (slotPadd32 g o)
  | .pswp64 g o => some (slotPswp64 g o)
  | .pswp32 g o => some (slotPswp32 g o)
  | .mget g o => some (slotMget g o)
  | .mput g o => some (slotMput g o)
  | .epost g o => some (slotEpost g o)
  | .sinc g o => some (slotSinc g o)
  | .sinc1 g o => some (slotSinc1 g o)
  | .swait g o => some (slotSwait g o)
  | .srd g o => some (slotSrd g o)
  | .ssig g o => some (slotSsig g o)
  | _ => none

/-- The slots of a bundle; a reserved encoding is an illegal slot (R86, R88). -/
def bundleActs (g bundle : Nat) : List SlotAct :=
  (decodeBundle g bundle).map (fun (sl, i) =>
    match i.bind slotAct with
    | some a => a
    | none => ⟨slotNo sl, ⟨0, false⟩, false, fun s => .ok s none⟩)

-- Fetch ---------------------------------------------------------------------------------------------------------------

/-- The bytes of the bundle at an offset: from the loop buffer in a later iteration, from the fetch queue, or from the pool
(R92, R108). -/
def State.fetch (s : State) (g pc : Nat) : PoolRes × State :=
  let x := s.gal g
  let looped := x.loops.any (fun f => f.looped)
  match (if looped then x.loopBuf else []).find? (fun l => l.off == pc), x.fetchq.find? (fun l => l.off == pc) with
  | some l, _ => (.ok l.bytes, s)
  | none, some l => (.ok l.bytes, s)
  | none, none => s.poolRead g pc 32 8 0

/-- Keep a bundle of a loop body in the loop buffer during the first iteration (R92). -/
def State.keepLoop (s : State) (g pc : Nat) (b : List Byte) : State :=
  s.modGal g (fun x =>
    if x.loops.isEmpty || x.loops.any (fun f => f.looped) || x.loopBuf.any (fun l => l.off == pc) then x
    else { x with loopBuf := x.loopBuf ++ [⟨pc, b⟩] })

/-- Issue the bundle that is due as the pool holds it. -/
def State.issueFetched (s : State) (g : Nat) (single : Bool) : State :=
  let pc := (s.gal g).pc
  if !inWindow pc 32 (s.winBase g) (s.winLimit g) then s.issueBundle g single (fun _ => [])
  else match s.fetch g pc with
    | (.ue o, s) => if s.running g then s.poolFault g o else s
    | (.ok b, s) => (s.keepLoop g pc b).issueBundle g single (fun _ => bundleActs g (leNat b))

/-- `FETCH_LINE_ARRIVAL`: a 128-byte line of four bundles enters the fetch queue of 32 bundles (R108). -/
def execFetchLineArrival (g line : Nat) (s : State) : Host.Outcome State Fault Refusal :=
  checked s (.fetchLineArrival g line)
    (if (s.gal g).task.isNone ∨ 2 ^ 18 ≤ line then s
     else match s.poolRead g (line * 128) 128 8 0 with
      | (.ue o, s) => s.poolFault g o
      | (.ok b, s) =>
        s.modGal g (fun x =>
          let new := (List.range 4).map (fun k => (⟨line * 128 + 32 * k, (b.drop (32 * k)).take 32⟩ : Line))
          let q := x.fetchq.filter (fun l => l.off / 128 != line) ++ new
          { x with fetchq := q.drop (q.length - 32) }))

/-- Losses after which a request is promoted (*Bank priority*); the patrol scrub waits instead. -/
def promotionLosses : PoolReq → Nat
  | .fetch => 3
  | .engine _ | .farMove | .pager => 16
  | .echo => 64
  | .scrub => 0

/-- `REQUEST_PROMOTION`: a request has lost its number of cycles and is promoted (R166, R168). -/
def execRequestPromotion (g : Nat) (r : PoolReq) (bank : Nat) (s : State) : Host.Outcome State Fault Refusal :=
  checked s (.requestPromotion g r bank)
    (let s := s.count .GAL_POOL_LOSS_count .GAL_POOL_LOSS_ovf g (promotionLosses r)
     s.modGal g (fun x => if x.promoted.contains (r, bank) then x else { x with promoted := x.promoted ++ [(r, bank)] }))

-- Spans ---------------------------------------------------------------------------------------------------------------

/-- The Stair crossings among the first k + 1 galleries of a run (R33). -/
def crossings (l : List Nat) (k : Nat) : Nat :=
  ((List.range k).filter (fun j => decide (l.getD j 0 < 16) != decide (l.getD (j + 1) 0 < 16))).length

/-- Whether commands of an earlier task still run from a window of a gallery that a new one would overlap (R131). -/
def State.windowBusy (s : State) (g t : Nat) : Bool :=
  let pr := s.progOf t
  s.engs.any (fun e => e.1 / 16 == g &&
    (e.2.caps.any (fun c => c.2.task != t && overlap pr.base pr.size c.2.base (c.2.limit - c.2.base))
      || (match e.2.cur with
          | some (_, c, _) => c.task != t && overlap pr.base pr.size c.base (c.limit - c.base)
          | none => false)))

/-- Show in GAL_DISP_STAT whether a suspended task reserves a gallery (R309). -/
def State.showSusp (s : State) (g : Nat) : State :=
  match s.subs.find? (fun e => e.2.stage == .suspended && e.2.gals.contains g) with
  | some e => (s.wr .GAL_DISP_STAT_susp g 1).wr .GAL_DISP_STAT_sctx g e.2.ctx
  | none => (s.wr .GAL_DISP_STAT_susp g 0).wr .GAL_DISP_STAT_sctx g 0

/-- Load a task into a gallery (R32, R57, R84, R120): entry state, or the state saved at its mark (R112, R243). -/
def State.armGal (s : State) (g t : Nat) : State :=
  let u := s.sub t
  let pr := s.progOf t
  let pos := (u.gals.findIdx? (fun x => x == g)).getD 0
  let fresh : Gal := { (s.gal g).release with
    task := some t, pc := pr.base + 32 * pr.entry, shadow := [], journal := [], journalFull := false,
    a := Tab.set 0 [] 0 (BitVec.ofNat 48 pr.base),
    s := Tab.setMany 0 [] 28 ((List.range 4).map (fun k => u.args.getD k 0)),
    hum := if (s.part u.prt).hum = 0 then [] else List.range 64 }
  let (x, fl) := match u.saved.find? (fun e => e.1 == pos) with
    | none => (fresh, 0)
    | some (_, sv) =>
      ({ fresh with s := sv.s, a := sv.a, p := sv.p, pc := sv.pc, loops := sv.loops, rets := sv.rets, marks := sv.marks,
                    lcycle := sv.lcycle, shadow := [sv], wait := match sv.atSwait with
                      | some (m, v) => .swait m v (pos == 0)
                      | none => .none }, sv.flags)
  let s := match u.parkedMem.find? (fun e => e.1 == pos) with
    | some (_, cells) => s.putCells g pr.base pr.size cells
    | none => s
  let s := (s.setGal g x).setNumFlags g fl
  let s := ((s.wr .GAL_TASK_WIN_base g pr.base).wr .GAL_TASK_WIN_limit g (pr.base + pr.size)).wr .GAL_SPAN_pos g pos
  let s := ((s.wr .GAL_SPAN_len g u.span).wr .GAL_SPAN_head g (u.gals.headD 0)).wr .GAL_SPAN_xings g (crossings u.gals pos)
  let s := ((s.wr .GAL_DISP_STAT_ctx g u.ctx).wr .GAL_DISP_STAT_loaded g 1).wr .GAL_DISP_STAT_lc g (b2n u.lc)
  let s := (s.showSusp g).resetReg .GAL_ARRAY_STAT g
  let s := (s.wr .GAL_ARRAY_STAT_armed g 1).wr .GAL_ARRAY_STAT_hum g (b2n (!x.hum.isEmpty))
  let s := (s.wr .GAL_SEQ_STAT_loops g x.loops.length).wr .GAL_SEQ_STAT_calls g x.rets.length
  let s := s.modSub t (fun u => { u with parkedMem := u.parkedMem.filter (fun e => e.1 != pos) })
  s.emit (.echo .ready g (u.gals.headD 0) pos)

/-- `DISPATCH_MESSAGE`: a gallery of the run of a placed task arms and reports ready (R32). A message that finds the
gallery busy, or the window still in use by engine commands (R131), waits for another. -/
def execDispatchMessage (g task : Nat) (s : State) : Host.Outcome State Fault Refusal :=
  checked s (.dispatchMessage g task)
    (let u := s.sub task
     if u.stage == .placed && u.gals.contains g && (s.gal g).task.isNone && !s.windowBusy g task then s.armGal g task else s)

/-- `READY_REPORT`: the head counts a report (R32). -/
def execReadyReport (head from_ : Nat) (s : State) : Host.Outcome State Fault Refusal :=
  checked s (.readyReport head from_)
    (match (s.gal head).task with
      | none => s
      | some t =>
        if (s.sub t).gals.contains from_ && (s.gal from_).task == some t && !(s.gal head).started then
          s.modGal head (fun x => if x.ready.contains from_ then x else { x with ready := x.ready ++ [from_] })
        else s)

/-- Local cycle 0: the gallery starts, passes the token on, and issues its first bundle (R31, R32, R33). -/
def State.startGal (s : State) (g : Nat) : State :=
  let s := (s.modGal g (fun x => { x with started := true, ready := [] })).wr .GAL_ARRAY_STAT_armed g 0
  let s := match s.spanNext g with
    | some n => s.emit (.echo .startToken g n 0)
    | none => s
  if (s.gal g).wait == .none then s.issueFetched g false else s.wr .GAL_SEQ_STAT_state g 2

/-- `START_TOKEN`: with every gallery of the run ready, the head starts (R32). -/
def execStartToken (head : Nat) (s : State) : Host.Outcome State Fault Refusal :=
  checked s (.startToken head)
    (match (s.gal head).task with
      | none => s
      | some t =>
        if s.isHead head && !(s.gal head).started
            && (s.sub t).gals.all (fun g => g == head || (s.gal head).ready.contains g) then
          (s.modSub t (fun u => { u with started := true, saved := [], yielded := [] })).startGal head
        else s)

/-- `START_TOKEN_RECEIVE`: a gallery receives the token (R31, R33). -/
def execStartTokenReceive (g : Nat) (s : State) : Host.Outcome State Fault Refusal :=
  checked s (.startTokenReceive g)
    (if (s.gal g).task.isSome && !(s.gal g).started && !s.isHead g then s.startGal g else s)

-- Sequencer control ---------------------------------------------------------------------------------------------------

/-- Whether a write to GAL_SEQ_CTRL.run or step takes effect (R120): from the physical function or the partition's own
function, and the partition is not confidential. -/
def State.seqCtrlOk (s : State) (src : Src) (g : Nat) : Bool :=
  s.reachesSlice src g && !(s.prtOf g).any s.confidential

/-- `GAL_SEQ_CTRL_RUN`: halt at the next bundle boundary, or let it issue. -/
def execGalSeqCtrlRun (src : Src) (g v : Nat) (s : State) : Host.Outcome State Fault Refusal :=
  checked s (.galSeqCtrlRun src g v) (if s.seqCtrlOk src g then s.wr .GAL_SEQ_CTRL_run g (v % 2) else s)

/-- `GAL_SEQ_CTRL_STEP`: while run is 0, exactly one bundle issues. -/
def execGalSeqCtrlStep (src : Src) (g : Nat) (s : State) : Host.Outcome State Fault Refusal :=
  checked s (.galSeqCtrlStep src g)
    (if s.seqCtrlOk src g && !s.flag .GAL_SEQ_CTRL_run g && s.running g then s.issueFetched g true else s)

-- Pre-emption and completion ------------------------------------------------------------------------------------------

/-- A pre-emption request is pending at the head of the span; a head that waits at an SWAIT yields at once
(R113, R309). -/
def State.preempt (s : State) (g : Nat) : State :=
  let x := s.gal g
  if x.task.isSome && s.isHead g && !x.ended && x.trapped.isNone then
    let s := s.wr .GAL_SEQ_STAT_yreq g 1
    match x.started, x.wait with
    | true, .swait m v go => s.trySwait g m v go
    | _, _ => s
  else s

/-- `PREEMPTION_REQUEST`. -/
def execPreemptionRequest (g : Nat) (s : State) : Host.Outcome State Fault Refusal :=
  checked s (.preemptionRequest g) (s.preempt g)

/-- `YIELD_DECISION`: the head's decision reaches a gallery at its mark, or is kept for it (R113). -/
def execYieldDecision (g : Nat) (yes : Bool) (s : State) : Host.Outcome State Fault Refusal :=
  checked s (.yieldDecision g yes)
    (let x := s.gal g
     if x.task.isNone || s.isHead g then s
     else match x.wait with
      | .decision => s.decideYield g yes
      | .swait m v false =>
        let s := s.sendDecision g yes
        if yes then s.yieldGal g (some (m, v)) else s.trySwait g m v true
      | _ => s.modGal g (fun x => { x with decisions := x.decisions ++ [yes] }))

/-- Whether END's gallery has nothing left to wait for (R115). -/
def Gal.drained (x : Gal) : Bool :=
  x.ended && x.arrayIdle && x.fars.isEmpty

/-- When every gallery of the span has reported, the task is complete (R115): flags go to the context (R80), cycles are
accounted (R306), and the galleries are free. -/
def State.completeTask (s : State) (t : Nat) : State :=
  let u := s.sub t
  let s := u.gals.foldl (fun s g =>
    let fl := s.numFlags g
    let s := s.modCtx u.ctx (fun c => { c with flags := c.flags ||| fl })
    let s := s.account t (s.gal g).used
    (s.setNumFlags g 0).releaseGal g) s
  s.modSub t (fun u => { u with stage := if u.replacedBy.isSome then .replaced else .complete, gals := [], endedGals := [],
                                saved := [] })

/-- `TASK_COMPLETE`: a gallery reports to the dispatcher (R115). -/
def execTaskComplete (g : Nat) (s : State) : Host.Outcome State Fault Refusal :=
  checked s (.taskComplete g)
    (match (s.gal g).task with
      | none => s
      | some t =>
        if (s.gal g).drained && (s.gal g).trapped.isNone then
          let s := s.deliverAll g
          let s := s.modSub t (fun u => { u with endedGals := if u.endedGals.contains g then u.endedGals else u.endedGals ++ [g] })
          if (s.sub t).gals.all (fun h => (s.sub t).endedGals.contains h) then s.completeTask t else s
        else s)

end Sys2Proof.Machine
end

