-- ==== Sys2Proof/Machine/EngCore.lean ====
section
/-! DEFINITION. What all engines share: taking a command from the ring, its header and captured window, pool and far
accesses, the ways a command ends, completion and reset (R122 to R134). -/

namespace Sys2Proof.Machine

-- Completion codes (R127) ---------------------------------------------------------------------------------------------

def cOK : Nat := 0
def cBAD_CMD : Nat := 1
def cPOOL_BOUNDS : Nat := 2
def cXLATE : Nat := 3
def cWINDOW : Nat := 4
def cSEQ : Nat := 5
def cDATA : Nat := 6
def cDST_FULL : Nat := 7
def cDROPPED : Nat := 8
def cTIMEOUT : Nat := 9
def cCOPY_ABORT : Nat := 10
def cENGINE_RESET : Nat := 11

/-- Codes marked "context fault" (R127, R128). -/
def codeFaults (c : Nat) : Bool := [cBAD_CMD, cPOOL_BOUNDS, cXLATE, cWINDOW, cSEQ, cTIMEOUT, cCOPY_ABORT].contains c

/-- The pool offset that names none. -/
def noOffset : Nat := 0xFFFFFFFF

/-- A command on its way: gallery, engine, its 64 bytes, what was captured, its ring index. -/
structure Env where
  g : Nat
  e : Nat
  b : List Byte
  cap : Captured
  idx : Nat
  deriving DecidableEq, Repr

/-- Instance of the engine's registers. -/
def Env.k (x : Env) : Nat := engKey x.g x.e

/-- A field of the command. -/
def Env.f (x : Env) (off n : Nat) : Nat := fieldAt x.b off n

/-- Whether bytes of the command are zero. -/
def Env.zero (x : Env) (off n : Nat) : Bool := x.f off n == 0

/-- How a step of a command goes: on with a value, ended with a code and a count of progress units, parked (R130), or gone
because its context has been faulted or its wait is elsewhere. -/
inductive EngRes (α : Type) where
  | ok (a : α) (s : State)
  | err (code count : Nat) (s : State)
  | park (p : Parked) (s : State)
  | gone (s : State)
  | wait (step : Nat) (s : State)

/-- Go on with the value of a step. -/
def EngRes.bind {α β : Type} (r : EngRes α) (f : α → State → EngRes β) : EngRes β :=
  match r with
  | .ok a s => f a s
  | .err c n s => .err c n s
  | .park p s => .park p s
  | .gone s => .gone s
  | .wait n s => .wait n s

/-- Fold over a list; a step that ends the command ends the fold. -/
def engFold {α β : Type} (l : List α) (b : β) (s : State) (f : β → α → State → EngRes β) : EngRes β :=
  match l with
  | [] => .ok b s
  | a :: t => (f b a s).bind (fun b s => engFold t b s f)

/-- Set the progress units a failing step reports. -/
def EngRes.at {α : Type} (r : EngRes α) (n : Nat) : EngRes α :=
  match r with
  | .err c _ s => .err c n s
  | r => r

-- Pool accesses -------------------------------------------------------------------------------------------------------

/-- Whether a pool range is aligned, inside the captured window and clear of the pager region (R129, R180). -/
def Env.poolOk (x : Env) (s : State) (off len al : Nat) : Bool :=
  off % al == 0 && inWindow off len x.cap.base x.cap.limit && !s.inPager x.g off len

/-- Check several ranges before anything is executed: base, length, alignment. -/
def Env.ranges (x : Env) (s : State) (l : List (Nat × Nat × Nat)) : EngRes Unit :=
  if l.all (fun (o, n, a) => x.poolOk s o n a) then .ok () s else .err cPOOL_BOUNDS 0 s

/-- A POISON fault of the posting context from a pool codeword (R172). -/
def Env.poolGone (x : Env) (s : State) (g off : Nat) : EngRes α :=
  .gone (s.ctxFault x.cap.ctx cfPOISON 0 g x.e (s.cwInfo g off))

/-- Read pool bytes: bank owners are checked access by access (R177, R178). -/
def Env.rd (x : Env) (off n : Nat) (s : State) : EngRes (List Byte) :=
  let bad := s.bankViols x.g off n x.cap.ctx
  if !bad.isEmpty then .err cPOOL_BOUNDS 0 (s.setViols x.g bad)
  else match s.poolRead x.g off n 7 x.cap.ctx with
    | (.ok b, s) => .ok b s
    | (.ue o, s) => x.poolGone s x.g o

/-- Write pool bytes. -/
def Env.wr (x : Env) (off : Nat) (d : List Byte) (s : State) : EngRes Unit :=
  let bad := s.bankViols x.g off d.length x.cap.ctx
  if !bad.isEmpty then .err cPOOL_BOUNDS 0 (s.setViols x.g bad)
  else match s.poolWrite x.g off 7 x.cap.ctx d with
    | (.ok _, s) => .ok () s
    | (.ue o, s) => x.poolGone s x.g o

-- Far accesses --------------------------------------------------------------------------------------------------------

/-- What a far result does to the command. -/
def Env.far (x : Env) (r : FarRes × State) : EngRes (List Byte) :=
  match r with
  | (.ok b, s) => .ok b s
  | (.xlate _, s) => .err cXLATE 0 s
  | (.owner, s) => .gone s
  | (.poison l, s) => .gone (s.poisonFault x.cap.ctx x.g x.e l)
  | (.poolUE g o, s) => x.poolGone s g o

/-- Read a far range, windows apart, as a compute engine (R130, R286). -/
def Env.farRd (x : Env) (va n : Nat) (s : State) : EngRes (List Byte) := x.far (s.farRead x.g x.cap.ctx va n)

/-- Write a far range, windows apart. -/
def Env.farWr (x : Env) (va : Nat) (d : List Byte) (s : State) : EngRes Unit :=
  (x.far (s.farWrite x.g x.cap.ctx va d)).bind (fun _ s => .ok () s)

/-- An address in the form of R144. -/
inductive EAddr where
  | pool (off : Nat)
  | far (va : Nat)
  | bad
  deriving DecidableEq, Repr

/-- Read the form of R144. -/
def eAddr (v : Nat) : EAddr :=
  if bit v 63 then (if bits v 62 25 = 0 then .pool (bits v 24 0) else .bad)
  else if bits v 62 48 = 0 then .far (bits v 47 0) else .bad

/-- Whether a remote range may be used: right, size, context (R296). -/
def Env.winOk (x : Env) (s : State) (va n right : Nat) : Bool :=
  isWindow va && s.winOk x.cap.ctx (winOf va) (winOff va) n right

-- Taking a command ----------------------------------------------------------------------------------------------------

/-- Whether a captured command's context has moved on (R132). -/
def State.capStale (s : State) (c : Captured) : Bool := (s.ctx c.ctx).epoch != c.epoch || (s.ctx c.ctx).st == 0

/-- One command of a task fewer (R131); a suspended task on a leaving gallery is parked when none is left (R242). -/
def State.unpost (s : State) (t : Nat) : State :=
  if (s.sub t).stage == .none then s
  else
    let s := s.modSub t (fun u => { u with posted := u.posted - 1 })
    let u := s.sub t
    if u.stage == .suspended && u.posted == 0 && u.gals.any (fun g => s.svy.leaving.contains g) then s.parkTask t else s

/-- What was captured with the entry at a ring index. -/
def Eng.capAt (x : Eng) (i : Nat) : Option Captured := (x.caps.find? (fun c => c.1 == i)).map (·.2)

/-- Advance the head past the entry it stands at. -/
def State.popRing (s : State) (k : Nat) : State :=
  let h := s.rd .GAL_ENG_PTR_head k
  let s := s.modEng k (fun x => { x with caps := x.caps.filter (fun c => c.1 != h) })
  s.wr .GAL_ENG_PTR_head k ((h + 1) % s.ringSize k)

/-- Discard the commands at the head whose context has moved on (R132). -/
def State.skipStale (s : State) (k : Nat) : Nat → State
  | 0 => s
  | n + 1 =>
    let h := s.rd .GAL_ENG_PTR_head k
    if h = s.rd .GAL_ENG_PTR_tail k then s
    else match (s.eng k).capAt h with
      | some c => if s.capStale c then ((s.popRing k).unpost c.task).skipStale k n else s
      | none => (s.popRing k).skipStale k n

/-- Whether the header's status field names nothing or a proper word (R126). -/
def Env.statusOk (x : Env) : Bool :=
  let st := x.f 0x0C 4
  st == noOffset || (st % 8 == 0 && inWindow st 8 x.cap.base x.cap.limit)

/-- Let a command's step take effect on its engine. -/
def Env.endStep (x : Env) (r : EngRes (Nat × Nat)) : State :=
  let k := x.k
  let fin := fun (s : State) (code n : Nat) => s.modEng k (fun y => { y with phase := .finished code 0 n, parked := none })
  match r with
  | .ok (c, n) s => fin s c n
  | .err c n s => fin s c n
  | .park p s => (s.modEng k (fun y => { y with parked := some p, phase := .waiting 0 })).wr .GAL_ENG_STAT_state k 3
  | .wait n s => (s.modEng k (fun y => { y with phase := .waiting n, parked := none })).wr .GAL_ENG_STAT_state k 2
  | .gone s =>
    ((s.modEng k (fun y => { y with phase := .idle, cur := none, parked := none })).wr .GAL_ENG_STAT_state k 0).unpost
      x.cap.task

/-- The command at the head of a ring, as an environment. -/
def State.ringHead (s : State) (g e : Nat) : Option Env :=
  let k := engKey g e
  let h := s.rd .GAL_ENG_PTR_head k
  if !s.flag .GAL_ENG_RING_en k || h == s.rd .GAL_ENG_PTR_tail k then none
  else (s.eng k).capAt h |>.map (fun c => ⟨g, e, s.poolRd g (s.ringOff k h) 64, c, h⟩)

/-- The running command as an environment. -/
def State.curEnv (s : State) (g e : Nat) : Option Env :=
  (s.eng (engKey g e)).cur.map (fun (b, c, i) => ⟨g, e, b, c, i⟩)

/-- Start the command at the head of a ring when it is one of the given opcodes (R123 to R126): an engine at work, a command
that waits on its semaphore and a command of another opcode leave things as they are. A command that a replacement brought to
this engine runs again from its start (R383). -/
def State.startCmd (s : State) (g e : Nat) (ops : Nat → Bool) (f : Env → State → EngRes (Nat × Nat)) : State :=
  let k := engKey g e
  if s.heldGal g then s
  else if (s.eng k).cur.isSome then
    (match s.curEnv g e, (s.eng k).phase with
     | some x, .idle => if ops (x.f 0 1) then x.endStep (f x (s.wr .GAL_ENG_STAT_state k 1)) else s
     | _, _ => s)
  else
    let s := s.skipStale k 4096
    match s.ringHead g e with
    | none => s
    | some x =>
      if !ops (x.f 0 1) then s
      else match s.poolRead g (s.ringOff k x.idx) 64 7 x.cap.ctx with
        | (.ue o, s) => ((s.popRing k).ctxFault x.cap.ctx cfPOISON 0 g e (s.cwInfo g o)).unpost x.cap.task
        | (.ok _, s) =>
          let bad := decide (2 ≤ x.f 1 1) || !x.zero 6 2
          if !bad && x.f 1 1 == 1 && decide (s.sem g (x.f 4 2) < x.f 8 4) then s.wr .GAL_ENG_STAT_state k 2
          else
            let s := (s.popRing k).modEng k (fun y => { y with cur := some (x.b, x.cap, x.idx), phase := .waiting 0 })
            let s := (s.wr .GAL_ENG_STAT_state k 1).wr .GAL_ENG_STAT_ctx k x.cap.ctx
            if bad then x.endStep (.err cBAD_CMD 0 s)
            else if !x.statusOk then x.endStep (.err cPOOL_BOUNDS 0 s)
            else x.endStep (f x s)

-- Completion ----------------------------------------------------------------------------------------------------------

/-- Write the status word, if the header names one properly, and increment the semaphore (R126, R127). -/
def State.writeStatus (s : State) (x : Env) (code info count : Nat) : State :=
  let st := x.f 0x0C 4
  let s := if st != noOffset && x.statusOk then
      (s.poolWrite x.g st 7 x.cap.ctx (natLe 2 code ++ natLe 2 info ++ natLe 4 (count % 2 ^ 32))).2
    else s
  s.semAdd x.g (x.f 2 2) 1 x.cap.mark

/-- A command ends with a code: status word, semaphore, counters, and the context fault of the codes that carry one (R126 to
R128). -/
def State.completeCmd (s : State) (x : Env) (code info count : Nat) : State :=
  let s := s.writeStatus x code info count
  let s := (s.count .GAL_ENG_DONE_count .GAL_ENG_DONE_ovf x.k 1).unpost x.cap.task
  if codeFaults code then s.ctxFault x.cap.ctx cfENGINE (code % 256) x.g x.e x.idx else s

/-- The engine has no command. -/
def State.freeEng (s : State) (g e : Nat) : State :=
  let k := engKey g e
  let s := s.modEng k (fun y => { y with cur := none, phase := .idle, parked := none })
  let s := if e = 0 then s.dropAttend g else s
  s.wr .GAL_ENG_STAT_state k 0

/-- Responses to what the engine has outstanding will be dropped. -/
def State.orphanEng (s : State) (k : Nat) : State :=
  { s with reqs := s.reqs.map (fun (r : Req) => match r.owner with
      | .engine j => if j == k then { r with owner := .gone } else r
      | .relay j _ => if j == k then { r with owner := .gone } else r
      | _ => r) }

/-- Complete every command left in a ring with ENGINE_RESET; those of contexts that have moved on are discarded. -/
def State.flushRing (s : State) (g e : Nat) : Nat → State
  | 0 => s
  | n + 1 =>
    let k := engKey g e
    match s.ringHead g e with
    | none => s
    | some x =>
      let s := s.popRing k
      (if s.capStale x.cap then s.unpost x.cap.task else s.completeCmd x cENGINE_RESET 0 0).flushRing g e n

/-- End the running command, the relays and every command of the ring with ENGINE_RESET (R134, R475). -/
def State.endEngine (s : State) (g e : Nat) : State :=
  let k := engKey g e
  let s := s.orphanEng k
  let run := s.curEnv g e
  let rel := (s.eng k).relays
  let s := (s.freeEng g e).modEng k (fun y => { y with relays := [] })
  let s := s.wr .GAL_ENG_STAT_relays k 0
  let fin := fun (s : State) (x : Env) =>
    if s.capStale x.cap then s.unpost x.cap.task else s.completeCmd x cENGINE_RESET 0 0
  let s := match run with
    | some x => fin s x
    | none => s
  let s := rel.foldl (fun s r => fin s ⟨g, e, r.cmd, r.cap, r.idx⟩) s
  s.flushRing g e 4096

/-- An engine reset (R134): every reset is reported with a record of severity 2. -/
def State.resetEngine (s : State) (g e : Nat) (wdog : Bool) : State :=
  let s := s.endEngine g e
  let s := if wdog then s.wr .GAL_ENG_STAT_wdog (engKey g e) 1 else s
  s.rasRecord ⟨2, 2, 2, uENGINE, engKey g e, (s.prtOf g).getD 0xFF, hallDom g, 0, 0⟩

end Sys2Proof.Machine
end

