-- ==== Sys2Proof/Machine/PoolOps.lean ====
section
/-! DEFINITION. The pool's own steps: patrol scrub, geode wipe, bank ownership and clearing, march test and repair (R172 to
R184). -/

namespace Sys2Proof.Machine

/-- Pool offset of a row of a bank (R165). -/
def State.offOfRow (s : State) (g bank row : Nat) : Nat :=
  if s.flag .GAL_POOL_CFG_geode g then
    if 60 ≤ bank then geodeBase + (bank - 60) * 0x80000 + row * 128 else (row * 60 + bank) * 128
  else (row * 64 + bank) * 128

/-- The pool bytes of a gallery that lie in a set of banks read zero, with valid check bytes. -/
def State.zeroBanks (s : State) (g : Nat) (p : Nat → Bool) : State :=
  { s with pool := s.pool.filter (fun c => !(c.1 / 2 ^ 25 == g && p (s.bankOf g (c.1 % 2 ^ 25)))),
           poolErr := s.poolErr.filter (fun c => !(c.1 / 2 ^ 20 == g && p (c.1 / 4 % 64))) }

-- Patrol scrub --------------------------------------------------------------------------------------------------------

/-- Rank of a scrub read (R166). -/
def rankSCRUB : Nat := 10

/-- A scrub read of one codeword: an error beyond correction is reported for the gallery (R172, R370). -/
def State.scrubCw (s : State) (g off : Nat) : State :=
  match s.readCw g off rankSCRUB 0 with
  | (true, s) => s
  | (false, s) => s.rasRecord ⟨3, 2, 0, uGALLERY, g, (s.prtOf g).getD 0xFF, hallDom g, 0, s.word .GAL_POOL_UE g⟩

/-- `PATROL_SCRUB`: one row of every bank, rows in ascending order; geode banks are left out while a wipe runs (R173). -/
def execPatrolScrub (g : Nat) (s : State) : Host.Outcome State Fault Refusal :=
  checked s (.patrolScrub g)
    (let row := (s.gal g).scrubRow
     let s := ((List.range 64).filter (fun b => !(s.flag .GAL_POOL_CFG_geode g && s.flag .GAL_POOL_CFG_wipe g
        && decide (60 ≤ b)))).foldl (fun s b =>
          (List.range 4).foldl (fun s q =>
            let off := s.offOfRow g b row + 32 * q
            if s.bankDead g b then s else s.scrubCw g off) s) s
     s.modGal g (fun x => { x with scrubRow := (row + 1) % 4096 }))

-- Geode wipe ----------------------------------------------------------------------------------------------------------

/-- The trigger of a wipe reaches a gallery: its geode banks read zero from now on; a preserving march test stops (R175). -/
def State.geodeWipe (s : State) (g : Nat) : State :=
  if s.flag .GAL_POOL_CFG_geode g then
    let s := (s.zeroBanks g (fun b => decide (60 ≤ b))).wr .GAL_POOL_CFG_wipe g 1
    if s.rd .GAL_POOL_MARCH_state g == 1 && s.flag .GAL_POOL_MARCH_mode g then
      (s.wr .GAL_POOL_MARCH_state g 0).wr .GAL_POOL_MARCH_aborted g 1
    else s
  else s

/-- `GEODE_WIPE`. -/
def execGeodeWipe (g : Nat) (s : State) : Host.Outcome State Fault Refusal :=
  checked s (.geodeWipe g) (s.geodeWipe g)

/-- The last row is written. -/
def State.geodeWiped (s : State) (g : Nat) : State :=
  if s.flag .GAL_POOL_CFG_wipe g then (s.wr .GAL_POOL_CFG_wipe g 0).wr .GAL_POOL_CFG_wiped g 1 else s

-- Bank ownership ------------------------------------------------------------------------------------------------------

/-- Whether a write to GAL_BANK_OWNER takes effect: the physical function and the partition's own function may write it;
the registers of geode banks ignore writes, and so does a bank that is being cleared (R177, R179, R184). -/
def State.ownerOk (s : State) (src : Src) (g bank : Nat) : Bool :=
  s.reachesSlice src g && !(s.flag .GAL_POOL_CFG_geode g && decide (60 ≤ bank))
    && !s.flag .GAL_BANK_OWNER_busy (64 * g + bank)

/-- Set the owner of a bank. -/
def State.setOwner (s : State) (g bank ctx valid : Nat) : State :=
  (s.wr .GAL_BANK_OWNER_ctx (64 * g + bank) ctx).wr .GAL_BANK_OWNER_valid (64 * g + bank) valid

/-- `BANK_OWNER_WRITE`. -/
def execBankOwnerWrite (src : Src) (g bank ctx valid : Nat) (s : State) : Host.Outcome State Fault Refusal :=
  checked s (.bankOwnerWrite src g bank ctx valid) (if s.ownerOk src g bank then s.setOwner g bank ctx valid else s)

/-- `BANK_CLEAR`: an owner write with clr = 1 (R179). -/
def execBankClear (src : Src) (g bank ctx valid : Nat) (s : State) : Host.Outcome State Fault Refusal :=
  checked s (.bankClear src g bank ctx valid)
    (if s.ownerOk src g bank then
      ((s.setOwner g bank ctx valid).zeroBanks g (· == bank)).wr .GAL_BANK_OWNER_busy (64 * g + bank) 1
     else s)

/-- `BANK_CLEAR_DONE`. -/
def execBankClearDone (g bank : Nat) (s : State) : Host.Outcome State Fault Refusal :=
  checked s (.bankClearDone g bank) (s.wr .GAL_BANK_OWNER_busy (64 * g + bank) 0)

-- March test ----------------------------------------------------------------------------------------------------------

/-- Whether a gallery's march test is running. -/
def State.marching (s : State) (g : Nat) : Bool := s.rd .GAL_POOL_MARCH_state g == 1

/-- Whether every engine of a gallery is idle with an empty ring. -/
def State.enginesIdle (s : State) (g : Nat) : Bool :=
  (List.range 9).all (fun e =>
    let k := engKey g e
    (s.eng k).cur.isNone && (s.eng k).relays.isEmpty && s.rd .GAL_ENG_PTR_head k == s.rd .GAL_ENG_PTR_tail k)

/-- Whether a march may start (R182). -/
def State.marchOk (s : State) (src : Src) (g : Nat) : Bool :=
  src.isPf && !s.marching g
    && (if s.flag .GAL_POOL_MARCH_mode g then (s.gal g).task.isNone && s.enginesIdle g else (s.prtOf g).isNone)

/-- `MARCH_START`: a request that may not start a run sets refused. -/
def execMarchStart (src : Src) (g : Nat) (s : State) : Host.Outcome State Fault Refusal :=
  checked s (.marchStart src g)
    (if !s.reachesSlice src g then s
     else if s.marchOk src g then s.wr .GAL_POOL_MARCH_state g 1
     else s.wr .GAL_POOL_MARCH_refused g 1)

/-- Failures in a bank after lanes that fail in 3 or more rows have been given spare lanes, and the lanes used (R183 step
1). -/
def repairLanes (l : List MarchFail) (free : Nat) : List MarchFail × Nat :=
  let lanes := (List.range 128).filter (fun n => decide (3 ≤ ((l.filter (fun x => x.lane == n)).map (·.row)).eraseDups.length))
  let fixed := lanes.take free
  (l.filter (fun x => !fixed.contains x.lane), fixed.length)

/-- Repair one bank: the state with its spares assigned, and whether spares sufficed. -/
def State.repairBank (s : State) (g b : Nat) (l : List MarchFail) : Bool × State :=
  let k := 64 * g + b
  let (rest, nl) := repairLanes l (2 - s.softLanes.get 0 k)
  let rows := (rest.map (·.row)).eraseDups
  let nr := min rows.length (8 - s.softRows.get 0 k)
  (decide (rows.length ≤ nr),
    { s with softLanes := s.softLanes.upd 0 k (· + nl), softRows := s.softRows.upd 0 k (· + nr) })

/-- Sum of a table over the banks of a gallery. -/
def bankSum (t : Tab Nat) (g : Nat) : Nat := (List.range 64).foldl (fun a b => a + t.get 0 (64 * g + b)) 0

/-- Bank bits of a list. -/
def bankMask (l : List Nat) : Nat := l.eraseDups.foldl (fun a b => a + 2 ^ b) 0

/-- The end of a run: a destructive run leaves the pool zero and, with repair, assigns spares and verifies; a preserving run
finds failing banks only (R181, R183). -/
def State.marchDone (s : State) (g : Nat) (fails verify : List MarchFail) : State :=
  if !s.marching g then s
  else
    let banks := (fails.map (·.bank)).eraseDups
    let (bad, s) :=
      if s.flag .GAL_POOL_MARCH_mode g then (banks, s)
      else
        let s := s.zeroBanks g (fun _ => true)
        if s.flag .GAL_POOL_MARCH_repair g then
          let (bad, s) := banks.foldl (fun (bad, s) b =>
            let (ok, s) := s.repairBank g b (fails.filter (fun x => x.bank == b))
            (if ok then bad else bad ++ [b], s)) ([], s)
          (bad ++ (verify.map (·.bank)).filter banks.contains, s)
        else (banks, s)
    let s := s.wr .GAL_POOL_MFAIL_bank g (bankMask bad)
    let s := (s.wr .GAL_POOL_SPARE_srows g (bankSum s.softRows g)).wr .GAL_POOL_SPARE_slanes g (bankSum s.softLanes g)
    s.wr .GAL_POOL_MARCH_state g (if bad.isEmpty then 2 else 3)

/-- `MARCH_TEST_DONE`. -/
def execMarchTestDone (g : Nat) (fails verify : List MarchFail) (s : State) : Host.Outcome State Fault Refusal :=
  checked s (.marchTestDone g fails verify) (s.marchDone g fails verify)

end Sys2Proof.Machine
end

