-- ==== Sys2Proof/Machine/Portal.lean ====
section
/-! DEFINITION. Doorbell portals, queue rings and the acceptance of submissions (R257 to R266, R303), with Q_RESUME. -/

namespace Sys2Proof.Machine

-- Acceptance ----------------------------------------------------------------------------------------------------------

/-- Fields of a task descriptor and its extension (*Task descriptor*, *Descriptor extension*). -/
def dType (d : List Byte) : Nat := fieldAt d 0 1
def dFlags (d : List Byte) : Nat := fieldAt d 1 1
def dSpan (d : List Byte) : Nat := fieldAt d 2 1
def dProg (d : List Byte) : Nat := fieldAt d 4 4
def dWfence (d : List Byte) : Nat := fieldAt d 0x28 4
def dSfence (d : List Byte) : Nat := fieldAt d 0x2C 4
def dExt (d : List Byte) : Bool := bit (dFlags d) 1
def dDeadline (d : List Byte) : Nat := fieldAt d 0x40 8
def dFallback (d : List Byte) : Nat := fieldAt d 0x48 4
def dMobjs (d : List Byte) : List Nat := ((List.range 12).map (fun k => fieldAt d (0x50 + 4 * k) 4)).filter (· != 0)

/-- The submission that 64 or 128 bytes describe. -/
def subOf (q c p ring : Nat) (d : List Byte) : Sub :=
  { Sub.none with
    stage := .rejected, q := q, ctx := c, prt := p, ring := ring, raw := d, isTask := dType d == 1, lc := bit (dFlags d) 0,
    conc := bit (dFlags d) 2, span := dSpan d, prog := dProg d,
    args := (List.range 4).map (fun k => BitVec.ofNat 64 (fieldAt d (8 + 8 * k) 8)),
    wfence := dWfence d, sfence := dSfence d, wval := fieldAt d 0x30 8, sval := fieldAt d 0x38 8,
    deadline := if dExt d && bit (dDeadline d) 63 then some (bits (dDeadline d) 47 0) else none,
    fallback := if dExt d then dFallback d else 0, mobjs := if dExt d then dMobjs d else [] }

/-- Well-formed by R258 and R259: type, reserved bits, span. -/
def descOk (d : List Byte) : Bool :=
  decide (dType d ≤ 1) && decide (dFlags d < 8) && fieldAt d 3 1 == 0
    && (dType d == 0 || (decide (1 ≤ dSpan d) && decide (dSpan d ≤ 32)))
    && (!dExt d || (bits (dDeadline d) 62 48 == 0 && fieldAt d 0x4C 4 == 0))

/-- Whether a fence handle names a fence of a partition. -/
def State.fenceIn (s : State) (h p : Nat) : Bool :=
  match s.fenceOf h with
  | some i => (s.ctx (s.fence i).ctx).prt == p
  | none => false

/-- Whether a fence handle names a fence of a context. -/
def State.fenceOfCtx (s : State) (h c : Nat) : Bool :=
  match s.fenceOf h with
  | some i => (s.fence i).ctx == c
  | none => false

/-- Whether a memory-object handle may be named by a context: its own, or a shared one of its partition (R254, R260). -/
def State.mobjFor (s : State) (h c : Nat) : Bool :=
  match s.mobjOf h with
  | some i =>
    let m := s.mobj i
    m.ctx == c || (m.shared && (s.ctx m.ctx).prt == (s.ctx c).prt)
  | none => false

/-- Whether a handle names a held queue of a context (R259). -/
def State.heldQueue (s : State) (h c : Nat) : Bool :=
  match s.queueOf h with
  | some q => (s.queue q).held && (s.queue q).ctx == c
  | none => false

/-- The SPAN check (R303). -/
def State.spanOk (s : State) (u : Sub) : Bool :=
  let pr := s.prog (u.prt * 256 + u.prog % 256)
  !u.isTask || (bits u.prog 15 8 == 0 && pr.reg && pr.gen == bits u.prog 31 16 && pr.span == u.span)

/-- The first check of R260 that a submission fails; the count of monitored deadlines is the last (R314). -/
def State.acceptCode (s : State) (u : Sub) : Nat :=
  let ms := u.mobjs.filterMap s.mobjOf
  if !descOk u.raw then eMALFORMED
  else if !((u.wfence == 0 || s.fenceIn u.wfence u.prt) && (u.sfence == 0 || s.fenceOfCtx u.sfence u.ctx)
      && (u.fallback == 0 || s.heldQueue u.fallback u.ctx) && u.mobjs.all (fun h => s.mobjFor h u.ctx)) then eBAD_HANDLE
  else if ms.any (fun i => (s.mobj i).host == 0) then eCONDEMNED
  else if ms.any (fun i => decide (2 ^ 32 ≤ (s.mobj i).dev + ms.count i)) then eOVERFLOW
  else if !s.spanOk u then eSPAN
  else if u.deadline.isSome && decide (65536 ≤ (s.subs.filter (fun e =>
      e.2.stage != .rejected && e.2.deadline.isSome)).length) then eQUOTA
  else eOK

/-- Check a submission that has been read (R260): accepted, it takes its device counts; refused, it halts its queue. -/
def State.acceptSub (s : State) (t : Nat) : State :=
  let u := s.sub t
  let e := s.acceptCode u
  if e = eOK then (s.each u.mobjs State.mobjUp).setSub t { u with stage := .accepted }
  else s.haltQueue u.q e u.ring

/-- Read one submission of a queue at its next ring index. -/
def State.readSub (s : State) (q : Nat) (d : List Byte) : State :=
  let x := s.queue q
  let t := s.nextSub
  let s := { s with nextSub := t + 1 }
  let s := s.setSub t (subOf q x.ctx (s.ctx x.ctx).prt x.next d)
  let s := s.setQueue q { x with next := (x.next + d.length / 64) % 2 ^ x.log, subs := x.subs ++ [t] }
  s.acceptSub t

-- Rings ---------------------------------------------------------------------------------------------------------------

/-- A ring index ahead of another, modulo the ring size. -/
def Queue.ahead (x : Queue) (a b : Nat) : Nat := (a + 2 ^ x.log - b) % 2 ^ x.log

/-- Write one 64-byte entry into a ring: with the context's PASID to host memory, or to a far address that must be pinned
(R257, R265). False when the write fails. -/
def State.ringWr (s : State) (q idx : Nat) (d : List Byte) : Bool × State :=
  let x := s.queue q
  let c := s.ctx x.ctx
  let a := x.base + 64 * (idx % 2 ^ x.log)
  if x.devmem then
    match s.farWrite 0 x.ctx a d with
    | (.ok _, s) => (true, s)
    | (_, s) => (false, s)
  else (true, s.hostWr (s.part c.prt).func c.dmaPasid a d)

/-- Read one entry of a ring in device memory. -/
def State.ringRd (s : State) (q idx : Nat) : Option (List Byte) × State :=
  let x := s.queue q
  match s.farRead 0 x.ctx (x.base + 64 * (idx % 2 ^ x.log)) 64 with
  | (.ok d, s) => (some d, s)
  | (_, s) => (none, s)

/-- Read n entries of a ring in device memory, until one fails. -/
def State.ringRdMany (s : State) (q idx : Nat) : Nat → List (List Byte) × Bool × State
  | 0 => ([], true, s)
  | n + 1 => match s.ringRd q idx with
    | (none, s) => ([], false, s)
    | (some d, s) =>
      let (l, ok, s) := s.ringRdMany q (idx + 1) n
      (d :: l, ok, s)

/-- Accept the entries read, in ring order, until the queue halts; a descriptor whose extension is not yet there waits. -/
def State.takeEntries (s : State) (q : Nat) : List (List Byte) → State
  | [] => s
  | [d] => if (s.queue q).halted || dExt d then s else s.readSub q d
  | d :: e :: rest =>
    if (s.queue q).halted then s
    else if dExt d then (s.readSub q (d ++ e)).takeEntries q rest
    else (s.readSub q d).takeEntries q (e :: rest)

/-- Entries a fetch may read: up to 8 ahead of the head, up to the tail (R266). -/
def Queue.fetchable (x : Queue) : Nat := min (x.ahead x.tail x.next) (8 - x.ahead x.next x.head)

/-- 64 bytes of an entry as it arrives. -/
def entry64 (d : List Byte) : List Byte := (d ++ List.replicate 64 0#8).take 64

/-- `RING_FETCH`: entries of a ring in host memory arrive, or none do because the fetch failed; a ring in device memory is
read here. In D3hot a host fetch is held and halts nothing (R278). -/
def execRingFetch (q : Nat) (entries : Option (List (List Byte))) (s : State) : Host.Outcome State Fault Refusal :=
  checked s (.ringFetch q entries)
    (let x := s.queue q
     let f := (s.part (s.ctx x.ctx).prt).func
     if !x.live || x.halted || x.fetchable == 0 then s
     else if x.devmem then
       let (l, ok, s) := s.ringRdMany q x.next x.fetchable
       let s := s.takeEntries q l
       if ok || (s.queue q).halted then s else s.haltQueue q eDMA (s.queue q).next
     else if (s.func f).d3 then s
     else match (if s.tdiDrops f then none else entries) with
      | none => s.haltQueue q eDMA x.next
      | some l => s.takeEntries q ((l.take x.fetchable).map entry64))

-- Portal writes -------------------------------------------------------------------------------------------------------

/-- What an offset of a portal page is (*Portal page*). -/
inductive PortalTarget where
  | inline (k : Nat)
  | ext (k : Nat)
  | tail (k : Nat)
  | evHead
  | misaligned (k : Nat)
  | reserved
  deriving DecidableEq, Repr

def portalTarget (off : Nat) : PortalTarget :=
  if off < 0x800 then
    if off % 0x80 = 0 then .inline (off / 0x80)
    else if off % 0x80 = 0x40 then .ext (off / 0x80)
    else .misaligned (off / 0x80)
  else if off < 0x880 then (if off % 8 = 0 then .tail ((off - 0x800) / 8) else .misaligned ((off - 0x800) / 8))
  else if off = 0x880 then .evHead
  else .reserved

/-- The slot of a target and the width it takes. -/
def PortalTarget.slot : PortalTarget → Option Nat
  | .inline k | .ext k | .tail k | .misaligned k => some k
  | _ => none
def PortalTarget.width : PortalTarget → Nat
  | .inline _ | .ext _ => 64
  | .tail _ | .evHead => 8
  | _ => 0

/-- The cause of DSP_PVIOL_LAST for which a write is discarded, lowest first (R264); the page of context 0 takes none. -/
def State.portalCause (s : State) (w : PortalReq) : Option Nat :=
  let c := s.ctx w.ctx
  let t := portalTarget w.off
  if w.ctx == 0 || c.st != 1 then some 0
  else if !(w.func == 0 || (s.part c.prt).func == w.func) then some 1
  else if !(w.pasid == some c.pasid || (w.pasid == none && c.nopasid)) then some 2
  else if t == .reserved then some 5
  else if t.slot.any (fun k => (s.slotQueue w.ctx k).isNone) then some 3
  else if w.data.length != t.width then some 4
  else none

/-- Discard a portal write: counted, the first recorded (R264). -/
def State.portalDrop (s : State) (w : PortalReq) (cause : Nat) : State :=
  let s := s.count .DSP_PVIOL_count .DSP_PVIOL_ovf 0 1
  if s.flag .DSP_PVIOL_LAST_valid 0 then s
  else
    let s := (s.wr .DSP_PVIOL_LAST_ctx 0 w.ctx).wr .DSP_PVIOL_LAST_func 0 w.func
    let s := (s.wr .DSP_PVIOL_LAST_haspasid 0 (b2n w.pasid.isSome)).wr .DSP_PVIOL_LAST_pasid 0 (w.pasid.getD 0)
    (s.wr .DSP_PVIOL_LAST_cause 0 cause).wr .DSP_PVIOL_LAST_valid 0 1

/-- Look a queue up in the active-queue cache: a miss is counted and brings it in. -/
def State.lookUpQueue (s : State) (q : Nat) : State :=
  if (s.queue q).cached then s else (s.count .DSP_MISS_count .DSP_MISS_ovf 0 1).cacheQueue q

/-- An inline descriptor for a queue (R265). -/
def State.inlineSub (s : State) (c k q : Nat) (d : List Byte) : State :=
  let s := s.count .DSP_INLINE_count .DSP_INLINE_ovf 0 1
  let buf := (s.ctx c).exts.get [] k
  let x := s.queue q
  if dExt d && buf.isEmpty then s.haltQueue q eMALFORMED x.tail
  else
    let d := if dExt d then d ++ buf else d
    let s := if dExt d then s.modCtx c (fun y => { y with exts := y.exts.set [] k [] }) else s
    let n := d.length / 64
    if 2 ^ x.log ≤ x.ahead x.tail x.head + n then s.haltQueue q eRING_FULL x.tail
    else
      let (ok, s) := s.ringWr q x.tail (d.take 64)
      let (ok, s) := if ok && n == 2 then s.ringWr q (x.tail + 1) (d.drop 64) else (ok, s)
      if !ok then s.haltQueue q eDMA x.tail
      else
        let s := s.modQueue q (fun y => { y with tail := (x.tail + n) % 2 ^ x.log })
        if x.next = x.tail then s.readSub q d else s

/-- A portal write that the device accepts. -/
def State.portalEffect (s : State) (w : PortalReq) : State :=
  let v := leNat (w.data.take 2)
  match portalTarget w.off with
  | .inline k => (match s.slotQueue w.ctx k with
    | some q => (s.lookUpQueue q).inlineSub w.ctx k q w.data
    | none => s)
  | .ext k => s.modCtx w.ctx (fun y => { y with exts := y.exts.set [] k w.data })
  | .tail k => (match s.slotQueue w.ctx k with
    | some q => (s.lookUpQueue q).modQueue q (fun y => { y with tail := v % 2 ^ y.log })
    | none => s)
  | .evHead => (s.modCtx w.ctx (fun y => { y with evHead := v })).evFlush w.ctx
  | _ => s

/-- A write to a portal page (R263, R264). -/
def State.portalWrite (s : State) (w : PortalReq) : State :=
  if (s.func w.func).d3 || s.tdiError w.func then s
  else match s.portalCause w with
    | some cause => s.portalDrop w cause
    | none => s.portalEffect w

/-- `INLINE_DESCRIPTOR`. -/
def execInlineDescriptor (w : PortalReq) (s : State) : Host.Outcome State Fault Refusal :=
  checked s (.inlineDescriptor w) (s.portalWrite w)

/-- `EXTENSION`: buffered until the next inline descriptor of the slot. -/
def execExtension (w : PortalReq) (s : State) : Host.Outcome State Fault Refusal :=
  checked s (.extension w) (s.portalWrite w)

/-- `TAIL_DOORBELL` (R266). -/
def execTailDoorbell (w : PortalReq) (s : State) : Host.Outcome State Fault Refusal :=
  checked s (.tailDoorbell w) (s.portalWrite w)

/-- `EVENT_RING_HEAD` (R272). -/
def execEventRingHead (w : PortalReq) (s : State) : Host.Outcome State Fault Refusal :=
  checked s (.eventRingHead w) (s.portalWrite w)

-- Q_RESUME ------------------------------------------------------------------------------------------------------------

/-- Check the refused submissions of a queue again, in ring order, until one halts it (R262). -/
def State.recheck (s : State) (q : Nat) : List Nat → State
  | [] => s
  | t :: rest =>
    if (s.queue q).halted then s
    else if (s.sub t).stage == .rejected then (s.acceptSub t).recheck q rest
    else s.recheck q rest

/-- Discard the submission at the head that Q_RESUME skips: one that has not started, or the entry that could not be read. -/
def State.skipHead (s : State) (q : Nat) : State :=
  let x := s.queue q
  match x.subs with
  | t :: _ => if [Stage.rejected, .accepted, .ready].contains (s.sub t).stage then s.discardSub t else s
  | [] => if x.next = x.tail then s else s.setQueue q { x with next := (x.next + 1) % 2 ^ x.log, head := (x.next + 1) % 2 ^ x.log }

/-- `Q_RESUME` (R262). -/
def State.qResumeCmd (s : State) (f a0 a1 : Nat) : CmdRes :=
  s.checks [(zeroFrom a0 32 && zeroFrom a1 1, eBAD_OP), (s.queueRights f a0 false, eRIGHTS),
      ((s.queueOf a0).isSome, eBAD_HANDLE), (s.isLive (s.queue (a0 % 2 ^ 18)).ctx, eSTATE)] (fun s =>
    match s.queueOf a0 with
    | none => s.done
    | some q =>
      if (s.queue q).halted then
        let s := s.modQueue q (fun x => { x with halted := false, code := 0 })
        let s := if a1 = 1 then s.skipHead q else s
        (s.recheck q (s.queue q).subs).done
      else s.done)

/-- `Q_RESUME`. -/
def execQResume (f : Nat) (a : Args) (s : State) : Host.Outcome State Fault Refusal :=
  checked s (.qResume f a)
    (if s.barOf f then s.command .ctx f 0x12 a (fun s => s.qResumeCmd f a.a0.toNat a.a1.toNat) else s)

end Sys2Proof.Machine
end

