-- ==== Sys2Proof/Machine/Sched.lean ====
section
/-! DEFINITION. The scheduler: start order, placement, pre-emption, resumption, retirement (R261, R304 to R309). -/

namespace Sys2Proof.Machine

-- Order ---------------------------------------------------------------------------------------------------------------

/-- a before b in 64-bit serial-number arithmetic (R305). -/
def serialLt (a b : Nat) : Bool :=
  let d := (b + 2 ^ 64 - a % 2 ^ 64) % 2 ^ 64
  decide (0 < d) && decide (d < 2 ^ 63)

/-- Whether a submission has started (R261): it is placed or has been. -/
def Stage.started : Stage → Bool
  | .none | .rejected | .accepted | .ready => false
  | _ => true

/-- Submissions of a partition that are ready, in queues that run; a fallback comes from a held queue (R304, R316). -/
def State.readySubs (s : State) (p : Nat) (lc : Bool) : List Nat :=
  (s.subs.filter (fun e => e.2.stage == .ready && e.2.prt == p && e.2.lc == lc
    && (e.2.replaces.isSome || !(s.queue e.2.q).halted))).map (·.1)

/-- The contexts among some submissions, each once. -/
def State.ctxsOf (s : State) (l : List Nat) : List Nat := (l.map (fun t => (s.sub t).ctx)).eraseDups

/-- The context with the lowest pass value, of equals the lowest ID (R305). -/
def State.lowestPass (s : State) : List Nat → Option Nat
  | [] => none
  | c :: l => match s.lowestPass l with
    | none => some c
    | some b =>
      let x := (s.ctx c).pass
      let y := (s.ctx b).pass
      if serialLt x y || (x == y && decide (c ≤ b)) then some c else some b

/-- Contexts in the order of their pass values. -/
def State.ctxOrder (s : State) : Nat → List Nat → List Nat
  | 0, _ => []
  | n + 1, l => match s.lowestPass l with
    | none => []
    | some c => c :: s.ctxOrder n (l.filter (· != c))

/-- Where a slot stands in the round-robin of a context: 0 is the one after the slot served last (R304). -/
def State.turn (s : State) (t : Nat) : Nat :=
  let u := s.sub t
  ((s.queue u.q).slot + 15 - (s.ctx u.ctx).lastSlot) % 16

/-- Put a number in a list sorted by a key. -/
def insertBy (k : Nat → Nat) (a : Nat) : List Nat → List Nat
  | [] => [a]
  | b :: l => if k a ≤ k b then a :: b :: l else b :: insertBy k a l

/-- Sort by a key, keeping the order of equals. -/
def sortBy (k : Nat → Nat) (l : List Nat) : List Nat := l.foldr (insertBy k) []

/-- The best-effort submissions of a partition in the order in which the scheduler takes them (R304). -/
def State.bestEffortOrder (s : State) (p : Nat) : List Nat :=
  let l := s.readySubs p false
  let cs := s.ctxsOf l
  (s.ctxOrder cs.length cs).flatMap (fun c => sortBy s.turn (l.filter (fun t => (s.sub t).ctx == c)))

/-- The latency-critical submissions: fallbacks first, then in the order in which they became ready (R304, R316). -/
def State.criticalOrder (s : State) (p : Nat) : List Nat :=
  let l := s.readySubs p true
  sortBy (fun t => (s.sub t).seq) (l.filter (fun t => (s.sub t).replaces.isSome))
    ++ sortBy (fun t => (s.sub t).seq) (l.filter (fun t => (s.sub t).replaces.isNone))

-- Readiness -----------------------------------------------------------------------------------------------------------

/-- A submission becomes ready; a context that had no best-effort work ready moves its pass value up (R305). -/
def State.becomeReady (s : State) (t : Nat) : State :=
  let u := s.sub t
  let cs := s.ctxsOf (s.readySubs u.prt false)
  let s := if u.lc || cs.contains u.ctx then s
    else match s.lowestPass cs with
      | none => s
      | some b =>
        let v := (s.ctx b).pass
        s.modCtx u.ctx (fun c => { c with pass := if serialLt c.pass v then v else c.pass })
  { s.setSub t { u with stage := .ready, seq := s.nextSeq } with nextSeq := s.nextSeq + 1 }

/-- Signal the fence a retiring submission names (R261, R269, R270): the code with which its queue halts, if any. A fence in
error keeps its state. -/
def State.retireSignal (s : State) (h v : Nat) : Nat × State :=
  if h = 0 then (eOK, s)
  else match s.fenceOf h with
    | none => (eBAD_HANDLE, s)
    | some i =>
      let x := s.fence i
      if x.st == 2 then (eOK, s)
      else if x.takes v then (eOK, s.fenceSignal i v)
      else (eFENCE_BACK, s)

/-- Halt a queue if a code says so. -/
def State.haltIf (s : State) (q code ring : Nat) : State := if code = eOK then s else s.haltQueue q code ring

/-- A fallback has retired: the submission it replaced signals, releases its counts and leaves its queue (R316). -/
def State.retireReplaced (s : State) (m : Nat) : State :=
  let u := s.sub m
  if u.stage == .none then s
  else
    let (code, s) := s.retireSignal u.sfence u.sval
    let s := (s.releaseCounts m).dropSub m
    s.haltIf u.q code u.ring

/-- Retire a submission (R261): fence, counts, head; then a failed signal or a missed deadline halts the queue. -/
def State.retireSub (s : State) (t : Nat) : State :=
  let u := s.sub t
  let (code, s) := s.retireSignal u.sfence u.sval
  let s := (s.releaseCounts t).dropSub t
  let s := match u.replaces with
    | some m => s.retireReplaced m
    | none => s
  let s := s.haltIf u.q code u.ring
  if u.missed && u.replaces.isNone then s.haltQueue u.q eDEADLINE u.ring else s

/-- Whether a submission may retire: its task is complete, every engine command it posted too, and what it replaces has
stopped (R261, R316). -/
def State.mayRetire (s : State) (t : Nat) : Bool :=
  let u := s.sub t
  u.stage == .complete && u.posted == 0 && match u.replaces with
    | some m => (s.sub m).stage == .none || ((s.sub m).stage == .replaced && (s.sub m).posted == 0)
    | none => true

/-- `RETIRE`. -/
def execRetire (task : Nat) (s : State) : Host.Outcome State Fault Refusal :=
  checked s (.retire task) (if s.mayRetire task then s.retireSub task else s)

/-- The submission that may start next in a queue (R261). -/
def State.nextStart (s : State) (prev : Option Nat) : List Nat → Option Nat
  | [] => none
  | t :: rest =>
    let u := s.sub t
    if u.stage == .accepted then
      match prev with
      | none => some t
      | some p => if (s.sub p).stage.started && u.conc then some t else none
    else if u.stage == .rejected then none
    else s.nextStart (some t) rest

/-- Start or ready a submission whose turn has come: a wait that can never be satisfied discards it (R269). -/
def State.startSub (s : State) (t : Nat) : State :=
  let u := s.sub t
  match s.waitOn u.wfence u.wval with
  | none => (s.discardSub t).haltQueue u.q eFENCE_ERR u.ring
  | some false => s
  | some true => if u.isTask then s.becomeReady t else s.retireSub t

/-- `DESCRIPTOR_START`. -/
def execDescriptorStart (q : Nat) (s : State) : Host.Outcome State Fault Refusal :=
  checked s (.descriptorStart q)
    (let x := s.queue q
     if !x.live || x.halted || x.held then s
     else match s.nextStart none x.subs with
      | some t => s.startSub t
      | none => s)

-- Placement -----------------------------------------------------------------------------------------------------------

/-- The program of a submission. -/
def State.subProg (s : State) (u : Sub) : Prog := s.prog (u.prt * 256 + u.prog % 256)

/-- The submissions whose runs hold a gallery, in some stages. -/
def State.subsOn (s : State) (g : Nat) (st : Stage → Bool) : List Nat :=
  (s.subs.filter (fun e => st e.2.stage && e.2.gals.contains g)).map (·.1)

/-- Whether nothing but tasks keeps a gallery from taking one: no march test, no commit it leaves in, not lost. -/
def State.galServes (s : State) (g : Nat) : Bool :=
  !s.marching g && !s.svy.leaving.contains g && !s.ras.lost.contains g

/-- A gallery is free (*Placement*). -/
def State.galFree (s : State) (g : Nat) : Bool :=
  s.galServes g && (s.gal g).task.isNone && (s.subsOn g (fun st => st == .placed || st == .suspended)).isEmpty

/-- The runs of n consecutive galleries of a chaining order, first to last. -/
def galRuns (order : List Nat) (n : Nat) : List (List Nat) :=
  if n = 0 then [] else (List.range (order.length + 1 - n)).map (fun i => (order.drop i).take n)

/-- The mark bound of a run (R307). -/
def markBound (pr : Prog) (run : List Nat) : Bool :=
  decide (pr.ymax + 8 * (run.length - 1) + 9 * crossings run (run.length - 1) ≤ 1024)

/-- The first run that is free, resident and within the mark bound (R307). -/
def State.freeRun (s : State) (u : Sub) : Option (List Nat) :=
  let pr := s.subProg u
  (galRuns (s.part u.prt).order u.span).find? (fun r => r.all (fun g => s.galFree g && pr.resident.contains g) && markBound pr r)

/-- Whether a gallery may be taken from best-effort work by a latency-critical task (R308). -/
def State.galYields (s : State) (pr : Prog) (g : Nat) : Bool :=
  s.galServes g && pr.resident.contains g &&
    (s.subsOn g (fun st => st == .placed || st == .suspended)).all (fun t =>
      let u := s.sub t
      let q := s.subProg u
      !(u.lc && u.stage == .placed) && !overlap pr.base pr.size q.base q.size)

/-- The first run a latency-critical task may take by pre-emption (R308). -/
def State.yieldRun (s : State) (u : Sub) : Option (List Nat) :=
  let pr := s.subProg u
  (galRuns (s.part u.prt).order u.span).find? (fun r => r.all (s.galYields pr))

/-- Place a submission on a run: dispatch messages go out; a task that has not run takes its context's seed (R32, R76). -/
def State.place (s : State) (t : Nat) (run : List Nat) : State :=
  let u := s.sub t
  let again := !u.saved.isEmpty || !u.parkedMem.isEmpty
  let s := s.setSub t { u with stage := .placed, gals := run, yielded := [], endedGals := [],
                               seed := if again then u.seed else (s.ctx u.ctx).seed }
  let s := if u.lc then s else s.modCtx u.ctx (fun c => { c with lastSlot := (s.queue u.q).slot })
  let s := s.each run State.showSusp
  s.each run (fun s g => s.emit (.echo .dispatch 0xFF g t))

/-- Take back a task none of whose galleries has reached local cycle 0: it waits again, or stays suspended where it is. -/
def State.withdraw (s : State) (t : Nat) : State :=
  let u := s.sub t
  let s := s.each u.gals (fun s g => if (s.gal g).task == some t then s.releaseGal g else s)
  let again := !u.saved.isEmpty || !u.parkedMem.isEmpty
  let s := s.setSub t { u with stage := if again then .suspended else .ready, gals := if again then u.gals else [],
                               yielded := if again then u.gals else [] }
  s.each u.gals State.showSusp

/-- Whether a placed task has reached local cycle 0. -/
def State.runs (s : State) (t : Nat) : Bool :=
  let g := (s.sub t).gals.headD 0
  (s.gal g).task == some t && (s.gal g).started

/-- Ask a best-effort span for its galleries (R309). -/
def State.preemptSub (s : State) (t : Nat) : State :=
  if s.runs t then s.preempt ((s.sub t).gals.headD 0) else s.withdraw t

/-- Pre-empt every best-effort span on a run. -/
def State.clearRun (s : State) (run : List Nat) : State :=
  s.each (run.flatMap (fun g => s.subsOn g (· == .placed))).eraseDups State.preemptSub

/-- Whether a partition's scheduler may place tasks: only sealed partitions take them (R235), none that awaits its reset (R386). -/
def State.takesTasks (s : State) (p : Nat) : Bool := s.rd .PRT_STAT_state p == 2 && !s.ras.frozen.contains p

/-- `BEST_EFFORT_PLACEMENT`: the first in order, or with backfill the first that fits; none in orphan mode (R307, R310). -/
def execBestEffortPlacement (p : Nat) (s : State) : Host.Outcome State Fault Refusal :=
  checked s (.bestEffortPlacement p)
    (if !s.takesTasks p || s.flag .DSP_SCHED_orphan p then s
     else
       let l := s.bestEffortOrder p
       let l := if s.flag .DSP_SCHED_backfill p then l else l.take 1
       match l.find? (fun t => (s.freeRun (s.sub t)).isSome) with
       | some t => (match s.freeRun (s.sub t) with
          | some r => s.place t r
          | none => s)
       | none => s)

/-- `LATENCY_CRITICAL_PLACEMENT`: the first in order that a run qualifies for (R308). -/
def execLatencyCriticalPlacement (p : Nat) (s : State) : Host.Outcome State Fault Refusal :=
  checked s (.latencyCriticalPlacement p)
    (if !s.takesTasks p then s
     else match (s.criticalOrder p).head? with
      | none => s
      | some t => (match s.freeRun (s.sub t), s.yieldRun (s.sub t) with
        | some r, _ => s.place t r
        | none, some r => (s.clearRun r).place t r
        | none, none => s))

/-- Whether a suspended task may take its galleries again: none holds or is about to take a task (R309). -/
def State.mayResume (s : State) (t : Nat) : Bool :=
  let u := s.sub t
  u.gals.all (fun g => s.galServes g && (s.gal g).task.isNone && (s.subsOn g (· == .placed)).isEmpty)

/-- `RESUME`: a suspended task takes its own galleries, a parked one the first free run (R309, R243); in orphan mode no
suspended best-effort task resumes (R310). -/
def execResume (task : Nat) (s : State) : Host.Outcome State Fault Refusal :=
  checked s (.resume task)
    (let u := s.sub task
     if !s.takesTasks u.prt || (s.flag .DSP_SCHED_orphan u.prt && !u.lc) then s
     else if u.stage == .suspended then (if s.mayResume task then s.place task u.gals else s)
     else if u.stage == .parked then
       (match s.freeRun u with
        | some r =>
          let s := s.place task r
          s.showParked u.prt
        | none => s)
     else s)

end Sys2Proof.Machine
end

