-- ==== Sys2Proof/Machine/Power.lean ====
section
/-! DEFINITION. Clocks, power and thermal control: hall steps and voltages, the cap controller, stretching, the regulator
alert, clamps and the thermal trip, reference clocks, snapshots (R351 to R369). -/

namespace Sys2Proof.Machine

/-- The hall of a gallery: 0 West, 1 East. -/
def hallOf (g : Nat) : Nat := if g < 16 then 0 else 1

/-- The galleries of a hall. -/
def hallGals (h : Nat) : List Nat := (List.range 16).map (· + 16 * h)

/-- Fused voltage of a hall's step in mV, and its fused maximum step (R354). -/
def State.vtab (s : State) (h k : Nat) : Nat := s.rd .PWR_VTAB_mv (18 * h + k)
def State.fmax (s : State) (h : Nat) : Nat := s.rd .PWR_VTAB_fmax (18 * h)

/-- The step at a hall's divider. -/
def State.step_ (s : State) (h : Nat) : Nat := s.rd .PWR_HALL_STAT_cur h

/-- Count a departure of a hall (R357). -/
def State.departs (s : State) (h : Nat) : State := s.count .PWR_HALL_DEPART_count .PWR_HALL_DEPART_ovf h 1

/-- The effective steps of a hall's galleries: what each was given, no more than the hall's step, two less under the fast
throttle (R358, R361). -/
def State.showEff (s : State) (h : Nat) : State :=
  s.each (hallGals h) (fun s g =>
    let want := s.pwr.want.get 0 g
    let want := if s.flag .PWR_HALL_STAT_throttle h then want - 2 else want
    s.wr .PWR_GAL_STAT_eff g (min want (s.step_ h)))

/-- Give a gallery an effective step. -/
def State.giveEff (s : State) (g k : Nat) : State :=
  { s with pwr := { s.pwr with want := s.pwr.want.set 0 g k } }

/-- Set or clear a bit of PWR_HALL_STAT.clamp. -/
def State.setClamp (s : State) (h b : Nat) (on : Bool) : State :=
  s.wr .PWR_HALL_STAT_clamp h (setBits (s.rd .PWR_HALL_STAT_clamp h) b 1 (b2n on))

/-- The highest step that the clamps and the failures of the regulator leave a hall (R356, R365). -/
def State.ceiling (s : State) (h : Nat) : Nat :=
  let x := s.hall h
  let n := min (s.fmax h) 17
  let n := match x.held with
    | some k => min n k
    | none => n
  match x.cap with
  | some k => min n k
  | none => n

/-- Whether a gallery of a hall is stretching (R362). -/
def State.stretching (s : State) (h : Nat) : Bool := (hallGals h).any (fun g => s.flag .PWR_GAL_STAT_stretch g)

/-- The divider of a hall takes its target; after a step down the new voltage is requested (R355). -/
def State.divide (s : State) (h : Nat) : State :=
  let k := s.rd .PWR_HALL_STAT_target h
  let s := (s.wr .PWR_HALL_STAT_cur h k).wr .PWR_HALL_STAT_defer h 0
  (s.modHall h (fun x => { x with mv := s.vtab h k, wait := false })).showEff h

/-- Request a step of a hall (R355, R363, R365): a step above the fused maximum becomes the maximum; a step up requests its
voltage first and waits for the regulator; a step down changes the divider, unless a gallery is stretching. A step that is
the present one withdraws what was requested. -/
def State.requestStep (s : State) (h k0 : Nat) : State :=
  let s := s.setClamp h 1 (decide (s.fmax h < k0))
  let k := min k0 (s.ceiling h)
  let s := s.wr .PWR_HALL_STAT_target h k
  if s.step_ h < k then
    let s := s.modHall h (fun x => { x with mv := s.vtab h k, wait := true })
    if s.stretching h then s.wr .PWR_HALL_STAT_defer h 1 else s
  else if k < s.step_ h then
    let s := s.modHall h (fun x => { x with wait := false })
    if s.stretching h || s.flag .PWR_HALL_STAT_defer h then s.wr .PWR_HALL_STAT_defer h 1 else s.divide h
  else (s.modHall h (fun x => { x with wait := false, mv := s.vtab h k })).wr .PWR_HALL_STAT_defer h 0

/-- `VOLTAGE_REPORT`: the requested voltage is reached; the divider follows unless it is deferred (R355, R363). -/
def execVoltageReport (h : Nat) (s : State) : Host.Outcome State Fault Refusal :=
  gate s (decide (h < 2))
    (if (s.hall h).wait then
      let s := s.modHall h (fun x => { x with wait := false, fails := 0 })
      if s.flag .PWR_HALL_STAT_defer h || s.stretching h then s.wr .PWR_HALL_STAT_defer h 1 else s.divide h
     else s)

/-- The RAS record of R356. -/
def State.regulatorRecord (s : State) (h : Nat) : State :=
  (s.rasRecord ⟨3, Config.rasCode s.tick % 256, 0, uDEVICE, 0, 0xFF, 1 + h, 0, 0⟩).ticked

/-- `VOLTAGE_REPORT_TIMEOUT`: the hall abandons the change; after three in a row it is held at its step (R356). -/
def execVoltageReportTimeout (h : Nat) (s : State) : Host.Outcome State Fault Refusal :=
  gate s (decide (h < 2))
    (let x := s.hall h
     if x.wait then
      let k := s.step_ h
      let n := x.fails + 1
      let s := s.setHall h { x with wait := false, mv := s.vtab h k, fails := n,
                                    held := if n = 3 then some (min k (x.held.getD k)) else x.held }
      let s := (s.wr .PWR_HALL_STAT_target h k).wr .PWR_HALL_STAT_defer h 0
      let s := (s.wr .PWR_HALL_STAT_vr_err h 1).departs h
      if n = 3 then s.regulatorRecord h else s
     else s)

/-- A hall goes to step 0 at once, whatever is under way (R364). -/
def State.toZero (s : State) (h : Nat) : State :=
  let s := if s.step_ h != 0 then s.departs h else s
  (s.wr .PWR_HALL_STAT_target h 0).divide h

/-- `AVSBUS_TIMEOUT`: as for an alert, and held there (R356). -/
def execAvsbusTimeout (h : Nat) (s : State) : Host.Outcome State Fault Refusal :=
  gate s (decide (h < 2))
    (if (s.hall h).held == some 0 then s
     else
      let s := s.toZero h
      let s := s.modHall h (fun x => { x with held := some 0 })
      (s.wr .PWR_HALL_STAT_vr_err h 1).regulatorRecord h)

-- Droop and stretching ------------------------------------------------------------------------------------------------

/-- `DROOP_TRIP`: the gallery stretches; a divider change that has not begun waits (R362, R363). -/
def execDroopTrip (g : Nat) (s : State) : Host.Outcome State Fault Refusal :=
  gate s (decide (g < 32))
    (let h := hallOf g
     let s := ((s.wr .PWR_GAL_STAT_stretch g 1).count .PWR_GAL_STRETCH_count .PWR_GAL_STRETCH_ovf g 1).wr
       .PWR_HALL_STAT_stretch h 1
     if s.step_ h != s.rd .PWR_HALL_STAT_target h then s.wr .PWR_HALL_STAT_defer h 1 else s)

/-- `STRETCH_END`: 32 cycles without a trip; they were stretched with the first (R362). -/
def execStretchEnd (g : Nat) (s : State) : Host.Outcome State Fault Refusal :=
  gate s (decide (g < 32))
    (if s.flag .PWR_GAL_STAT_stretch g then
      let s := (s.wr .PWR_GAL_STAT_stretch g 0).count .PWR_GAL_STRETCH_count .PWR_GAL_STRETCH_ovf g 32
      s.wr .PWR_HALL_STAT_stretch (hallOf g) (b2n (s.stretching (hallOf g)))
     else s)

/-- `DEFERRAL_END`: 1 µs without a stretch has passed (R363); a step up that still waits for its voltage goes on waiting. -/
def execDeferralEnd (h : Nat) (s : State) : Host.Outcome State Fault Refusal :=
  gate s (decide (h < 2))
    (if s.flag .PWR_HALL_STAT_defer h && !s.stretching h then
      if (s.hall h).wait then s.wr .PWR_HALL_STAT_defer h 0 else s.divide h
     else s)

-- The regulator alert -------------------------------------------------------------------------------------------------

/-- `REGULATOR_ALERT`: both halls go to step 0 (R364). -/
def execRegulatorAlert (s : State) : Host.Outcome State Fault Refusal :=
  gate s true
    (if s.flag .PWR_HALL_STAT_alert 0 then s
     else
      let s := s.count .PWR_ALERT_CNT_count .PWR_ALERT_CNT_ovf 0 1
      s.each [0, 1] (fun s h => (s.toZero h).wr .PWR_HALL_STAT_alert h 1))

/-- `ALERT_RELEASE`: the halls return at the next redistribution (R364). -/
def execAlertRelease (s : State) : Host.Outcome State Fault Refusal :=
  gate s true (s.each [0, 1] (fun s h => s.wr .PWR_HALL_STAT_alert h 0))

-- Phases --------------------------------------------------------------------------------------------------------------

def State.phasesOf (s : State) (g : Nat) : List Phase := s.pwr.phases.get [] g

/-- The program ID of a gallery's task, and whether it has one. -/
def State.galProg (s : State) (g : Nat) : Option Nat := ((s.gal g).task).map (fun t => (s.sub t).prog)

/-- Highest learned power of a gallery's table. -/
def topPower (l : List Phase) : Option Nat :=
  match l with
  | [] => none
  | x :: t => some (t.foldl (fun m y => max m y.power) x.power)

/-- P + (measured − P) / 8 in whole quarters of a watt: the rounding is open. -/
def learn (p m : Nat) (up : Bool) : Nat := (7 * p + m + (if up then 7 else 0)) / 8

/-- The learned power of a gallery's phase: a phase not in the table takes the highest entry (R359). -/
def State.learned (s : State) (g prog cls : Nat) : Nat :=
  let l := s.phasesOf g
  match l.find? (fun e => e.prog == prog && e.cls == cls) with
  | some e => e.power
  | none => (topPower l).getD (Config.phaseFirst s.tick)

/-- `PHASE_WINDOW`: measured is the window's power brought to step 15, in quarters of a watt (R359). -/
def execPhaseWindow (g cls measured : Nat) (s : State) : Host.Outcome State Fault Refusal :=
  gate s (decide (g < 32) && decide (cls < 64))
    (let s := s.wr .PWR_GAL_STAT_phase g cls
     match s.galProg g with
     | none => s
     | some prog =>
       let l := s.phasesOf g
       let e : Phase := ⟨prog, cls, learn (s.learned g prog cls) measured (Config.phaseUp s.tick)⟩
       let l := e :: l.filter (fun x => !(x.prog == prog && x.cls == cls))
       { s with pwr := { s.pwr with phases := s.pwr.phases.set [] g (l.take 64) } }.ticked)

-- The cap controller --------------------------------------------------------------------------------------------------

/-- Whether a hall is in fixed-frequency mode. -/
def State.fixed (s : State) (h : Nat) : Bool := s.flag .PWR_HALL_STAT_mode h

/-- The step a hall may reach: its set step, or boost when that is 15, the hall is opportunistic and cool (R357, R365). -/
def State.reachStep (s : State) (h : Nat) : Nat :=
  let set := s.rd .PWR_HALL_STAT_set h
  let n := if !s.fixed h && set == 15 && !(s.hall h).noBoost then 17 else set
  min n (s.ceiling h)

/-- The tasks of a partition that hold galleries, in its chaining order. -/
def State.spansOf (s : State) (p : Nat) : List Nat :=
  ((s.part p).order.filterMap (fun g => (s.gal g).task)).eraseDups

/-- The galleries of a span that the controller steps: those of opportunistic halls (R357). -/
def State.steered (s : State) (t : Nat) : List Nat := ((s.sub t).gals).filter (fun g => !s.fixed (hallOf g))

/-- The highest effective step of a span: no gallery passes its hall, and a gallery of a fixed hall stands at that hall's
step, which all galleries of the span share where they can (R357, R358). -/
def State.spanTop (s : State) (t : Nat) : Nat :=
  (s.sub t).gals.foldl (fun n g => min n (s.reachStep (hallOf g))) 17

/-- Power of a span at a step, as a fraction over the product of the denominators: P × (f_j / f_15) × (V_j / V_15)², in
thousandths of a quarter watt, rounded up (R359). -/
def State.predicted (s : State) (t j : Nat) : Nat :=
  ((s.sub t).gals.map (fun g =>
    let h := hallOf g
    let k := if s.fixed h then s.step_ h else j
    let p := s.learned g (s.sub t).prog (s.rd .PWR_GAL_STAT_phase g)
    ceilDiv (p * 1000 * (k + 4) * s.vtab h k ^ 2) (19 * s.vtab h 15 ^ 2))).sum

/-- The highest step from n down whose prediction fits a budget, or step 0. -/
def State.fitStep (s : State) (t budget : Nat) : Nat → Nat
  | 0 => 0
  | n + 1 => if s.predicted t (n + 1) ≤ budget then n + 1 else s.fitStep t budget n

/-- Serve the spans of a partition in order from its portion: each takes what fits of what is left (R360). -/
def State.serveSpans (s : State) : List Nat → Nat → List (Nat × Nat)
  | [], _ => []
  | t :: rest, left =>
    let j := s.fitStep t left (s.spanTop t)
    (t, j) :: s.serveSpans rest (left - s.predicted t j)

/-- What a partition would use with no limit. -/
def State.demand (s : State) (p : Nat) : Nat := ((s.spansOf p).map (fun t => s.predicted t (s.spanTop t))).sum

/-- Split a budget by share; what a partition cannot use passes to the others in the same proportion (R360). -/
def State.portions (s : State) : Nat → Nat → List Nat → List (Nat × Nat)
  | 0, _, _ => []
  | n + 1, budget, ps =>
    let total := (ps.map (fun p => (s.part p).share)).sum
    let cut := fun p => budget * (s.part p).share / max total 1
    let full := ps.filter (fun p => decide (s.demand p ≤ cut p))
    if full.isEmpty then ps.map (fun p => (p, cut p))
    else full.map (fun p => (p, s.demand p)) ++
      s.portions n (budget - (full.map s.demand).sum) (ps.filter (fun p => !full.contains p))

/-- Give the galleries of a span their step. -/
def State.giveSpan (s : State) (t j : Nat) : State := s.each (s.steered t) (fun s g => s.giveEff g j)

/-- The step a hall takes: a fixed hall its own; an opportunistic hall the lowest that is at least its galleries' (R360). -/
def State.hallStep (s : State) (h : Nat) : Nat :=
  if s.fixed h then s.rd .PWR_HALL_STAT_set h
  else min (s.reachStep h) (((hallGals h).filter (fun g => ((s.gal g).task).isSome)).foldl
    (fun n g => max n (s.pwr.want.get 0 g)) 0)

/-- Galleries without a task follow their hall, and so do those of a fixed hall. -/
def State.followHall (s : State) (h : Nat) : State :=
  let k := s.hallStep h
  s.each ((hallGals h).filter (fun g => s.fixed h || ((s.gal g).task).isNone)) (fun s g => s.giveEff g k)

/-- `REDISTRIBUTION` (R360): power in watts as measured over the last 100 µs, outside the halls, and as leakage. The fast
throttle ends; while VR_ALERT_N holds the halls the controller chooses nothing (R361, R364). -/
def execRedistribution (avgW otherW leakW : Nat) (s : State) : Host.Outcome State Fault Refusal :=
  gate s true
    (let s := s.wr .PWR_PKG_avg 0 avgW
     let s := s.wr .PWR_PKG_peak 0 (max (s.rd .PWR_PKG_peak 0) (s.rd .PWR_PKG_avg 0))
     let s := s.each [0, 1] (fun s h => (s.wr .PWR_HALL_STAT_throttle h 0).showEff h)
     if s.flag .PWR_HALL_STAT_alert 0 then s
     else
      let ps := (List.range 32).filter (fun p => !(s.spansOf p).isEmpty)
      let budget := (s.rd .PWR_PKG_limit 0 - otherW - leakW) * 4000
      let cuts := s.portions 33 budget ps
      let steps := cuts.flatMap (fun c => s.serveSpans (s.spansOf c.1) c.2)
      let s := s.each steps (fun s c => s.giveSpan c.1 c.2)
      s.each [0, 1] (fun s h => ((s.followHall h).requestStep h (s.hallStep h)).showEff h))

/-- `FAST_THROTTLE` (R361). -/
def execFastThrottle (s : State) : Host.Outcome State Fault Refusal :=
  gate s true
    (if s.flag .PWR_HALL_STAT_throttle 0 then s
     else
      let s := s.count .PWR_THROTTLE_CNT_count .PWR_THROTTLE_CNT_ovf 0 1
      s.each [0, 1] (fun s h => ((s.wr .PWR_HALL_STAT_throttle h 1).departs h).showEff h))

-- Temperature ---------------------------------------------------------------------------------------------------------

/-- A reading in quarters of a degree, none before the first. -/
def State.temp (s : State) (n : Nat) : Option Int :=
  if s.flag .PWR_TEMP_valid n then
    let v := s.rd .PWR_TEMP_temp n
    some (if v < 2048 then (v : Int) else (v : Int) - 4096)
  else none

/-- Whether a reading is at or above a limit in degrees. -/
def State.hot (s : State) (n deg : Nat) : Bool :=
  match s.temp n with
  | some t => decide ((4 * deg : Int) ≤ t)
  | none => false

/-- The sensors of the I/O dies (R366). -/
def iodSensors : List Nat := [32, 33, 34, 35]

/-- Compare the sensors with the clamps of a hall (R365). -/
def State.clampHall (s : State) (h : Nat) : State :=
  let upd := fun (s : State) (b : Nat) (l : List Nat) =>
    if l.any (fun n => s.hot n 105) then s.setClamp h b true
    else if l.any (fun n => s.hot n 103) then s else s.setClamp h b false
  let s := upd (upd s 2 (hallGals h)) 3 iodSensors
  let all := hallGals h ++ iodSensors
  let acts := decide (4 ≤ s.rd .PWR_HALL_STAT_clamp h)
  s.modHall h (fun x => { x with
    cap := if acts then some (x.cap.getD 17) else none
    noBoost := acts || (x.noBoost && all.any (fun n => s.hot n 95)) || (hallGals h).any (fun n => s.hot n 95) })

/-- `THERMAL_SAMPLE`: readings of the 44 sensors in quarters of a degree, none for a stack that has not reported (R366). -/
def execThermalSample (temps : List (Option Int)) (s : State) : Host.Outcome State Fault Refusal :=
  gate s (decide (temps.length = 44))
    (let s := s.each temps.zipIdx (fun s e =>
      match e.1 with
      | some t => (s.wr .PWR_TEMP_temp e.2 (t % 4096).toNat).wr .PWR_TEMP_valid e.2 1
      | none => s.wr .PWR_TEMP_valid e.2 0)
     let hotStacks := ((List.range 8).filter (fun k => s.hot (36 + k) 95)).foldl (fun m k => m + 2 ^ k) 0
     let s := s.wr .PWR_THERM_hbm_hot 0 (s.rd .PWR_THERM_hbm_hot 0 ||| hotStacks)
     let s := if (List.range 36).any (fun n => s.hot n (s.rd .PWR_THERM_warn 0)) then
         let was := s.flag .PWR_THERM_warned 0
         let s := s.wr .PWR_THERM_warned 0 1
         if s.flag .PWR_THERM_warn_ie 0 && !was then s.raiseOpen else s
       else s
     s.each [0, 1] State.clampHall)

/-- `TEMPERATURE_CLAMP`: one step down while the clamp acts (R365). -/
def execTemperatureClamp (h : Nat) (s : State) : Host.Outcome State Fault Refusal :=
  gate s (decide (h < 2))
    (if (s.hall h).cap.isSome && s.step_ h != 0 then
      let k := s.step_ h - 1
      let s := s.modHall h (fun x => { x with cap := some k })
      (s.departs h).requestStep h k
     else s)

/-- `THERMAL_TRIP`: THERMTRIP_N, and every clock but the trip logic's stops (R367). -/
def execThermalTrip (s : State) : Host.Outcome State Fault Refusal :=
  gate s true { s with pwr := { s.pwr with trip := true, stop := 2 } }

-- Package power and snapshots -----------------------------------------------------------------------------------------

/-- `PWR_PKG_PEAK_READ`: the read answers peak and clears it (R6). -/
def execPwrPkgPeakRead (src : Src) (s : State) : Host.Outcome State Fault Refusal :=
  gate s src.ok
    (let open_ := match src with
       | .mgmt => true
       | .func f => s.barOf f
     if open_ then (s.emit (.reply [s.rd .PWR_PKG_peak 0] [])).wr .PWR_PKG_peak 0 0 else s)

/-- Latch every domain counter and deadline counter (R368). -/
def State.latch (s : State) : State :=
  let s := s.each ((List.range 12).map (· + 1)) (fun s d => s.wr .TRC_SNAP_DOM_value d (s.clocks.get 0 d))
  s.each (List.range 32) (fun s p => s.wr .TRC_SNAP_DL_value p (s.rd .DSP_DLCNT_count p))

/-- Whether only the physical function or management sends a command; management once start-up has reached step 5 (R445). -/
def State.pfOrMgmt (s : State) (src : Src) : Bool :=
  match src with
  | .mgmt => decide (5 ≤ s.rd .DEV_STAT_step 0)
  | .func f => f == 0 && s.barOf 0

/-- `TRC_SNAPSHOT`: ignored while one is in progress (R368). -/
def execTrcSnapshot (src : Src) (s : State) : Host.Outcome State Fault Refusal :=
  gate s src.ok
    (if s.pfOrMgmt src && !s.snapping then
      { (s.latch.wr .TRC_SNAPSHOT_done 0 0) with snapping := true }
     else s)

/-- `SNAPSHOT_DONE`. -/
def execSnapshotDone (s : State) : Host.Outcome State Fault Refusal :=
  gate s true (if s.snapping then { (s.wr .TRC_SNAPSHOT_done 0 1) with snapping := false } else s)

end Sys2Proof.Machine
end

