-- ==== Sys2Proof/Machine/Dump.lean ====
section
/-! DEFINITION. The crash dump: what it holds, its capture and its close (R390 to R393). The order of the records is the model's,
log entry 31. -/

namespace Sys2Proof.Machine

-- Registers of a unit -------------------------------------------------------------------------------------------------

/-- The registers, in the order of Reg. -/
def regList0 : List Reg :=
  [.GAL_SEQ_CTRL, .GAL_SEQ_STAT, .GAL_SEQ_PC, .GAL_SEQ_TRAP, .GAL_SEQ_TRAP_PC, .GAL_SEQ_ISSUE,
   .GAL_SEQ_STALL, .GAL_SEQ_WAIT, .GAL_SEM_BASE, .GAL_TASK_WIN, .GAL_INT_VEC, .GAL_DISP_STAT, .GAL_DISP_PRE,
   .GAL_SPAN, .GAL_ARRAY_STAT, .GAL_ARRAY_FAULT, .GAL_ARRAY_HOLD, .GAL_ARRAY_CTRL, .GAL_NUM_FLAGS,
   .GAL_ENG_RING, .GAL_ENG_PTR, .GAL_ENG_STAT, .GAL_ENG_WDOG, .GAL_ENG_DONE]

def regList1 : List Reg :=
  [.GAL_ENG_STALE, .GAL_ENG_RST, .GAL_POOL_CFG, .GAL_POOL_PAGER, .GAL_POOL_CE, .GAL_POOL_CE_LAST,
   .GAL_POOL_CE_CTRL, .GAL_POOL_UE, .GAL_POOL_MARCH, .GAL_POOL_MFAIL, .GAL_POOL_SPARE, .GAL_POOL_LOSS,
   .GAL_BANK_OWNER, .MEM_HBM_STAT, .MEM_DDR_STAT, .MEM_HBM_CE, .MEM_DDR_CE, .MEM_HBM_UE, .MEM_DDR_UE,
   .MEM_HBM_CTRL, .MEM_DDR_CTRL, .MEM_PRT_LAYOUT, .MEM_PRT_OWN, .MEM_OWN_FAULT]

def regList2 : List Reg :=
  [.MEM_OWN_DATA, .MEM_OWN_CMD, .PRT_CTRL, .PRT_STAT, .PRT_SLICES, .PRT_COVER, .PRT_RELAYOUT, .PRT_GEN,
   .PRT_MOVED, .PRT_ORDER, .PRT_PGR_HBM, .PRT_PGR_FREE, .PRT_PGR_WMARK, .PRT_SEQ_ARG, .PRT_SEQ_CMD,
   .PRT_SEQ_INFO, .PRT_PGR_SPILL, .PRT_PGR_FAULT, .PRT_PGR_DDR, .PRT_PGR_FILL, .SVY_CTRL, .SVY_CFG, .SVY_SRC,
   .SVY_LEN]

def regList3 : List Reg :=
  [.SVY_STAT, .SVY_GEN, .SVY_TIME, .SVY_PEND, .CTX_ARG, .CTX_CMD, .CTX_RES, .FEN_ARG, .FEN_CMD, .FEN_RES,
   .XLT_ARG, .XLT_CMD, .XLT_RES, .HTN_ARG, .HTN_CMD, .HTN_RES, .DSP_STAT, .DSP_INLINE, .DSP_MISS, .DSP_PVIOL,
   .DSP_PVIOL_LAST, .DSP_APR, .DSP_DLOG_BASE, .DSP_DLOG_NEXT]

def regList4 : List Reg :=
  [.DSP_DLOG_RANGE, .DSP_DLOG_LEN, .DSP_DLOG_CTRL, .DSP_DLOG_MISS, .DSP_MLOG_BASE, .DSP_MLOG_NEXT,
   .DSP_MLOG_CTRL, .DSP_SCHED, .DSP_DLCNT, .DSP_DL_CTRL, .DSP_DL_MISS, .DSP_DL_LAST, .DSP_ACCT,
   .DSP_ACCT_STAT, .DSP_REG_STAT, .DSP_PROG_CMD, .DSP_REG_HOLD, .DSP_REG_LAT, .DSP_PROG_ARG, .DSP_PROG_RES,
   .XLT_IQ_BASE, .XLT_FR_BASE, .XLT_IQ_TAIL, .XLT_IQ_HEAD]

def regList5 : List Reg :=
  [.XLT_FR_TAIL, .XLT_FR_HEAD, .XLT_IQ_STAT, .XLT_FR_CTRL, .XLT_FR_STALE, .XLT_WIN_FAULT, .XLT_FAULT_LAST,
   .HTN_PORT_CTRL, .HTN_PORT_STAT, .HTN_AN_ADV, .HTN_AN_LP, .HTN_FEC_CE, .HTN_FEC_UE, .HTN_LINK_RETRY,
   .HTN_TP_RETX, .HTN_TP_TIMEOUT, .HTN_TP_DUP, .HTN_TP_STALE, .HTN_TP_MOVED, .HTN_RX_BP, .HTN_WIN_REFUSED,
   .HTN_REDUCE_DROP, .HTN_RX_STAT, .HTN_SUMP]

def regList6 : List Reg :=
  [.HTN_TMR, .HTN_TP_FAIL, .HTN_ETH_CFG, .HTN_ETH_MAC, .HTN_ETH_IP0, .HTN_ETH_IP1, .HTN_NBR_PEER,
   .HTN_NBR_IP0, .HTN_NBR_IP1, .HTN_NBR_MAC, .PWR_PKG, .PWR_REF_STAT, .PWR_HALL_STAT, .PWR_HALL_DEPART,
   .PWR_ALERT_CNT, .PWR_THROTTLE_CNT, .PWR_VTAB, .PWR_GAL_STAT, .PWR_GAL_STRETCH, .PWR_TEMP, .PWR_THERM,
   .TRC_SNAPSHOT, .TRC_SNAP_DOM, .TRC_SNAP_DL]

def regList7 : List Reg :=
  [.RAS_STAT, .RAS_EVQ_BASE, .RAS_ESC_CTRL, .RAS_RESET, .RAS_LOST, .RAS_DUMP_CTRL, .RAS_DUMP_STAT,
   .RAS_DUMP_DST, .RAS_EVQ_TAIL, .RAS_EVQ_HEAD, .RAS_DUMP_LOST, .RAS_CNT_CTX, .RAS_CNT_UNIT, .RAS_CNT_PRT,
   .RAS_CNT_CHIP, .RAS_CNT_DROP, .RAS_CTX_WDOG, .EMU_HW_STAT, .EMU_LEASE, .EMU_LEASE_HOLDER, .EMU_LEASE_CFG,
   .EMU_ORPHAN, .EMU_WDROP, .EMU_MODE]

def regList8 : List Reg :=
  [.EMU_IFLEVEL, .EMU_FW_VER, .EMU_VIS, .EMU_KRL_RT, .EMU_KRL_KP, .EMU_LOG_BASE, .EMU_LOG_CFG, .EMU_LOG_HEAD,
   .EMU_LOG_TAIL, .EMU_TRACE, .EMU_CMD, .EMU_FW_DIGEST, .SEC_LC, .SEC_STAT, .SEC_IDPUB, .SEC_OWNER_KID,
   .SEC_OWNER_SHADOW_KID, .SEC_FW_KID, .SEC_SLOT_USE, .SEC_KEY_STALE, .SEC_PRT_KEY, .SEC_TDI, .DEV_ID,
   .DEV_COMPAT_LEVEL]

def regList9 : List Reg :=
  [.DEV_STAT, .DEV_BOOT_TIME]

/-- Every register. -/
def allRegs : List Reg :=
  regList0 ++ regList1 ++ regList2 ++ regList3 ++ regList4 ++ regList5 ++ regList6 ++ regList7 ++ regList8 ++ regList9

/-- The unit that an instance of a register belongs to, as kind and index, by the block it lies in (R393 *Dump units*). -/
def Reg.unitOf (r : Reg) (i : Nat) : Nat × Nat :=
  let b := r.place.base
  let o := b % 0x8000
  if 0x700000 ≤ b ∧ b < 0x800000 then (if 0x1000 ≤ o ∧ o < 0x1800 then (uENGINE, i) else (uGALLERY, i / r.place.n))
  else if 0x600000 ≤ b ∧ b < 0x700000 then (uPARTITION, i / r.place.n)
  else if 0x800000 ≤ b ∧ b < 0x900000 then (uHBM, i)
  else if 0x900000 ≤ b ∧ b < 0x940000 then (uDDR5, i)
  else if 0x940000 ≤ b ∧ b < 0xA00000 then (uPARTITION, i)
  else if 0xA00000 ≤ b ∧ b < 0xB00000 then (uPORT, i / r.place.n)
  else if 0x203000 ≤ b ∧ b < 0x300000 then (uPARTITION, i / r.place.n)
  else if r.place.count = 32 ∧ (r == .PWR_GAL_STAT || r == .PWR_GAL_STRETCH) then (uGALLERY, i)
  else if r.place.count = 32 ∧ (r == .RAS_CTX_WDOG || r == .SEC_PRT_KEY || r == .XLT_WIN_FAULT || r == .XLT_FAULT_LAST) then
    (uPARTITION, i)
  else (uDEVICE, 0)

/-- What a register reads: write-only fields read zero (R5). -/
def State.readReg (s : State) (r : Reg) (i : Nat) : Nat :=
  r.fields.foldl (fun acc f => if f.desc.acc == .wo then acc else acc + s.rd f i * 2 ^ f.desc.lo) 0

/-- Instances of a register that one 64-bit word holds: the manual's registers of lists hold several. -/
def Reg.perWord (r : Reg) : Nat := if r.place.bits < 32 then 64 / r.place.bits else 1

/-- The words of a register: the first instance of each. -/
def Reg.words (r : Reg) : List Nat := (List.range (r.place.count / r.perWord)).map (· * r.perWord)

/-- A word of a register. -/
def State.readWord (s : State) (r : Reg) (i : Nat) : Nat :=
  (List.range r.perWord).foldl (fun acc k => acc + s.readReg r (i + k) * 2 ^ (r.place.bits * k)) 0

/-- Whether a word exists: engines are 0 to 8, SEC_TDI starts at function 1, TRC_SNAP_DOM at domain 1. -/
def Reg.real (r : Reg) (i : Nat) : Bool :=
  match r with
  | .SEC_TDI | .TRC_SNAP_DOM => i != 0
  | _ => (r.unitOf i).1 != uENGINE || decide (i % 16 < 9)

/-- Put an entry in a list sorted by address. -/
def insertWord (e : Nat × Nat) : List (Nat × Nat) → List (Nat × Nat)
  | [] => [e]
  | x :: l => if e.1 ≤ x.1 then e :: x :: l else x :: insertWord e l

/-- Whether a word is the owner register of a geode bank (R176). -/
def State.geodeWord (s : State) (r : Reg) (i : Nat) : Bool :=
  r == .GAL_BANK_OWNER && decide (60 ≤ i % 64) && s.flag .GAL_POOL_CFG_geode (i / 64)

/-- The registers of a unit, in ascending offset: 4 bytes of offset, 8 bytes of value each. -/
def State.unitRegs (s : State) (u : Nat × Nat) (geode : Bool) : List Byte :=
  let l := allRegs.flatMap (fun r =>
    (r.words.filter (fun i => r.unitOf i == u && r.real i && s.geodeWord r i == geode)).map
      (fun i => (r.addr i, s.readWord r i)))
  (l.foldr insertWord []).flatMap (fun e => natLe 4 e.1 ++ natLe 8 e.2)

-- Records -------------------------------------------------------------------------------------------------------------

/-- A record to be: type, unit, whether it is withheld, payload. -/
structure DumpRec where
  ty : Nat
  unit : Nat × Nat
  withheld : Bool
  data : List Byte
  deriving DecidableEq, Repr

/-- The partition whose confidentiality covers a unit (R392); DDR5 channels and the device have none. -/
def State.unitPrt (s : State) (u : Nat × Nat) : Option Nat :=
  if u.1 = uGALLERY then s.prtOf u.2
  else if u.1 = uENGINE then s.prtOf (u.2 / 16)
  else if u.1 = uPARTITION then some u.2
  else if u.1 = uHBM then s.prtOf (u.2 / 8)
  else if u.1 = uPORT then s.prtOf u.2
  else if u.1 = uCONTEXT then some (s.ctx u.2).prt
  else none

/-- Whether a unit's records are withheld. -/
def State.unitHidden (s : State) (u : Nat × Nat) : Bool :=
  match s.unitPrt u with
  | some p => s.confidential p
  | none => false

/-- A record of a unit. -/
def State.dumpRec (s : State) (ty : Nat) (u : Nat × Nat) (b : List Byte) : DumpRec := ⟨ty, u, s.unitHidden u, b⟩

/-- One entry of ENG_CMDS: 64 bytes of the command, then context, epoch, window base and limit. -/
def engEntry (b : List Byte) (c : Captured) : List Byte :=
  b.take 64 ++ natLe 2 c.ctx ++ natLe 2 c.epoch ++ natLe 4 c.base ++ natLe 4 c.limit ++ natLe 4 0

/-- ENG_CMDS of an engine: the running command and up to 15 that follow in the ring. -/
def State.engCmds (s : State) (k : Nat) : List Byte :=
  let x := s.eng k
  let run := match x.cur with
    | some (b, c, _) => engEntry b c
    | none => []
  let h := s.rd .GAL_ENG_PTR_head k
  let n := (s.rd .GAL_ENG_PTR_tail k + s.ringSize k - h) % s.ringSize k
  run ++ (List.range (min n 15)).flatMap (fun j =>
    let i := (h + j) % s.ringSize k
    match x.capAt i with
    | some c => engEntry (s.poolRd (k / 16) (s.ringOff k i) 64) c
    | none => [])

/-- CTX_QUERY RES0 and RES1 of a context, then Q_QUERY RES0 of its queues. -/
def State.ctxBytes (s : State) (c : Nat) : List Byte :=
  let r := s.ctxQueryRes c
  natLe 8 r.1 ++ natLe 8 r.2 ++ (s.queuesOf c).flatMap (fun q => natLe 8 (s.qQueryRes q))

/-- A sequence table entry (R209). -/
def State.seqBytes (s : State) (i : Nat) : List Byte :=
  let x := s.seq i
  natLe 4 (seqHandle i x.gen) ++ natLe 1 x.st ++ natLe 1 x.prt ++ natLe 2 x.ctx ++ natLe 1 x.fmt ++ natLe 1 x.hd
    ++ natLe 1 x.nkvh ++ natLe 1 (x.cls + 4 * b2n x.shared + 8 * b2n x.cmp) ++ natLe 2 x.tpp ++ natLe 2 0 ++ natLe 4 x.len
    ++ natLe 4 x.groups ++ natLe 8 x.stamp ++ (List.range 4).flatMap (fun k => natLe 8 (x.lists.getD k 0 * 65536))
    ++ natLe 4 x.hintLo ++ natLe 4 x.hintHi ++ natLe 1 x.hintGal ++ List.replicate 55 0#8

/-- Every record before END, for a dump of a partition's trigger or of the device. -/
def State.dumpRecs (s : State) (c : Capture) : List DumpRec :=
  let dev := (uDEVICE, 0)
  let parts := (List.range 32).filter (fun p => (s.part p).defined)
  let hit := if c.prt = 0xFF then parts else [c.prt]
  let regs := fun u => s.dumpRec 2 u (s.unitRegs u false)
  let gals := (List.range 32).flatMap (fun g =>
    [regs (uGALLERY, g)]
      ++ (if s.flag .GAL_POOL_CFG_geode g then [⟨2, (uGALLERY, g), true, []⟩] else [])
      ++ [s.dumpRec 3 (uGALLERY, g) (Config.seqState (32 * s.tick + g))])
  let engs := (List.range 32).flatMap (fun g => (List.range 9).flatMap (fun e =>
    let u := (uENGINE, engKey g e)
    [regs u, s.dumpRec 4 u (s.engCmds (engKey g e))]))
  let prts := (List.range 32).flatMap (fun p =>
    let u := (uPARTITION, p)
    [regs u]
      ++ (if hit.contains p then
          [s.dumpRec 6 u ((s.seqs.filter (fun e => e.2.st != 0 && e.2.prt == p)).flatMap (fun e => s.seqBytes e.1))] else [])
      ++ (if parts.contains p then
          [s.dumpRec 7 u ((s.sesss.filter (fun e => e.2.st != 0 && e.2.prt == p)).flatMap (fun e =>
            natLe 8 (e.2.st + e.2.prt * 2 ^ 2 + e.2.peerPrt * 2 ^ 7 + e.2.ports * 2 ^ 12) ++ natLe 8 e.2.peer))] else []))
  let ctxs := ((s.ctxs.filter (fun e => e.2.st != 0)).map (·.1)).map (fun x => s.dumpRec 5 (uCONTEXT, x) (s.ctxBytes x))
  let log := if s.map.dev.fw = 1 then [] else [s.dumpRec 8 (uFIRMWARE, 0) (s.fw.log.flatMap id)]
  [s.dumpRec 1 dev (c.faults.flatMap id), regs dev] ++ gals ++ engs ++ prts
    ++ (List.range 256).map (fun n => regs (uHBM, n)) ++ (List.range 12).map (fun n => regs (uDDR5, n))
    ++ (List.range 32).map (fun n => regs (uPORT, n)) ++ ctxs ++ log
    ++ [s.dumpRec 9 dev (c.snap.flatMap (natLe 8))]

/-- The 16 bytes of a record header and its payload, by its status. -/
def DumpRec.bytes (r : DumpRec) (status : Nat) : List Byte :=
  let d := if status = 0 then r.data else []
  natLe 2 r.ty ++ natLe 1 status ++ natLe 1 0 ++ natLe 4 (r.unit.1 * 2 ^ 24 + r.unit.2) ++ natLe 4 d.length ++ natLe 4 0 ++ d

/-- Status of record number i: done records have been read. -/
def DumpRec.status (r : DumpRec) (marked : List (Nat × Nat)) (i done : Nat) : Nat :=
  if done ≤ i then 3 else if r.withheld then 2 else if marked.contains r.unit then 1 else 0

-- Capture and close ---------------------------------------------------------------------------------------------------

/-- The header of a dump (R393). -/
def State.dumpHeader (s : State) (c : Capture) (flags nrec len : Nat) : List Byte :=
  natLe 4 0x504D5544 ++ natLe 2 1 ++ natLe 1 c.trigger ++ natLe 1 flags ++ natLe 8 c.gen
    ++ natLe 2 (s.rd .DEV_COMPAT_LEVEL_level 0)
    ++ natLe 2 (s.rd .DEV_ID_step_letter 0 * 256 + s.rd .DEV_ID_step_num 0) ++ natLe 1 c.prt ++ natLe 3 0 ++ natLe 4 nrec
    ++ natLe 4 len ++ natLe 8 c.echo ++ natLe 4 ((s.clocks.get 0 domECHO - c.echo) / 1200) ++ natLe 4 c.marked.length
    ++ s.idDigest.take 16

/-- The bytes of a dump of which done records have been read. -/
def State.dumpBytes (s : State) (c : Capture) (done : Nat) (bounded : Bool) : List Byte :=
  let recs := (s.dumpRecs c).zipIdx.map (fun e => (e.1, e.1.status c.marked e.2 done))
  let body := recs.flatMap (fun e => e.1.bytes e.2)
  let flags := b2n bounded + 2 * b2n (recs.any (fun e => e.2 == 2)) + 4 * b2n (s.map.dev.fw == 1)
  let b := s.dumpHeader c flags (recs.length + 1) (64 + body.length + 16 + 64) ++ body
  b ++ natLe 2 0xFFFF ++ natLe 2 0 ++ natLe 4 (uDEVICE * 2 ^ 24) ++ natLe 4 64 ++ natLe 4 0 ++ sha512 b

/-- Start a dump; while one is capturing there is no second (R389, R390). -/
def State.startDump (s : State) (trigger prt : Nat) : State :=
  if s.flag .RAS_STAT_dump 0 then s
  else
    let snap := ((List.range 12).map (fun d => s.clocks.get 0 (d + 1)))
      ++ (List.range 32).map (fun p => if s.confidential p then 0 else s.rd .DSP_DLCNT_count p)
    let s := if s.ras.dump.isEmpty || s.ras.dumpRead then s else s.count .RAS_DUMP_LOST_count .RAS_DUMP_LOST_ovf 0 1
    let c : Capture := ⟨trigger, prt, s.rd .SVY_GEN_gen 0, s.clocks.get 0 domECHO, snap, s.ras.recent, []⟩
    let s := (s.wr .RAS_STAT_dump 0 1).wr .RAS_DUMP_STAT_state 0 1
    { s with ras := { s.ras with cap := some c, recent := [], dump := [], dumpRead := false } }

/-- Close the dump that captures, done records having been read. -/
def State.closeDump (s : State) (done : Nat) (bounded : Bool) : State :=
  match s.ras.cap with
  | none => s
  | some c =>
    let b := s.dumpBytes c done bounded
    let s := ((s.wr .RAS_STAT_dump 0 0).wr .RAS_DUMP_STAT_state 0 2).wr .RAS_DUMP_STAT_bounded 0 (b2n bounded)
    let s := ((s.wr .RAS_DUMP_STAT_trigger 0 c.trigger).wr .RAS_DUMP_STAT_unread 0 (min c.marked.length 65535)).wr
      .RAS_DUMP_STAT_len 0 b.length
    { s with ras := { s.ras with cap := none, dump := b } }

/-- Every unit has been read, or has timed out. -/
def State.finishDump (s : State) : State :=
  match s.ras.cap with
  | none => s
  | some c => (s.closeDump (s.dumpRecs c).length false).ticked

/-- `DUMP_READ_TIMEOUT`: the unit is marked (R391). -/
def execDumpReadTimeout (kind unit : Nat) (s : State) : Host.Outcome State Fault Refusal :=
  gateHeld s true
    (match s.ras.cap with
     | none => s
     | some c =>
       if c.marked.contains (kind, unit) || !(s.dumpRecs c).any (fun r => r.unit == (kind, unit)) then s
       else { s with ras := { s.ras with cap := some { c with marked := c.marked ++ [(kind, unit)] } } })

/-- `DUMP_BOUND`: 5 ms after the trigger the dump closes; how many records have been read by then is open, but the first of
every unit that timed out was tried (R391). -/
def execDumpBound (s : State) : Host.Outcome State Fault Refusal :=
  gateHeld s true
    (match s.ras.cap with
     | none => s
     | some c =>
       let tried := (s.dumpRecs c).zipIdx.foldl (fun n e => if c.marked.contains e.1.unit && !(s.dumpRecs c).any (fun r =>
         r.unit == e.1.unit && r.ty < e.1.ty) then max n (e.2 + 1) else n) 0
       (s.closeDump (max tried (Config.dumpDone s.tick)) true).ticked)

-- Commands ------------------------------------------------------------------------------------------------------------

/-- `DUMP`: RAS_DUMP_CTRL.go (R390). -/
def execDump (src : Src) (s : State) : Host.Outcome State Fault Refusal :=
  gate s src.ok (if s.pfOrMgmt src then s.startDump 0 0xFF else s)

/-- `DUMP_COPY`: RAS_DUMP_CTRL.copy; there is nothing to copy while none is stored. -/
def execDumpCopy (src : Src) (s : State) : Host.Outcome State Fault Refusal :=
  gate s src.ok (if s.pfOrMgmt src && s.rd .RAS_DUMP_STAT_state 0 == 2 then s.wr .RAS_DUMP_STAT_state 0 3 else s)

/-- `DUMP_COPY_DONE`: the copy stands in host memory at RAS_DUMP_DST, or its DMA failed. -/
def execDumpCopyDone (ok : Bool) (s : State) : Host.Outcome State Fault Refusal :=
  gate s true
    (if s.rd .RAS_DUMP_STAT_state 0 != 3 then s
     else
      let s := s.wr .RAS_DUMP_STAT_state 0 2
      if ok then
        let s := (s.hostWr 0 none (s.rd .RAS_DUMP_DST_addr 0 * 4096) s.ras.dump).wr .RAS_DUMP_STAT_copied 0 1
        { s with ras := { s.ras with dumpRead := true } }
      else s.wr .RAS_DUMP_STAT_copy_err 0 1)

end Sys2Proof.Machine
end

