-- ==== Sys2Proof/Machine/FwCore.lean ====
section
/-! DEFINITION. The firmware log and the visibility that governs it (R407, R408, R412). -/

namespace Sys2Proof.Machine

/-- The CPC domain (R23). -/
def domCPC : Nat := 11

/-- The settings that software wrote: log base in 4 KiB units from its two halves of 31 bits, enable, size, trace points. -/
def State.logSettings (s : State) : State :=
  { s with fw := { s.fw with logBase := s.rd .EMU_LOG_BASE_addr 0 + s.rd .EMU_LOG_BASE_addr 1 * 2 ^ 31,
                             logEn := s.flag .EMU_LOG_CFG_en 0, logSize := s.rd .EMU_LOG_CFG_size 0,
                             trace := s.rd .EMU_TRACE_mask 0 + s.rd .EMU_TRACE_mask 1 * 2 ^ 32 } }

/-- Records the host ring holds: none for a size it does not define. -/
def Fw.ringLen (x : Fw) : Nat := if x.logSize ≤ 12 then 64 * 2 ^ x.logSize else 0

/-- Write a log record to the on-chip buffer of 64 KiB, and to the host ring when that is enabled and has room (R408). -/
def State.logWrite (s : State) (level core code : Nat) (args : List Nat) : State :=
  let x := s.fw
  let n := x.ringLen
  let b := natLe 4 x.logSeq ++ natLe 1 domCPC ++ natLe 1 level ++ natLe 1 core ++ natLe 1 ((x.logPass + 1) % 2 * 128)
    ++ natLe 8 (s.clocks.get 0 domCPC) ++ natLe 4 code ++ natLe 4 0
    ++ (List.range 5).flatMap (fun k => natLe 8 (args.getD k 0))
  let keep := x.log ++ [b]
  let s := { s with fw := { x with log := keep.drop (keep.length - 1024), logSeq := (x.logSeq + 1) % 2 ^ 32 } }
  let tail := s.rd .EMU_LOG_TAIL_idx 0
  if x.logEn && n != 0 && (tail + 1) % n != s.rd .EMU_LOG_HEAD_idx 0 % n then
    let s := s.hostWr 0 none (x.logBase * 4096 + 64 * (tail % n)) b
    let tail := (tail + 1) % n
    let s := s.wr .EMU_LOG_TAIL_idx 0 tail
    if tail = 0 then { s with fw := { s.fw with logPass := s.fw.logPass + 1 } } else s
  else s

/-- The effective visibility (R407). -/
def State.visWanted (s : State) : Bool :=
  s.map.dev.fw == 1 || (List.range 32).any (fun p => s.flag .PRT_CTRL_conf p)

/-- Bring the visibility up to date: on its way to 1 the log stops, trace points go off, the buffer is zeroed; on its way back
settings that waited take effect and a gap record comes first (R407, R412). -/
def State.showVis (s : State) : State :=
  let now := s.visWanted
  if now == s.flag .EMU_VIS_vis 0 then s
  else if now then
    { s.wr .EMU_VIS_vis 0 1 with fw := { s.fw with log := [], logEn := false, trace := 0 } }
  else
    ((s.wr .EMU_VIS_vis 0 0).logSettings.logWrite 2 0 1 [Config.gapCount s.tick]).ticked

/-- Settings written while the visibility is 0 act at once (R412). -/
def State.logConfigured (s : State) : State := if s.flag .EMU_VIS_vis 0 then s else s.logSettings

end Sys2Proof.Machine
end

