-- ==== Sys2Proof/Machine/Transc.lean ====
section
/-! DEFINITION. The correctly rounded functions of R137, R140 and R141: exponential, logistic function, hyperbolic tangent,
error function, softplus and quotients. Each is computed in fixed point far beyond the 24 bits of the result and rounded
once; DEDUCED: no FP32 argument has a value within that distance of a rounding boundary (log entry 12). -/

namespace Sys2Proof.Machine

-- Fixed point ---------------------------------------------------------------------------------------------------------

/-- A magnitude m × 2^e in units of 2^-p, rounded down. -/
def toFix (p m : Nat) (e : Int) : Nat :=
  let k := e + p
  if 0 ≤ k then m * 2 ^ k.toNat else m / 2 ^ (-k).toNat

/-- Σ 1/((2j+1) q^(2j+1)) in units of 2^-p over n terms from j: t is 2^p/q^(2j+1). -/
def atanhGo (q : Nat) : Nat → Nat → Nat → Nat → Nat
  | 0, _, _, acc => acc
  | n + 1, j, t, acc => atanhGo q n (j + 1) (t / (q * q)) (acc + t / (2 * j + 1))

/-- ln 2 in units of 2^-p: 2 atanh(1/3). -/
def ln2Fix (p : Nat) : Nat := 2 * atanhGo 3 p 0 (2 ^ p / 3) 0

/-- Σ (-1)^j/((2j+1) q^(2j+1)) in units of 2^-p. -/
def atanGo (q : Nat) : Nat → Nat → Nat → Int → Int
  | 0, _, _, acc => acc
  | n + 1, j, t, acc =>
    let v : Int := (t / (2 * j + 1) : Nat)
    atanGo q n (j + 1) (t / (q * q)) (if j % 2 = 0 then acc + v else acc - v)

/-- π in units of 2^-p, by Machin's formula. -/
def piFix (p : Nat) : Nat :=
  (4 * (4 * atanGo 5 p 0 (2 ^ p / 5) 0 - atanGo 239 p 0 (2 ^ p / 239) 0)).toNat

/-- Terms r^j/j! of the exponential series. -/
def expTerms (p r : Nat) : Nat → Nat → Nat → Nat → Nat
  | 0, _, _, acc => acc
  | n + 1, j, t, acc => expTerms p r n (j + 1) (t * r / 2 ^ p / (j + 1)) (acc + t)

/-- e^x for x = X × 2^-p: m × 2^(k-p) with m in units of 2^-p between 1 and 2. -/
def expFix (p : Nat) (x : Int) : Nat × Int :=
  let l : Int := ln2Fix p
  let k := x / l
  let r := (x - k * l).toNat
  (expTerms p r 120 0 (2 ^ p) 0, k)

/-- e^(-|x|) in units of 2^-p for |x| = X × 2^-p. -/
def expNegFix (p X : Nat) : Nat :=
  let (m, k) := expFix p (-(X : Int))
  m / 2 ^ (-k).toNat

/-- The precision used for everything but the error function. -/
def fixP : Nat := 256

/-- Round a positive value m × 2^e (and something below) to FP32, to nearest even. -/
def rneBits (neg : Bool) (m : Nat) (e : Int) : Nat :=
  if m = 0 then Fmt.fp32.pack neg 0 else (Fmt.fp32.roundFin .rne false neg m e true).bits

/-- The bits of 1 and 0.5 with a sign. -/
def oneBits (neg : Bool) : Nat := Fmt.fp32.pack neg 0x3F800000

/-- |x| of a finite value in fixed point; values of 256 and more are all alike to these functions. -/
def fixOf (m : Nat) (e : Int) : Nat := if m ≠ 0 ∧ 8 ≤ expOf m e then 256 * 2 ^ fixP else toFix fixP m e

-- The functions, FP32 bits to FP32 bits -------------------------------------------------------------------------------

/-- e^x correctly rounded; e^-∞ = +0 (R137, R141). -/
def expCr (x : Nat) : Nat :=
  match Fmt.fp32.decode x with
  | .nan _ _ => Fmt.fp32.canon
  | .inf n => if n then 0 else Fmt.fp32.infBits false
  | .fin n m e =>
    if m = 0 then oneBits false
    else
      let X : Int := fixOf m e
      let (v, k) := expFix fixP (if n then -X else X)
      rneBits false v (k - fixP)

/-- 1/(1 + e^-x) correctly rounded. -/
def sigmoidCr (x : Nat) : Nat :=
  match Fmt.fp32.decode x with
  | .nan _ _ => Fmt.fp32.canon
  | .inf n => if n then 0 else oneBits false
  | .fin n m e =>
    if m = 0 then 0x3F000000
    else
      let (v, k) := expFix fixP (-(fixOf m e : Int))
      let d := 2 ^ fixP + v / 2 ^ (-k).toNat
      if n then rneBits false (v * 2 ^ fixP / d) (k - fixP) else rneBits false (2 ^ (2 * fixP) / d) (-fixP)

/-- tanh x correctly rounded: below 2^-13 it is x. -/
def tanhCr (x : Nat) : Nat :=
  match Fmt.fp32.decode x with
  | .nan _ _ => Fmt.fp32.canon
  | .inf n => oneBits n
  | .fin n m e =>
    if m = 0 ∨ expOf m e < -13 then x
    else
      let v := expNegFix fixP (2 * fixOf m e)
      rneBits n ((2 ^ fixP - v) * 2 ^ fixP / (2 ^ fixP + v)) (-fixP)

/-- Terms of Σ x (2x²)^j / (1·3···(2j+1)): t is the term, xx is 2x² in units of 2^-p. -/
def erfTerms (p xx : Nat) : Nat → Nat → Nat → Nat → Nat
  | 0, _, _, acc => acc
  | n + 1, j, t, acc => erfTerms p xx n (j + 1) (t * xx / 2 ^ p / (2 * j + 3)) (acc + t)

/-- erf x correctly rounded: from 8 on it is 1. -/
def erfCr (x : Nat) : Nat :=
  let p := 448
  match Fmt.fp32.decode x with
  | .nan _ _ => Fmt.fp32.canon
  | .inf n => oneBits n
  | .fin n m e =>
    if m = 0 then x
    else if 3 ≤ expOf m e then oneBits n
    else
      let X := toFix p m e
      let sq := X * X / 2 ^ p
      let s := erfTerms p (2 * sq) 480 0 X 0
      let (v, k) := expFix p (-(sq : Int))
      let rootPi := isqrt (piFix p * 2 ^ p)
      rneBits n (2 * s * v / rootPi) (k - p)

/-- Terms of atanh z in units of 2^-p. -/
def atanhTerms (p zz : Nat) : Nat → Nat → Nat → Nat → Nat
  | 0, _, _, acc => acc
  | n + 1, j, t, acc => atanhTerms p zz n (j + 1) (t * zz / 2 ^ p) (acc + t / (2 * j + 1))

/-- Alternating terms of ln(1+y)/y in units of 2^-p. -/
def logTerms (p y : Nat) : Nat → Nat → Nat → Int → Int
  | 0, _, _, acc => acc
  | n + 1, j, t, acc =>
    let v : Int := (t / (j + 1) : Nat)
    logTerms p y n (j + 1) (t * y / 2 ^ p) (if j % 2 = 0 then acc + v else acc - v)

/-- ln(1 + e^x) correctly rounded. -/
def softplusCr (x : Nat) : Nat :=
  match Fmt.fp32.decode x with
  | .nan _ _ => Fmt.fp32.canon
  | .inf n => if n then 0 else Fmt.fp32.infBits false
  | .fin n m e =>
    let p := fixP
    if m ≠ 0 ∧ n = false ∧ 8 ≤ expOf m e then rneBits false (m * 2 ^ 300) (e - 300)
    else
      let (v, k) := expFix p (-(fixOf m e : Int))
      let y := v / 2 ^ (-k).toNat
      if n ∧ k < -8 then
        -- y = v × 2^(k-p): ln(1+y) = y × (1 − y/2 + …)
        rneBits false (v * (logTerms p y 48 0 (2 ^ p) 0).toNat / 2 ^ p) (k - p)
      else
        let z := y * 2 ^ p / (2 ^ (p + 1) + y)
        let l := 2 * atanhTerms p (z * z / 2 ^ p) 170 0 z 0
        rneBits false (l + (if n then 0 else toFix p m e)) (-p)

/-- A quotient rounded once. -/
def fpDiv (f : Fmt) (md : Rnd) (x y : Val) : FpRes :=
  match x, y with
  | .nan _ _, _ => f.nanRes (sNanFlag [x, y])
  | _, .nan _ _ => f.nanRes (sNanFlag [x, y])
  | .inf _, .inf _ => f.nanRes fINV
  | .inf a, .fin b _ _ => ⟨f.infBits (a != b), 0⟩
  | .fin a _ _, .inf b => ⟨f.pack (a != b) 0, 0⟩
  | .fin a m e, .fin b n k =>
    if n = 0 then (if m = 0 then f.nanRes fINV else ⟨f.infBits (a != b), fDZ⟩)
    else if m = 0 then ⟨f.pack (a != b) 0, 0⟩
    else
      let h := n.log2 + 96
      f.roundFin md false (a != b) (m * 2 ^ h / n) (e - k - h) (m * 2 ^ h % n != 0)

/-- The exact sum of products as a value: NaN and infinities by IEEE 754, an exact zero is +0. -/
def sumVal (xs : List (Option Val)) : Val :=
  if xs.any (fun x => match x with
      | none => true
      | some v => v.isNan) then .nan false false
  else
    let vs := xs.filterMap id
    let pinf := vs.any (fun v => v == .inf false)
    let ninf := vs.any (fun v => v == .inf true)
    if pinf && ninf then .nan false false
    else if pinf then .inf false
    else if ninf then .inf true
    else
      let (i, e) := sumFin vs
      .fin (decide (i < 0)) i.natAbs e

/-- Round a value once to a format. -/
def roundVal (f : Fmt) (v : Val) : Nat := (f.encode .rne false v).bits

end Sys2Proof.Machine
end

