-- ==== Sys2Proof/Machine/EngMove.lean ====
section
/-! DEFINITION. The engines that move rows and bytes: gather/scatter (R143 to R147), copy (R157, R158, R286, R291) and
compression (R159 to R162). Work on remote windows goes through requests; what follows their answers is resumed by
State.engAdvance. -/

namespace Sys2Proof.Machine

/-- Who sends an engine's requests. -/
def Env.own (x : Env) : ReqOwner := .engine x.k

/-- Bytes read from a window range by this command's READ requests. -/
def Env.winData (x : Env) (s : State) (va n : Nat) : List Byte :=
  (((s.reqsOf x.own).filter (fun r => r.win == winOf va && decide (winOff va ≤ r.offset)
    && decide (r.offset < winOff va + n))).flatMap (fun r => r.resp)).take n

/-- Whether a row length is one GSC takes. -/
def rowOk (n : Nat) : Bool := n % 128 == 0 && decide (128 ≤ n) && decide (n ≤ 65536)

-- GATHER --------------------------------------------------------------------------------------------------------------

/-- The indices of a GATHER, and the rows it takes: none for a zero row. -/
def gatherRows (b : List Byte) (n rows : Nat) : List (Option Nat) :=
  (List.range n).map (fun i =>
    let v := sInt 32 (fieldAt b (4 * i) 4)
    if 0 ≤ v ∧ v < (rows : Int) then some v.toNat else none)

/-- Indices other than −1 outside the table (R143). -/
def gatherCount (b : List Byte) (n rows : Nat) : Nat :=
  ((List.range n).filter (fun i =>
    let v := sInt 32 (fieldAt b (4 * i) 4)
    decide (v ≠ -1) && !(decide (0 ≤ v) && decide (v < (rows : Int))))).length

/-- Write the rows of a GATHER: remote rows have been read. -/
def gatherWrite (x : Env) (s : State) : EngRes (Nat × Nat) :=
  let n := x.f 0x20 4
  let rb := x.f 0x28 4
  (x.rd (x.f 0x10 4) (4 * n) s).bind fun ib s =>
  let rows := gatherRows ib n (x.f 0x24 4)
  (engFold rows.zipIdx () s fun _ (r, i) s =>
    (match r with
      | none => EngRes.ok (List.replicate rb 0#8) s
      | some v =>
        let va := x.f 0x18 8 + v * rb
        if isWindow va then .ok (x.winData s va rb) s else x.farRd va rb s).bind (fun d s =>
      x.wr (x.f 0x14 4 + i * rb) d s) |>.at i).bind fun _ s =>
  .ok (cOK, gatherCount ib n (x.f 0x24 4)) (s.dropReqs x.own)

/-- GATHER: checks; remote rows are asked for first (R143). -/
def runGather (x : Env) (s : State) : EngRes (Nat × Nat) :=
  let n := x.f 0x20 4
  let rb := x.f 0x28 4
  let tbl := x.f 0x18 8
  if n = 0 ∨ 65536 < n ∨ !rowOk rb ∨ 2 ^ 48 ≤ tbl ∨ tbl % 128 ≠ 0 ∨ !x.zero 0x2C 20 then .err cBAD_CMD 0 s
  else
    (x.ranges s [(x.f 0x10 4, 4 * n, 128), (x.f 0x14 4, n * rb, 128)]).bind fun _ s =>
    (x.rd (x.f 0x10 4) (4 * n) s).bind fun ib s =>
    let remote := (gatherRows ib n (x.f 0x24 4)).filterMap (fun r => match r with
      | some v => if isWindow (tbl + v * rb) then some (tbl + v * rb) else none
      | none => none)
    if remote.isEmpty then gatherWrite x s
    else if remote.any (fun va => 2 ^ 48 ≤ va ∨ !x.winOk s va rb rREAD) then .err cWINDOW 0 s
    else .wait 1 (remote.foldl (fun s va => s.winRead x.cap.ctx (winOf va) (winOff va) rb x.own) s)

-- DISPATCH and COMBINE ------------------------------------------------------------------------------------------------

/-- The fields DISPATCH and COMBINE share. -/
structure Moe where
  tok : Nat
  route : Nat
  map : Nat
  dest : Nat
  n : Nat
  rb : Nat
  nexp : Nat
  rank : Nat
  cap : Nat
  k : Nat
  deriving DecidableEq, Repr

def Env.moe (x : Env) : Moe :=
  ⟨x.f 0x10 4, x.f 0x14 4, x.f 0x18 4, x.f 0x1C 4, x.f 0x20 4, x.f 0x24 4, x.f 0x28 2, x.f 0x2A 2, x.f 0x2C 2, x.f 0x2E 1⟩

def Moe.ok (m : Moe) : Bool :=
  decide (1 ≤ m.n) && decide (m.n ≤ 16384) && rowOk m.rb && decide (1 ≤ m.nexp) && decide (m.nexp ≤ 4096)
    && decide (m.rank ≤ 4095) && decide (1 ≤ m.cap) && decide (1 ≤ m.k) && decide (m.k ≤ 8)

/-- The pool ranges that both read or write. -/
def Moe.ranges (m : Moe) : List (Nat × Nat × Nat) :=
  [(m.route, 2 * m.n * m.k, 128), (m.map, 4 * m.n * m.k, 128), (m.dest, 16 * m.nexp, 128)]

/-- An assignment: token, rank, expert, and its number among this source's assignments to that expert. -/
structure Assign where
  t : Nat
  r : Nat
  e : Nat
  j : Nat
  deriving DecidableEq, Repr

/-- Assignments in token order, numbered per expert (R145). -/
def assigns (rb : List Byte) (n k : Nat) : List Assign :=
  ((List.range (n * k)).foldl (fun (acc : List Assign × Tab Nat) i =>
    let e := fieldAt rb (2 * i) 2
    let j := acc.2.get 0 e
    ((⟨i / k, i % k, e, j⟩ : Assign) :: acc.1, acc.2.set 0 e (j + 1))) ([], [])).1.reverse

/-- Entry e of an expert table: buffer and count array. -/
def expert (tb : List Byte) (e : Nat) : EAddr × EAddr := (eAddr (fieldAt tb (16 * e) 8), eAddr (fieldAt tb (16 * e + 8) 8))

/-- Move an address forward. -/
def EAddr.plus : EAddr → Nat → EAddr
  | .pool o, n => .pool (o + n)
  | .far a, n => .far (a + n)
  | .bad, _ => .bad

/-- What a range of an address form fails with before anything is executed: a pool range outside the window, a window that
may not be used. -/
def Env.placeErr (x : Env) (s : State) (a : EAddr) (n right : Nat) : Option Nat :=
  match a with
  | .pool o => if x.poolOk s o n 1 then none else some cPOOL_BOUNDS
  | .far va => if isWindow va && !(decide (va < 2 ^ 48) && x.winOk s va n right) then some cWINDOW else none
  | .bad => some cBAD_CMD

/-- Write bytes at an address form; a window takes one MESSAGE. -/
def Env.put (x : Env) (a : EAddr) (d : List Byte) (cnt : Nat) (s : State) : EngRes Unit :=
  match a with
  | .pool o => x.wr o d s
  | .far va =>
    if isWindow va then .ok () (s.winWrite x.cap.ctx (winOf va) 5 (winOff va) cnt d x.own) else x.farWr va d s
  | .bad => .err cBAD_CMD 0 s

/-- The first failure of a list of checks. -/
def firstErr (l : List (Option Nat)) : Option Nat := l.findSome? id

/-- The count words of a DISPATCH: every expert of the table (R145, R146). -/
def dispatchCounts (x : Env) (s : State) : EngRes (Nat × Nat) :=
  let m := x.moe
  (x.rd m.route (2 * m.n * m.k) s).bind fun rb s =>
  (x.rd m.dest (16 * m.nexp) s).bind fun tb s =>
  let as := assigns rb m.n m.k
  let dropped := (as.filter (fun a => decide (m.cap ≤ a.j))).length
  (engFold (List.range m.nexp) () (s.dropReqs x.own) fun _ e s =>
    (x.put ((expert tb e).2.plus (4 * m.rank)) (natLe 4 (min (as.filter (fun a => a.e == e)).length m.cap)) 1 s).at
      (m.n + e)).bind fun _ s =>
  if (s.reqsOf x.own).isEmpty then .ok (if dropped = 0 then cOK else cDROPPED, dropped) s else .wait 2 s

/-- The end of a DISPATCH whose count words have been acknowledged. -/
def dispatchEnd (x : Env) (s : State) : EngRes (Nat × Nat) :=
  let m := x.moe
  (x.rd m.route (2 * m.n * m.k) s).bind fun rb s =>
  let dropped := ((assigns rb m.n m.k).filter (fun a => decide (m.cap ≤ a.j))).length
  .ok (if dropped = 0 then cOK else cDROPPED, dropped) (s.dropReqs x.own)

/-- DISPATCH: rows and map first (R144 to R146). -/
def runDispatch (x : Env) (s : State) : EngRes (Nat × Nat) :=
  let m := x.moe
  if !m.ok ∨ !x.zero 0x2F 17 then .err cBAD_CMD 0 s
  else
    (x.ranges s ((m.tok, m.n * m.rb, 128) :: m.ranges)).bind fun _ s =>
    (x.rd m.route (2 * m.n * m.k) s).bind fun rb s =>
    (x.rd m.dest (16 * m.nexp) s).bind fun tb s =>
    let as := assigns rb m.n m.k
    let kept := as.filter (fun a => decide (a.j < m.cap))
    let place := fun (a : Assign) => (expert tb a.e).1.plus ((m.rank * m.cap + a.j) * m.rb)
    let bad := if as.any (fun a => decide (m.nexp ≤ a.e)) then some cBAD_CMD
      else firstErr ((List.range m.nexp).map (fun e => x.placeErr s ((expert tb e).2.plus (4 * m.rank)) 4 rMESSAGE)
        ++ kept.map (fun a => x.placeErr s (place a) m.rb rMESSAGE))
    match bad with
    | some c => .err c 0 s
    | none =>
      (engFold as () s fun _ a s =>
        ((if a.j < m.cap then
            (x.rd (m.tok + a.t * m.rb) m.rb s).bind fun d s => x.put (place a) d 0 s
          else EngRes.ok () s).bind fun _ s =>
        x.wr (m.map + 4 * (a.t * m.k + a.r)) (natLe 4 (if a.j < m.cap then m.rank * m.cap + a.j else noOffset)) s).at
          a.t).bind fun _ s =>
      if (s.reqsOf x.own).isEmpty then dispatchCounts x s else .wait 1 s

/-- Weights offset and row format of a COMBINE (R147). -/
def Env.wts (x : Env) : Nat := x.f 0x2F 4
def Env.rowFmt (x : Env) : Fmt := if x.f 0x33 1 = 0 then .fp32 else .bf16

/-- The expert row of token t at rank r: its address, or none when it was dropped. -/
def combineRow (m : Moe) (rb mb tb : List Byte) (t r : Nat) : Option EAddr :=
  let i := t * m.k + r
  let sl := fieldAt mb (4 * i) 4
  if sl = noOffset then none else some ((expert tb (fieldAt rb (2 * i) 2)).1.plus (sl * m.rb))

/-- Combine: remote rows have been read (R147). -/
def combineWrite (x : Env) (s : State) : EngRes (Nat × Nat) :=
  let m := x.moe
  let f := x.rowFmt
  let eb := f.bits / 8
  (x.rd m.route (2 * m.n * m.k) s).bind fun rb s =>
  (x.rd m.map (4 * m.n * m.k) s).bind fun mb s =>
  (x.rd m.dest (16 * m.nexp) s).bind fun tb s =>
  (x.rd x.wts (4 * m.n * m.k) s).bind fun wb s =>
  (engFold (List.range m.n) () s fun _ t s =>
    ((engFold (List.range m.k) ([] : List (Nat × List Byte)) s fun acc r s =>
      match combineRow m rb mb tb t r with
      | none => .ok acc s
      | some a =>
        (match a with
          | .pool o => x.rd o m.rb s
          | .far va => if isWindow va then .ok (x.winData s va m.rb) s else x.farRd va m.rb s
          | .bad => .err cBAD_CMD 0 s).bind fun d s => .ok (acc ++ [(fieldAt wb (4 * (t * m.k + r)) 4, d)]) s).bind
    fun rows s =>
      let out := (List.range (m.rb / eb)).flatMap (fun d =>
        natLe eb (roundVal f (sumVal (rows.map (fun (w, b) => mulVal (Fmt.fp32.decode w) (f.decode (fieldAt b (eb * d) eb)))))))
      x.wr (m.tok + t * m.rb) out s).at t).bind fun _ s =>
  .ok (cOK, 0) (s.dropReqs x.own)

/-- COMBINE: remote rows are asked for first (R147). -/
def runCombine (x : Env) (s : State) : EngRes (Nat × Nat) :=
  let m := x.moe
  if !m.ok ∨ 1 < x.f 0x33 1 ∨ !x.zero 0x34 12 then .err cBAD_CMD 0 s
  else
    (x.ranges s ([(m.tok, m.n * m.rb, 128), (x.wts, 4 * m.n * m.k, 128)] ++ m.ranges)).bind fun _ s =>
    (x.rd m.route (2 * m.n * m.k) s).bind fun rb s =>
    (x.rd m.map (4 * m.n * m.k) s).bind fun mb s =>
    (x.rd m.dest (16 * m.nexp) s).bind fun tb s =>
    let all := (List.range (m.n * m.k)).filterMap (fun i => combineRow m rb mb tb (i / m.k) (i % m.k))
    let bad := if (List.range (m.n * m.k)).any (fun i => decide (fieldAt mb (4 * i) 4 ≠ noOffset)
        && decide (m.nexp ≤ fieldAt rb (2 * i) 2)) then some cBAD_CMD
      else firstErr (all.map (fun a => x.placeErr s a m.rb rREAD))
    match bad with
    | some c => .err c 0 s
    | none =>
      let remote := all.filterMap (fun a => match a with
        | .far va => if isWindow va then some va else none
        | _ => none)
      if remote.isEmpty then combineWrite x s
      else .wait 1 (remote.foldl (fun s va => s.winRead x.cap.ctx (winOf va) (winOff va) m.rb x.own) s)

-- Copy engines --------------------------------------------------------------------------------------------------------

/-- The fields of *COPY body*. -/
structure CopyCmd where
  op : Nat
  src : EAddr
  dst : EAddr
  len : Nat
  nrow : Nat
  ss : Nat
  ds : Nat
  fill : List Byte
  deriving DecidableEq, Repr

def Env.copy (x : Env) : CopyCmd :=
  ⟨x.f 0 1, eAddr (x.f 0x10 8), eAddr (x.f 0x18 8), x.f 0x20 4, x.f 0x24 4, x.f 0x28 8, x.f 0x30 8, (x.b.drop 0x38).take 8⟩

/-- The pieces of 4 KiB unit u of the stream of rows: row, offset in the row, length (R133). -/
def unitPieces (len nrow u : Nat) : List (Nat × Nat × Nat) :=
  let lo := 4096 * u
  let hi := min (lo + 4096) (len * nrow)
  ((List.range ((hi + len - 1) / len - lo / len)).map (· + lo / len)).map (fun r =>
    let a := max lo (r * len)
    (r, a - r * len, min hi ((r + 1) * len) - a))

/-- What a copy engine's access meets (R286, R291, R294). -/
inductive CopyTo where
  | dev (ppa : Nat)
  | host (addr : Nat)
  | fatal
  | unmapped (level : Nat)
  | ats
  deriving DecidableEq, Repr

/-- The check of R286 for copy engines; an unpinned host page asks ATS, whose answer is the host's. -/
def Walk.copy (w : Walk) (wr present : Bool) : CopyTo :=
  match w with
  | .dev a _ ro => if wr && ro then .fatal else .dev a
  | .host a pin ro => if wr && ro then .fatal else if pin || present then .host a else .ats
  | .unmapped l => .unmapped l
  | .malformed => .fatal

/-- One piece, within a 4 KiB page of virtual addresses, of a copy engine's far access. -/
def Env.copyPiece (x : Env) (a n u : Nat) (wr : Option (List Byte)) (s : State) : EngRes (List Byte) :=
  let c := x.cap.ctx
  if isSeqAperture a then
    x.far (match wr with
      | none => s.readPiece x.g c a n
      | some b => s.writePiece x.g c a b)
  else
    let w := s.walk c a
    let asks := match w with
      | .host _ pin ro => !pin && !(wr.isSome && ro)
      | _ => false
    let present := asks && Config.atsPresent s.tick
    let s := if asks then s.ticked else s
    match w.copy wr.isSome present with
    | .fatal => .err cXLATE u (s.xlateFault c a)
    | .unmapped l => .park ⟨a, 0, b2n wr.isSome, l, false, u, false⟩ s
    | .ats => .park ⟨a, 1, b2n wr.isSome, 0xFF, false, u, true⟩
        (s.emit (.pri (s.part (s.ctx c).prt).func (s.ctx c).pasid (a / 4096 * 4096) wr.isSome))
    | .host h =>
      let f := (s.part (s.ctx c).prt).func
      if (s.func f).d3 then .park ⟨a, 2, b2n wr.isSome, 0xFF, true, u, false⟩ s
      else if s.tdiDrops f && wr.isNone then .err cXLATE u (s.xlateFault c a)
      else (match wr with
      | none => .ok (s.hostRd (s.ctx c).dmaPasid h n) s
      | some b => .ok [] (s.hostWr (s.part (s.ctx c).prt).func (s.ctx c).dmaPasid h b))
    | .dev p => x.far (match wr with
      | none => (match s.memRead (s.ctx c).prt p n c with
        | (.ok b, s) => (.ok b, s)
        | (.refused, s) => (.owner, s)
        | (.poison l, s) => (.poison l, s))
      | some b => (match s.memWrite (s.ctx c).prt p c b with
        | (.ok _, s) => (.ok [], s)
        | (.refused, s) => (.owner, s)
        | (.poison l, s) => (.poison l, s)))

/-- A far access of a copy engine, page by page; the control line of a sequence is one access. -/
def Env.copyFar (x : Env) (va n u : Nat) (wr : Option (List Byte)) (s : State) : EngRes (List Byte) :=
  if 2 ^ 48 < va + n then .err cXLATE u (s.xlateFault x.cap.ctx (va % 2 ^ 48))
  else engFold (pieces va n 4096) ([] : List Byte) s fun d (a, m) s =>
    (x.copyPiece a m u (wr.map (fun b => (b.drop (a - va)).take m)) s).bind fun b s => .ok (d ++ b) s

/-- Read one piece of the source. -/
def Env.copySrc (x : Env) (c : CopyCmd) (u : Nat) (p : Nat × Nat × Nat) (s : State) : EngRes (List Byte) :=
  let (r, o, n) := p
  if c.op = 3 then .ok ((List.range n).map (fun i => c.fill.getD ((o + i) % 8) 0#8)) s
  else match c.src with
    | .pool b => x.rd (b + r * c.ss + o) n s
    | .far va =>
      let a := va + r * c.ss + o
      if isWindow va then .ok (((x.winData s (va + r * c.ss) c.len).drop o).take n) s else x.copyFar a n u none s
    | .bad => .err cBAD_CMD u s

/-- Write one piece of the destination. -/
def Env.copyDst (x : Env) (c : CopyCmd) (u : Nat) (p : Nat × Nat × Nat) (d : List Byte) (s : State) : EngRes Unit :=
  let (r, o, n) := p
  match c.dst with
  | .pool b => x.wr (b + r * c.ds + o) d s
  | .far va =>
    let a := va + r * c.ds + o
    if isWindow va then .ok () (s.winWrite x.cap.ctx (winOf a) 1 (winOff a) 0 d x.own)
    else (x.copyFar a n u (some d) s).bind fun _ s => .ok () s
  | .bad => .err cBAD_CMD u s

/-- First byte after a strided range, from its base. -/
def extent (len nrow stride : Nat) : Nat := (nrow - 1) * stride + len

/-- Whether two places are of one kind and overlap; the ranges are taken as wholes. -/
def placesOverlap (a b : EAddr) (n m : Nat) : Bool :=
  match a, b with
  | .pool x, .pool y => overlap x n y m
  | .far x, .far y => overlap x n y m
  | _, _ => false

/-- In an overlapping copy a destination byte that lies in the source range holds some byte of the source (R158). -/
def scramble (tick base : Nat) (c : CopyCmd) (d all : List Byte) : List Byte :=
  let inSrc := fun (a : Nat) => match c.src, c.dst with
    | .pool x, .pool _ => decide (x ≤ a) && decide (a < x + extent c.len c.nrow c.ss)
    | .far x, .far _ => decide (x ≤ a) && decide (a < x + extent c.len c.nrow c.ss)
    | _, _ => false
  d.zipIdx.map (fun (v, i) =>
    if inSrc (base + i) then all.getD (Config.copyOverlap tick (base + i) % max all.length 1) v else v)

/-- Base address of a destination piece. -/
def CopyCmd.dstBase (c : CopyCmd) (r o : Nat) : Nat :=
  (match c.dst with
    | .pool b => b
    | .far a => a
    | .bad => 0) + r * c.ds + o

/-- Move the units from u on (R130, R157, R158). -/
def copyFrom (x : Env) (u : Nat) (s : State) : EngRes (Nat × Nat) :=
  let c := x.copy
  let total := c.len * c.nrow
  let clash := c.op != 3 && placesOverlap c.src c.dst (extent c.len c.nrow c.ss) (extent c.len c.nrow c.ds)
  let all := fun (s : State) => if clash then
      engFold (List.range c.nrow) ([] : List Byte) s fun acc r s =>
        (x.copySrc c u (r, 0, c.len) s).bind fun d s => .ok (acc ++ d) s
    else .ok [] s
  (all s).bind fun src s =>
  let tick := s.tick
  let s := if clash then s.ticked else s
  (engFold ((List.range (ceilDiv total 4096 - u)).map (· + u)) () s fun _ v s =>
    engFold (unitPieces c.len c.nrow v) () s fun _ p s =>
      ((if clash then .ok ((src.drop (p.1 * c.len + p.2.1)).take p.2.2) s else x.copySrc c v p s).bind fun d s =>
        let d := if clash then scramble tick (c.dstBase p.1 p.2.1) c d src else d
        x.copyDst c v p d s).at v).bind fun _ s =>
  let remote := match c.dst with
    | .far va => isWindow va
    | _ => false
  if remote then .wait 2 s else .ok (cOK, total % 2 ^ 32) (s.dropReqs x.own)

/-- A strided window range may be used, row by row. -/
def Env.rowsOk (x : Env) (s : State) (va len nrow stride right : Nat) : Bool :=
  decide (va + extent len nrow stride ≤ 2 ^ 48) &&
    (List.range nrow).all (fun r => x.winOk s (va + r * stride) len right && winOf (va + r * stride) == winOf va)

/-- What a side of a copy fails with before anything is executed. -/
def Env.sideErr (x : Env) (s : State) (a : EAddr) (len nrow stride right : Nat) : Option Nat :=
  match a with
  | .pool o => if (List.range nrow).all (fun r => x.poolOk s (o + r * stride) len 1) then none else some cPOOL_BOUNDS
  | .far va => if isWindow va && !x.rowsOk s va len nrow stride right then some cWINDOW else none
  | .bad => some cBAD_CMD

/-- COPY, COPY2D and FILL: checks, then the units; a window source is read first (R157). -/
def runCopy (x : Env) (s : State) : EngRes (Nat × Nat) :=
  let c := x.copy
  if c.len = 0 ∨ c.nrow = 0 ∨ 65536 < c.nrow ∨ (c.op = 1 ∧ c.nrow ≠ 1) ∨ (c.op = 3 ∧ c.len % 8 ≠ 0) ∨ c.dst = .bad
      ∨ (c.op ≠ 3 ∧ c.src = .bad) then .err cBAD_CMD 0 s
  else
    let bad := firstErr [if c.op = 3 then none else x.sideErr s c.src c.len c.nrow c.ss rREAD,
      x.sideErr s c.dst c.len c.nrow c.ds rWRITE]
    match bad with
    | some e => .err e 0 s
    | none =>
      match c.op, c.src with
      | 3, _ => copyFrom x 0 s
      | _, .far va =>
        if isWindow va then
          .wait 1 ((List.range c.nrow).foldl (fun s r =>
            s.winRead x.cap.ctx (winOf (va + r * c.ss)) (winOff (va + r * c.ss)) c.len x.own) s)
        else copyFrom x 0 s
      | _, _ => copyFrom x 0 s

-- CMPR ----------------------------------------------------------------------------------------------------------------

/-- Read the input of a CMPR command. -/
def Env.cmprSrc (x : Env) (n : Nat) (s : State) : EngRes (List Byte) :=
  match eAddr (x.f 0x10 8) with
  | .pool o => x.rd o n s
  | .far va => x.farRd va n s
  | .bad => .err cBAD_CMD 0 s

/-- Write records or chunks one after the other: output beyond cap ends the command (R159); count is the bytes written, or
the chunks completed when it fails. -/
def Env.cmprOut (x : Env) (dst : EAddr) (l : List (List Byte)) (s : State) : EngRes Nat :=
  (engFold l.zipIdx 0 s fun off (r, i) s =>
    if x.f 0x24 4 < off + r.length then .err cDST_FULL i s
    else ((match dst.plus off with
      | .pool o => x.wr o r s
      | .far va => x.farWr va r s
      | .bad => .err cBAD_CMD i s).at i).bind fun _ s => .ok (off + r.length) s)

/-- The checks both opcodes share: reserved bytes, address forms, the pool ranges touched. -/
def Env.cmprErr (x : Env) (s : State) (n outLen : Nat) : Option Nat :=
  let side := fun (a : EAddr) (n : Nat) => match a with
    | .pool o => if n = 0 ∨ x.poolOk s o n 1 then none else some cPOOL_BOUNDS
    | .far _ => none
    | .bad => some cBAD_CMD
  firstErr [if x.zero 0x29 23 then none else some cBAD_CMD, side (eAddr (x.f 0x10 8)) n,
    side (eAddr (x.f 0x18 8)) (min outLen (x.f 0x24 4))]

/-- COMPRESS (R160, R161). -/
def runCompress (x : Env) (s : State) : EngRes (Nat × Nat) :=
  let n := x.f 0x20 4
  let w := x.f 0x28 1
  if n % 128 ≠ 0 ∨ (w ≠ 1 ∧ w ≠ 2 ∧ w ≠ 4) then .err cBAD_CMD 0 s
  else match x.cmprErr s n 0 with
    | some e => .err e 0 s
    | none =>
      (x.cmprSrc n s).bind fun b s =>
      let recs := (chunksOf b).map (encodeChunk w)
      match x.cmprErr s n recs.flatten.length with
      | some e => .err e 0 s
      | none => (x.cmprOut (eAddr (x.f 0x18 8)) recs s).bind fun k s => .ok (cOK, k) s

/-- `COMPRESS`. -/
def execCompress (g : Nat) (s : State) : Host.Outcome State Fault Refusal :=
  checked s (.compress g) (s.startCmd g 8 (· == 1) runCompress)

/-- DECOMPRESS: the chunks before a faulty record stay written (R162). -/
def runDecompress (x : Env) (s : State) : EngRes (Nat × Nat) :=
  let n := x.f 0x20 4
  match x.cmprErr s n 0 with
  | some e => .err e 0 s
  | none =>
    (x.cmprSrc n s).bind fun b s =>
    let (cs, ok) := decodeChunks n b
    match x.cmprErr s n cs.flatten.length with
    | some e => .err e 0 s
    | none => (x.cmprOut (eAddr (x.f 0x18 8)) cs s).bind fun k s =>
      if ok then .ok (cOK, k) s else .err cDATA cs.length s

/-- `DECOMPRESS`. -/
def execDecompress (g : Nat) (s : State) : Host.Outcome State Fault Refusal :=
  checked s (.decompress g) (s.startCmd g 8 (· == 2) runDecompress)

-- Parked copies -----------------------------------------------------------------------------------------------------

/-- A parked copy command walks again from the unit at which it parked (R293). -/
def State.unpark (s : State) (g e : Nat) : State :=
  let k := engKey g e
  match s.curEnv g e, (s.eng k).parked with
  | some x, some p =>
    let s := (s.modEng k (fun y => { y with parked := none, phase := .waiting 0 })).wr .GAL_ENG_STAT_state k 1
    x.endStep (copyFrom x p.unit s)
  | _, _ => s

-- Going on after remote answers ---------------------------------------------------------------------------------------

/-- What follows when every request of a waiting command is answered: a refused or failed one ends it with WINDOW. -/
def resumeCmd (x : Env) (step : Nat) (s : State) : EngRes (Nat × Nat) :=
  if s.reqsBad x.own then .err cWINDOW 0 (s.dropReqs x.own)
  else match x.e, x.f 0 1, step with
    | 2, 1, _ => gatherWrite x s
    | 2, 2, 1 => dispatchCounts x s
    | 2, 2, _ => dispatchEnd x s
    | 2, _, _ => combineWrite x s
    | 4, _, _ => .ok (cOK, 0) (s.dropReqs x.own)
    | _, _, 1 => copyFrom x 0 s
    | _, _, _ => .ok (cOK, x.copy.len * x.copy.nrow % 2 ^ 32) (s.dropReqs x.own)

/-- Let a waiting command go on while its requests are answered: at most three stages follow each other. -/
def State.engAdvance (s : State) (g e : Nat) : Nat → State
  | 0 => s
  | n + 1 =>
    match s.curEnv g e, (s.eng (engKey g e)).phase, (s.eng (engKey g e)).parked with
    | some x, .waiting (k + 1), none =>
      if s.heldGal g then s
      else if s.reqsDone x.own && !(s.reqsOf x.own).isEmpty then
        ((x.endStep (resumeCmd x (k + 1) s))).engAdvance g e n
      else s
    | _, _, _ => s

/-- Start a command that may use windows. -/
def State.startRemote (s : State) (g e op : Nat) (f : Env → State → EngRes (Nat × Nat)) : State :=
  (s.startCmd g e (· == op) f).engAdvance g e 3

/-- `GATHER`. -/
def execGather (g : Nat) (s : State) : Host.Outcome State Fault Refusal :=
  checked s (.gather g) (s.startRemote g 2 1 runGather)

/-- `DISPATCH`. -/
def execDispatch (g : Nat) (s : State) : Host.Outcome State Fault Refusal :=
  checked s (.dispatch g) (s.startRemote g 2 2 runDispatch)

/-- `COMBINE`. -/
def execCombine (g : Nat) (s : State) : Host.Outcome State Fault Refusal :=
  checked s (.combine g) (s.startRemote g 2 3 runCombine)

/-- Whether an engine is a copy engine. -/
def isCopy (e : Nat) : Bool := e == 6 || e == 7

/-- `COPY`: an engine that is no copy engine has no such command. -/
def execCopy (g e : Nat) (s : State) : Host.Outcome State Fault Refusal :=
  checked s (.copy g e) (if isCopy e then s.startRemote g e 1 runCopy else s)

/-- `COPY2D`. -/
def execCopy2d (g e : Nat) (s : State) : Host.Outcome State Fault Refusal :=
  checked s (.copy2d g e) (if isCopy e then s.startRemote g e 2 runCopy else s)

/-- `FILL`. -/
def execFill (g e : Nat) (s : State) : Host.Outcome State Fault Refusal :=
  checked s (.fill g e) (if isCopy e then s.startRemote g e 3 runCopy else s)

end Sys2Proof.Machine
end

