-- ==== Sys2Proof/Machine/EngMath.lean ====
section
/-! DEFINITION. The transpose/convert engine (R148, R149), the collective engine (R150 to R154) and the random engine
(R155, R156). -/

namespace Sys2Proof.Machine

-- XCV formats ---------------------------------------------------------------------------------------------------------

/-- A format of the transpose/convert engine: a floating-point or MX element, or a plain integer of w bits. -/
inductive XFmt where
  | fp (f : Fmt)
  | int (w : Nat)
  deriving DecidableEq, Repr

/-- The format codes of *XCV body*. -/
def xfmt (c : Nat) : Option XFmt :=
  if c = 0x10 then some (.fp .fp32)
  else if c = 0x11 then some (.int 32)
  else if c = 0x12 then some (.int 8)
  else (Fmt.ofCode c).map .fp

def XFmt.bits : XFmt → Nat
  | .fp f => f.bits
  | .int w => w

/-- The value of an element. -/
def XFmt.val (f : XFmt) (x : Nat) : Val :=
  match f with
  | .fp f => f.decode x
  | .int w => let i := sInt w x
    .fin (decide (i < 0)) i.natAbs 0

/-- Convert a value by *Conversion rules* (R77). -/
def XFmt.enc (f : XFmt) (md : Rnd) (sat : Bool) (v : Val) : FpRes :=
  match f with
  | .fp f => f.encode md sat v
  | .int w => encodePlain w md v

/-- The formats whose conversions always produce a block scale (R77). -/
def blockFmt (c : Nat) : Bool := decide (2 ≤ c) && decide (c ≤ 5)

/-- The element formats of MX (R58). -/
def mxFmt (c : Nat) : Bool := decide (c ≤ 5)

/-- The MX element format of a code. -/
def mxOf (c : Nat) : Fmt := (Fmt.ofCode c).getD .e4m3

/-- v × 2^k. -/
def Val.shift (v : Val) (k : Int) : Val :=
  match v with
  | .fin n m e => .fin n m (e + k)
  | v => v

/-- The block scale of R78: none when a value is not finite. -/
def mxScale (f : Fmt) (vs : List Val) : Option Nat :=
  if vs.any (fun v => v.isNan || v.isInf) then none
  else
    let top := vs.foldl (fun (a : Option Int) v => match v with
      | .fin _ m e => if m = 0 then a else some (match a with
        | none => expOf m e
        | some b => max b (expOf m e))
      | _ => a) none
    match top with
    | none => some 0x7F
    | some x => some ((min (max (x - f.emax) (-127)) 127 + 127).toNat)

/-- Quantise a block (R78), with the scale the command supplies when it does (R77): scale byte and elements. rnd gives the
rounding of element k. -/
def mxBlock (f : Fmt) (given : Option Nat) (tick : Nat) (rnd : Nat → Rnd) (vs : List Val) : Nat × List FpRes :=
  match mxScale f vs with
  | none => (0xFF, vs.map (fun _ => ⟨0, 0⟩))
  | some own =>
    let sc := given.getD own
    if sc = 255 then (sc, vs.zipIdx.map (fun (_, k) => ⟨Config.nanScaleElem tick k % 2 ^ f.bits, 0⟩))
    else if given.isNone && vs.all Val.isZero then (sc, vs.map (fun _ => ⟨0, 0⟩))
    else (sc, vs.zipIdx.map (fun (v, k) => f.encode (rnd k) true (v.shift (127 - (sc : Int)))))

-- XCV -----------------------------------------------------------------------------------------------------------------

/-- The fields of *XCV body*. -/
structure Xcv where
  op : Nat
  src : Nat
  dst : Nat
  sscale : Nat
  dscale : Nat
  rows : Nat
  cols : Nat
  fin : Nat
  fout : Nat
  cflags : Nat
  stream : Nat
  tidx : Nat
  deriving DecidableEq, Repr

def Env.xcv (x : Env) : Xcv :=
  ⟨x.f 0 1, x.f 0x10 4, x.f 0x14 4, x.f 0x18 4, x.f 0x1C 4, x.f 0x20 4, x.f 0x24 4, x.f 0x28 1, x.f 0x29 1, x.f 0x2A 1,
   x.f 0x2C 4, x.f 0x30 8⟩

/-- Width in bits of a format code. -/
def xbits (c : Nat) : Nat := ((xfmt c).getD (.int 8)).bits

/-- Row stride, and bytes from the first row to the last (R148). -/
def xStride (cols w : Nat) : Nat := ceilDiv (cols * w) 1024 * 128
def xSpan (rows cols w : Nat) : Nat := (rows - 1) * xStride cols w + ceilDiv (cols * w) 8

/-- Stride of scale rows, and their bytes. -/
def scStride (cols : Nat) : Nat := ceilDiv cols 4096 * 128
def scSpan (rows cols : Nat) : Nat := (rows - 1) * scStride cols + cols / 32

/-- Whether the input has scales, and whether the output has: DEQUANT reads them, QUANT and conversions into MX formats
write them. -/
def Xcv.inScale (c : Xcv) : Bool := c.sscale != noOffset && (c.op == 4 || (c.op == 2 && mxFmt c.fout))
def Xcv.outScale (c : Xcv) : Bool := c.op == 3 || (c.op == 2 && (blockFmt c.fout || (mxFmt c.fout && c.inScale)))

/-- Whether an MX format is involved, so that rows are whole blocks. -/
def Xcv.mx (c : Xcv) : Bool := blockFmt c.fin || blockFmt c.fout || c.op == 3 || c.op == 4 || c.inScale

/-- Whether the fields are in range for the opcode (R148, R149). -/
def Xcv.ok (c : Xcv) (x : Env) : Bool :=
  (xfmt c.fin).isSome && (xfmt c.fout).isSome && decide (1 ≤ c.rows) && decide (c.rows ≤ 4096) && decide (1 ≤ c.cols)
    && decide (c.cols ≤ 4096) && (!c.mx || c.cols % 32 == 0) && decide (c.cflags < 8) && c.cflags % 4 != 3
    && x.zero 0x2B 1 && x.zero 0x38 8
    && (match c.op with
      | 1 => [8, 16, 32].contains (xbits c.fin)
      | 3 => (c.fin == 0x10 || c.fin == 6) && mxFmt c.fout
      | 4 => mxFmt c.fin && (c.fout == 0x10 || c.fout == 6)
      | _ => true)

/-- The rounding of element (r, c) (R72, R75, R76). -/
def Xcv.rnd (c : Xcv) (seed r j : Nat) : Rnd :=
  match c.cflags % 4 with
  | 0 => .rne
  | 1 => .rtz
  | _ => .sr (srWord seed (c.tidx + r * c.cols + j) c.stream purposeCSR)

/-- The elements of a row out of its bytes. -/
def rowElems (w n : Nat) (b : List Byte) : List Nat :=
  let v := leNat b
  (List.range n).map (fun j => (v >>> (w * j)) % 2 ^ w)

/-- The bytes of a row. -/
def packRow (w : Nat) (l : List Nat) : List Byte :=
  natLe (ceilDiv (l.length * w) 8) (l.foldr (fun v acc => v % 2 ^ w + 2 ^ w * acc) 0)

/-- Set numeric flags of the task that posted a command: in GAL_NUM_FLAGS while it runs there, else in its context (R80). -/
def State.cmdFlags (s : State) (x : Env) (fl : Nat) : State :=
  if fl = 0 then s
  else if (s.gal x.g).task == some x.cap.task then s.orNumFlags x.g fl
  else s.modCtx x.cap.ctx (fun c => { c with flags := c.flags ||| fl })

/-- Elements, output scales and flags of one output row. -/
structure RowOut where
  elems : List Nat
  scales : List Nat
  flags : Nat
  deriving DecidableEq, Repr

/-- CONVERT of one row; scs are the scales supplied. -/
def convertRow (c : Xcv) (seed tick r : Nat) (xs scs : List Nat) : RowOut :=
  let fi := (xfmt c.fin).getD (.int 8)
  let fo := (xfmt c.fout).getD (.int 8)
  let vs := xs.map fi.val
  if c.outScale then
    let bl := (List.range (c.cols / 32)).map (fun b =>
      mxBlock (mxOf c.fout) (if c.inScale then some (scs.getD b 0) else none) (tick + r * 128 + b)
        (fun k => c.rnd seed r (32 * b + k)) ((vs.drop (32 * b)).take 32))
    ⟨bl.flatMap (fun e => e.2.map (·.bits)), bl.map (·.1),
      bl.foldl (fun a e => e.2.foldl (fun a q => a ||| q.flags) a) 0⟩
  else
    let rs := vs.zipIdx.map (fun (v, j) => fo.enc (c.rnd seed r j) (bit c.cflags 2) v)
    ⟨rs.map (·.bits), [], rs.foldl (fun a q => a ||| q.flags) 0⟩

/-- DEQUANT of one row: values include their scales (R60, R149). -/
def dequantRow (c : Xcv) (seed r : Nat) (xs scs : List Nat) : RowOut :=
  let fi := mxOf c.fin
  let fo := (xfmt c.fout).getD (.int 8)
  let rs := xs.zipIdx.map (fun (v, j) =>
    let sc := if c.inScale then scs.getD (j / 32) 0 else 127
    let w := if sc = 255 then Val.nan false false else (fi.decode v).shift ((sc : Int) - 127)
    fo.enc (c.rnd seed r j) (bit c.cflags 2) w)
  ⟨rs.map (·.bits), [], rs.foldl (fun a q => a ||| q.flags) 0⟩

/-- The ranges an XCV command touches. -/
def Xcv.ranges (c : Xcv) : List (Nat × Nat × Nat) :=
  let (orows, ocols) := if c.op = 1 then (c.cols, c.rows) else (c.rows, c.cols)
  [(c.src, xSpan c.rows c.cols (xbits c.fin), 128),
   (c.dst, xSpan orows ocols (xbits (if c.op = 1 then c.fin else c.fout)), 128)]
    ++ (if c.inScale then [(c.sscale, scSpan c.rows c.cols, 1)] else [])
    ++ (if c.outScale then [(c.dscale, scSpan c.rows c.cols, 1)] else [])

/-- Row r of the input. -/
def Xcv.row (c : Xcv) (x : Env) (r : Nat) (s : State) : EngRes (List Nat) :=
  let w := xbits c.fin
  (x.rd (c.src + r * xStride c.cols w) (ceilDiv (c.cols * w) 8) s).bind fun b s => .ok (rowElems w c.cols b) s

/-- TRANSPOSE: the rows are read, then the columns written. -/
def runTranspose (x : Env) (s : State) : EngRes (Nat × Nat) :=
  let c := x.xcv
  if !c.ok x then .err cBAD_CMD 0 s
  else
    (x.ranges s c.ranges).bind fun _ s =>
    (engFold (List.range c.rows) ([] : List (List Nat)) s fun acc r s =>
      (c.row x r s).bind fun e s => .ok (e :: acc) s).bind fun m s =>
    let m := m.reverse
    let w := xbits c.fin
    (engFold (List.range c.cols) () s fun _ j s =>
      (x.wr (c.dst + j * xStride c.rows w) (packRow w (m.map (fun e => e.getD j 0))) s).at
        (j * xStride c.rows w / 4096)).bind fun _ s => .ok (cOK, 0) s

/-- CONVERT, QUANT and DEQUANT, row by row. -/
def runRows (f : Xcv → Nat → Nat → Nat → List Nat → List Nat → RowOut) (x : Env) (s : State) : EngRes (Nat × Nat) :=
  let c := x.xcv
  if !c.ok x then .err cBAD_CMD 0 s
  else
    (x.ranges s c.ranges).bind fun _ s =>
    let tick := s.tick
    (engFold (List.range c.rows) () s.ticked fun _ r s =>
      ((c.row x r s).bind fun e s =>
        (if c.inScale then
          (x.rd (c.sscale + r * scStride c.cols) (c.cols / 32) s).bind fun b s => .ok (b.map (·.toNat)) s
         else EngRes.ok [] s).bind fun scs s =>
        let o := f c x.cap.seed tick r e scs
        let w := xbits c.fout
        (x.wr (c.dst + r * xStride c.cols w) (packRow w o.elems) s).bind fun _ s =>
        (if c.outScale then x.wr (c.dscale + r * scStride c.cols) (o.scales.map (BitVec.ofNat 8)) s
         else EngRes.ok () s).bind fun _ s =>
        .ok () (s.cmdFlags x (o.flags &&& fSAT))).at (r * xStride c.cols (xbits c.fin) / 4096)).bind fun _ s =>
    .ok (cOK, 0) s

/-- `TRANSPOSE`. -/
def execTranspose (g : Nat) (s : State) : Host.Outcome State Fault Refusal :=
  checked s (.transpose g) (s.startCmd g 3 (· == 1) runTranspose)

/-- `CONVERT`. -/
def execConvert (g : Nat) (s : State) : Host.Outcome State Fault Refusal :=
  checked s (.convert g) (s.startCmd g 3 (· == 2) (runRows convertRow))

/-- `QUANT`. -/
def execQuant (g : Nat) (s : State) : Host.Outcome State Fault Refusal :=
  checked s (.quant g) (s.startCmd g 3 (· == 3) (runRows convertRow))

/-- `DEQUANT`. -/
def execDequant (g : Nat) (s : State) : Host.Outcome State Fault Refusal :=
  checked s (.dequant g) (s.startCmd g 3 (· == 4) (runRows (fun c seed _ => dequantRow c seed)))

-- Exact partial blocks ------------------------------------------------------------------------------------------------

/-- An exact partial block: exponent, words per element, kind (0 floating-point, 1 INT32), and its 32 elements as special
code and integer (R150). -/
structure XBlock where
  e : Int
  int : Bool
  elems : List (Nat × Int)
  deriving DecidableEq, Repr

/-- Whether every integer fits w 32-bit words of two's complement. -/
def fitsWords (w : Nat) (is : List Int) : Bool :=
  is.all (fun i => if w = 0 then i == 0 else decide (-(2 ^ (32 * w - 1) : Nat) ≤ i) && decide (i < (2 ^ (32 * w - 1) : Nat)))

/-- The smallest width that holds every element (R151); ten words always do. -/
def XBlock.width (b : XBlock) : Nat :=
  ((List.range 11).find? (fun w => fitsWords w (b.elems.map (·.2)))).getD 10

/-- The bytes of a block. -/
def XBlock.bytes (b : XBlock) : List Byte :=
  let w := b.width
  natLe 2 (wrapInt 16 b.e) ++ natLe 1 w ++ natLe 1 (b2n b.int) ++ natLe 4 0
    ++ natLe 8 (b.elems.foldr (fun e acc => e.1 % 4 + 4 * acc) 0)
    ++ (if w = 0 then [] else b.elems.flatMap (fun e => natLe (4 * w) (wrapInt (32 * w) e.2)))

/-- Bytes a block has, from its header. -/
def xblockLen (b : List Byte) : Nat := 16 + 128 * fieldAt b 2 1

/-- Read a block; none when it is malformed. -/
def parseXBlock (b : List Byte) : Option XBlock :=
  let w := fieldAt b 2 1
  let k := fieldAt b 3 1
  if 10 < w ∨ 1 < k ∨ fieldAt b 4 4 ≠ 0 ∨ b.length < 16 + 128 * w ∨ (k = 1 ∧ fieldAt b 0 2 ≠ 0) then none
  else some ⟨sInt 16 (fieldAt b 0 2), k == 1, (List.range 32).map (fun i =>
    (fieldAt b 8 8 / 4 ^ i % 4, if w = 0 then 0 else sInt (32 * w) (fieldAt b (16 + 4 * w * i) (4 * w))))⟩

/-- The elements of a pool format: 0 FP32, 1 BF16, 2 FP16, 3 INT32 (R152). -/
def collFmt (f : Nat) : Fmt := if f = 0 then .fp32 else if f = 1 then .bf16 else .fp16
def collBytes (f : Nat) : Nat := if f = 0 ∨ f = 3 then 4 else 2

/-- Special code of a value. -/
def specOf : Val → Nat
  | .nan _ _ => 3
  | .inf n => if n then 2 else 1
  | .fin _ _ _ => 0

/-- Exponent of the unit in the last place of a finite value as stored in a format. -/
def ulpOf (f : Fmt) (m : Nat) (e : Int) : Int := max (expOf m e - (f.mant : Int)) f.qmin

/-- Encode 32 elements of a pool format (R151). -/
def encodeXBlock (f : Nat) (xs : List Nat) : XBlock :=
  if f = 3 then ⟨0, true, xs.map (fun x => (0, sInt 32 x))⟩
  else
    let vs := xs.map (collFmt f).decode
    let lo := vs.foldl (fun (a : Option Int) v => match v with
      | .fin _ m e => if m = 0 then a else some (match a with
        | none => ulpOf (collFmt f) m e
        | some b => min b (ulpOf (collFmt f) m e))
      | _ => a) none
    let e0 := lo.getD 0
    ⟨e0, false, vs.map (fun v => (specOf v, match v with
      | .fin n m e => (addDyadic n m e false 0 e0).1 / (2 ^ (e0 - min e e0).toNat : Nat)
      | _ => 0))⟩

/-- Merge special codes (R79). -/
def mergeSpec (a b : Nat) : Nat := if a = 0 then b else if b = 0 then a else if a = b then a else 3

/-- Whether a block counts for the exponent of a sum. -/
def XBlock.nonzero (b : XBlock) : Bool := b.elems.any (fun e => e.2 != 0)

/-- Add blocks exactly (R151). -/
def XBlock.merge (a b : XBlock) : XBlock :=
  let e := if !a.nonzero then b.e else if !b.nonzero then a.e else min a.e b.e
  ⟨e, a.int && b.int, List.zipWith (fun p q =>
    (mergeSpec p.1 q.1, p.2 * (2 ^ (a.e - e).toNat : Nat) + q.2 * (2 ^ (b.e - e).toNat : Nat))) a.elems b.elems⟩

/-- Element of a block rounded once to a pool format (R79). -/
def finalElem (f : Nat) (e : Int) (p : Nat × Int) : Nat :=
  if f = 3 then (satInt 32 p.2).1
  else
    let o := collFmt f
    match p.1 with
    | 0 => (o.roundInt .rne p.2 e false).bits
    | 1 => o.infBits false
    | 2 => o.infBits true
    | _ => o.canon

/-- The bytes of a finalised block. -/
def XBlock.final (b : XBlock) (f : Nat) : List Byte := b.elems.flatMap (fun p => natLe (collBytes f) (finalElem f b.e p))

/-- The 32 elements of block k of a pool region. -/
def collElems (f : Nat) (b : List Byte) : List Nat := (List.range 32).map (fun i => fieldAt b (collBytes f * i) (collBytes f))

/-- Relaxed addition of one contribution, rounded (R154). -/
def relaxedAdd (f : Nat) (a b : List Nat) : List Nat :=
  List.zipWith (fun x y => (fpAdd (collFmt f) .rne ((collFmt f).decode x) ((collFmt f).decode y)).bits) a b

/-- Whether a command with these input elements runs in relaxed mode (R154). -/
def Env.relaxedFor (x : Env) (fin : Nat) : Bool := x.cap.relaxed && decide (fin < 3)

/-- Whether a format pair can be combined: integers stay integers. -/
def collPair (fin fout : Nat) : Bool := decide (fin ≤ 4) && decide (fout ≤ 4) && ((fin == 3) == (fout == 3) || fin == 4 || fout == 4)

/-- Whether n is a number of elements COLL takes. -/
def collN (n : Nat) : Bool := n % 32 == 0 && decide (32 ≤ n) && decide (n ≤ 1048576)

/-- Bytes between the blocks of a region: exact partial blocks lie at their largest size apart (R150; the spec gives no
layout of a region of them). -/
def collStride (f : Nat) : Nat := if f = 4 then 1296 else 32 * collBytes f

/-- The bytes of a region of n elements. -/
def collRange (f off n : Nat) : List (Nat × Nat × Nat) := [(off, n / 32 * collStride f, 128)]

/-- Block k of a region in any format; a malformed partial block is malformed data. -/
def Env.anyBlock (x : Env) (f base k : Nat) (s : State) : EngRes XBlock :=
  (x.rd (base + collStride f * k) (collStride f) s).bind fun b s =>
    if f = 4 then (match parseXBlock b with
      | some v => .ok v s
      | none => .err cDATA 0 s)
    else .ok (encodeXBlock f (collElems f b)) s

/-- Write block k of a region in a format. -/
def Env.putBlock (x : Env) (f base k : Nat) (b : XBlock) (s : State) : EngRes Unit :=
  x.wr (base + collStride f * k) (if f = 4 then b.bytes else b.final f) s

/-- REDUCE (R152, R154). -/
def runReduce (x : Env) (s : State) : EngRes (Nat × Nat) :=
  let n := x.f 0x18 4
  let k := x.f 0x1C 1
  let fin := x.f 0x1D 1
  let fout := x.f 0x1E 1
  let dst := x.f 0x10 4
  if !collN n ∨ k = 0 ∨ 16 < k ∨ !collPair fin fout ∨ !x.zero 0x1F 33 then .err cBAD_CMD 0 s
  else
    (x.ranges s ((x.f 0x14 4, 4 * k, 128) :: collRange fout dst n)).bind fun _ s =>
    (x.rd (x.f 0x14 4) (4 * k) s).bind fun tb s =>
    let srcs := (List.range k).map (fun i => fieldAt tb (4 * i) 4)
    (x.ranges s (srcs.flatMap (fun o => collRange fin o n))).bind fun _ s =>
    (engFold (List.range (n / 32)) () s fun _ b s =>
      ((engFold srcs ([] : List XBlock) s fun bs p s =>
        (x.anyBlock fin p b s).bind fun v s => .ok (bs ++ [v]) s).bind fun bs s =>
      if bs.any (fun v => v.int != (bs.headD ⟨0, false, []⟩).int) || (fout != 4 && bs.any (fun v => v.int != (fout == 3))) then
        .err cDATA 0 s
      else
        let sum := if x.relaxedFor fin then
            match bs.map (fun v => v.elems.map (finalElem fin v.e)) with
            | a :: t => encodeXBlock fin (t.foldl (relaxedAdd fin) a)
            | [] => ⟨0, false, []⟩
          else match bs with
            | a :: t => t.foldl XBlock.merge a
            | [] => ⟨0, false, []⟩
        x.putBlock fout dst b sum s).at b).bind fun _ s =>
    .ok (cOK, 0) s

/-- `REDUCE`. -/
def execReduce (g : Nat) (s : State) : Host.Outcome State Fault Refusal :=
  checked s (.reduce g) (s.startCmd g 4 (· == 1) runReduce)

-- SEND and RELAY ------------------------------------------------------------------------------------------------------

/-- The data field of a block on its way: an exact partial block, or in relaxed mode the elements themselves. -/
def Env.wire (x : Env) (fin : Nat) (b : XBlock) : List Byte := if x.relaxedFor fin then b.final fin else b.bytes

/-- Whether a window takes a command's blocks (R296, R343). -/
def Env.reduceWin (x : Env) (s : State) (va n : Nat) : Bool :=
  decide (va < 2 ^ 48) && isWindow va && x.winOk s va (n / 32 * 128) rREDUCE

/-- SEND (R152). -/
def runSend (x : Env) (s : State) : EngRes (Nat × Nat) :=
  let n := x.f 0x18 4
  let fin := x.f 0x1D 1
  let va := x.f 0x28 8
  if !collN n ∨ 4 < fin ∨ !x.zero 0x14 4 ∨ !x.zero 0x1C 1 ∨ !x.zero 0x1E 2 ∨ !x.zero 0x24 4 ∨ !x.zero 0x30 16 then
    .err cBAD_CMD 0 s
  else
    (x.ranges s (collRange fin (x.f 0x10 4) n)).bind fun _ s =>
    if !x.reduceWin s va n then .err cWINDOW 0 s
    else
      (engFold (List.range (n / 32)) () s fun _ b s =>
        ((x.anyBlock fin (x.f 0x10 4) b s).bind fun v s =>
          .ok () (s.request x.cap.ctx (winOf va) 4 (winOff va + 128 * b) (x.f 0x20 4) false (x.wire fin v) x.own)).at b).bind
        fun _ s => .wait 1 s

/-- `SEND`. -/
def execSend (g : Nat) (s : State) : Host.Outcome State Fault Refusal :=
  checked s (.send g) ((s.startCmd g 4 (· == 2) runSend).engAdvance g 4 3)

/-- The RELAY command of a slot as an environment. -/
def RelaySlot.env (r : RelaySlot) (g : Nat) : Env := ⟨g, 4, r.cmd, r.cap, r.idx⟩

/-- Fields of a RELAY command. -/
def RelaySlot.tag (r : RelaySlot) : Nat := fieldAt r.cmd 0x20 4
def RelaySlot.blocks (r : RelaySlot) : Nat := fieldAt r.cmd 0x18 4 / 32
def RelaySlot.final (r : RelaySlot) : Bool := fieldAt r.cmd 0x28 8 == 0

/-- An armed slot of a gallery. -/
def State.relaySlot (s : State) (g i : Nat) : Option RelaySlot :=
  ((s.eng (engKey g 4)).relays).find? (fun r => r.slot == i)

def State.modRelay (s : State) (g i : Nat) (f : RelaySlot → RelaySlot) : State :=
  s.modEng (engKey g 4) (fun y => { y with relays := y.relays.map (fun r => if r.slot == i then f r else r) })

/-- Disarm a slot; responses to what it forwarded are dropped. -/
def State.dropRelay (s : State) (g i : Nat) : State :=
  let k := engKey g 4
  let s := s.modEng k (fun y => { y with relays := y.relays.filter (fun r => r.slot != i) })
  let s := s.wr .GAL_ENG_STAT_relays k (b2n (!(s.eng k).relays.isEmpty))
  { s with reqs := s.reqs.map (fun (q : Req) => if q.owner == .relay k i then { q with owner := .gone } else q) }

/-- End a RELAY command with a code. -/
def State.endRelay (s : State) (g i code count : Nat) : State :=
  match s.relaySlot g i with
  | none => s
  | some r => (s.dropRelay g i).completeCmd (r.env g) code 0 count

/-- The sum of block b: local block first, then the arrivals in order; none when a partial is malformed. -/
def relaySum (x : Env) (fin : Nat) (loc : XBlock) (parts : List (List Byte)) : Option XBlock :=
  if x.relaxedFor fin then
    some (encodeXBlock fin (parts.foldl (fun a p => relaxedAdd fin a (collElems fin p)) (loc.elems.map (finalElem fin loc.e))))
  else parts.foldl (fun acc p => match acc, parseXBlock p with
    | some a, some b => if a.int == b.int then some (a.merge b) else none
    | _, _ => none) (some loc)

/-- Combine block b of an armed slot when all its partials are here (R153). -/
def State.relayBlock (s : State) (g i b : Nat) : State :=
  match s.relaySlot g i with
  | none => s
  | some r =>
    let x := r.env g
    let parts := (r.arrived.filter (fun e => e.1 == b)).map (·.2)
    let nin := x.f 0x1C 1
    let fin := x.f 0x1D 1
    let fout := x.f 0x1E 1
    if r.done.contains b || decide (r.blocks ≤ b) || decide (parts.length < nin) then s
    else
      let step := (x.anyBlock fin (x.f 0x10 4) b s).bind fun v s =>
        match relaySum x fin v (parts.take nin) with
        | none => .err cDATA 0 s
        | some sum =>
          if r.final && fout != 4 && sum.int != (fout == 3) then .err cDATA 0 s
          else if r.final then x.putBlock fout (x.f 0x14 4) b sum s
          else
            let va := x.f 0x28 8
            .ok () (s.request x.cap.ctx (winOf va) 4 (winOff va + 128 * b) r.tag false (x.wire fin sum) (.relay x.k i))
      match step with
      | .ok _ s => s.modRelay g i (fun r => { r with done := r.done ++ [b], arrived := r.arrived.filter (fun e => e.1 != b) })
      | .err c _ s => s.endRelay g i c r.done.length
      | .park _ s | .gone s | .wait _ s => s.dropRelay g i

/-- A partial of block b for an armed slot arrives. -/
def State.relayArrive (s : State) (g i b : Nat) (d : List Byte) : State :=
  (s.modRelay g i (fun r => { r with arrived := r.arrived ++ [(b, d)] })).relayBlock g i b

/-- The armed slot of a partition that takes a tag: gallery and slot (R343). -/
def State.tagSlot (s : State) (p tag : Nat) : Option (Nat × Nat) :=
  (List.range 32).findSome? (fun g => ((s.eng (engKey g 4)).relays.find? (fun r =>
    r.tag == tag && (s.ctx r.cap.ctx).prt == p)).map (fun r => (g, r.slot)))

/-- Combine what was held for a tag. -/
def State.takeHeld (s : State) (g i p tag : Nat) : State :=
  let hs := s.heldReduce.filter (fun h => h.prt == p && h.tag == tag)
  let s := { s with heldReduce := s.heldReduce.filter (fun h => !(h.prt == p && h.tag == tag)) }
  hs.foldl (fun s h => s.relayArrive g i (h.offset / 128) h.data) s

/-- RELAY: checks; the slot is armed and the ring goes on (R153, R343). -/
def runRelay (x : Env) (s : State) : EngRes (Nat × Nat) :=
  let n := x.f 0x18 4
  let nin := x.f 0x1C 1
  let fin := x.f 0x1D 1
  let fout := x.f 0x1E 1
  let i := x.f 0x1F 1
  let tag := x.f 0x20 4
  let va := x.f 0x28 8
  let p := (s.ctx x.cap.ctx).prt
  if !collN n ∨ nin = 0 ∨ 15 < nin ∨ !collPair fin fout ∨ 15 < i ∨ !x.zero 0x24 4 ∨ !x.zero 0x30 16
      ∨ (s.relaySlot x.g i).isSome ∨ (s.tagSlot p tag).isSome then .err cBAD_CMD 0 s
  else
    (x.ranges s (collRange fin (x.f 0x10 4) n ++ (if va = 0 then collRange fout (x.f 0x14 4) n else []))).bind fun _ s =>
    if va ≠ 0 ∧ !x.reduceWin s va n then .err cWINDOW 0 s
    else
      let s := s.modEng x.k (fun y => { y with relays := y.relays ++ [⟨i, x.b, x.cap, x.idx, [], []⟩], cur := none,
                                               phase := .idle, parked := none })
      let s := (s.wr .GAL_ENG_STAT_relays x.k 1).wr .GAL_ENG_STAT_state x.k 0
      .gone ((s.takeHeld x.g i p tag).modSub x.cap.task (fun u => { u with posted := u.posted + 1 }))

/-- `RELAY`. -/
def execRelay (g : Nat) (s : State) : Host.Outcome State Fault Refusal :=
  checked s (.relay g) (s.startCmd g 4 (· == 3) runRelay)

/-- Whether a slot has forwarded and been acknowledged, or written, every block. -/
def State.relayDone (s : State) (g : Nat) (r : RelaySlot) : Bool :=
  r.done.length == r.blocks && s.reqsDone (.relay (engKey g 4) r.slot)

/-- Complete the slots that are through; a refused or failed block ends its command with WINDOW (R337, R341). -/
def State.finishRelays (s : State) (g : Nat) : State :=
  (s.eng (engKey g 4)).relays.foldl (fun s r =>
    let o := ReqOwner.relay (engKey g 4) r.slot
    if s.reqsBad o then (s.dropReqs o).endRelay g r.slot cWINDOW r.done.length
    else match s.relaySlot g r.slot with
      | some r => if s.relayDone g r then (s.dropReqs o).endRelay g r.slot cOK 0 else s
      | none => s) s

/-- `RELAY_TIMEOUT`: a block stayed incomplete beyond the wait bound (R153). -/
def execRelayTimeout (g slot : Nat) (s : State) : Host.Outcome State Fault Refusal :=
  checked s (.relayTimeout g slot) (match s.relaySlot g slot with
    | some r => if s.relayDone g r then s else s.endRelay g slot cTIMEOUT r.done.length
    | none => s)

-- RAND ----------------------------------------------------------------------------------------------------------------

/-- The word of tensor index t (R156). -/
def randWord (seed t stream purpose : Nat) : Nat :=
  let (a, b, c, d) := drawWords seed (t % 2 ^ 64 / 4) stream purpose
  match t % 4 with
  | 0 => a
  | 1 => b
  | 2 => c
  | _ => d

/-- The fields of *RAND body*. -/
structure RandC where
  dst : Nat
  src : Nat
  mask : Nat
  n : Nat
  tidx : Nat
  stream : Nat
  keep : Nat
  scale : Nat
  fmt : Nat
  deriving DecidableEq, Repr

def Env.rand (x : Env) : RandC :=
  ⟨x.f 0x10 4, x.f 0x14 4, x.f 0x18 4, x.f 0x1C 4, x.f 0x20 8, x.f 0x28 4, x.f 0x2C 4, x.f 0x30 4, x.f 0x34 1⟩

def RandC.ok (c : RandC) (x : Env) : Bool :=
  decide (1 ≤ c.n) && decide (c.n ≤ 16777216) && decide (c.fmt < 2) && x.zero 0x35 11

/-- Element bytes of RAND. -/
def RandC.eb (c : RandC) : Nat := if c.fmt = 0 then 4 else 2

/-- Write n elements of eb bytes from an offset, 4 KiB of output at a time. -/
def Env.randOut (x : Env) (dst n eb : Nat) (f : Nat → Nat) (s : State) : EngRes (Nat × Nat) :=
  let per := 4096 / eb
  (engFold (List.range (ceilDiv n per)) () s fun _ u s =>
    (x.wr (dst + 4096 * u) ((List.range (min per (n - per * u))).flatMap (fun j => natLe eb (f (per * u + j)))) s).at u).bind
    fun _ s => .ok (cOK, 0) s

/-- WORDS. -/
def runWords (x : Env) (s : State) : EngRes (Nat × Nat) :=
  let c := x.rand
  if !c.ok x then .err cBAD_CMD 0 s
  else (x.ranges s [(c.dst, 4 * c.n, 128)]).bind fun _ s =>
    x.randOut c.dst c.n 4 (fun i => randWord x.cap.seed (c.tidx + i) c.stream purposeRNG) s

/-- `WORDS`. -/
def execWords (g : Nat) (s : State) : Host.Outcome State Fault Refusal :=
  checked s (.words g) (s.startCmd g 5 (· == 1) runWords)

/-- A word as a fraction of one, exact (R156). -/
def uniformBits (fmt w : Nat) : Nat :=
  if fmt = 0 then roundVal .fp32 (.fin false (w / 2 ^ 8) (-24)) else roundVal .bf16 (.fin false (w / 2 ^ 24) (-8))

/-- UNIFORM. -/
def runUniform (x : Env) (s : State) : EngRes (Nat × Nat) :=
  let c := x.rand
  if !c.ok x then .err cBAD_CMD 0 s
  else (x.ranges s [(c.dst, c.eb * c.n, 128)]).bind fun _ s =>
    x.randOut c.dst c.n c.eb (fun i => uniformBits c.fmt (randWord x.cap.seed (c.tidx + i) c.stream purposeRNG)) s

/-- `UNIFORM`. -/
def execUniform (g : Nat) (s : State) : Host.Outcome State Fault Refusal :=
  checked s (.uniform g) (s.startCmd g 5 (· == 2) runUniform)

/-- Whether element i is kept. -/
def RandC.kept (c : RandC) (seed i : Nat) : Bool := decide (randWord seed (c.tidx + i) c.stream purposeDROP < c.keep)

/-- Write the mask: bits of elements only; the bits beyond the last element keep their value. -/
def Env.maskOut (x : Env) (c : RandC) (s : State) : EngRes Unit :=
  engFold (List.range (ceilDiv c.n 32768)) () s fun _ u s =>
    let lo := 32768 * u
    let n := min 32768 (c.n - lo)
    let full := (List.range (n / 8)).map (fun j => BitVec.ofNat 8 ((List.range 8).foldl (fun a k =>
      a + (if c.kept x.cap.seed (lo + 8 * j + k) then 2 ^ k else 0)) 0))
    ((x.wr (c.mask + 4096 * u) full s).bind fun _ s =>
      if n % 8 = 0 then .ok () s
      else
        let o := c.mask + 4096 * u + n / 8
        (x.rd o 1 s).bind fun b s =>
        let v := (List.range (n % 8)).foldl (fun a k => a + (if c.kept x.cap.seed (lo + n / 8 * 8 + k) then 2 ^ k else 0)) 0
        x.wr o [BitVec.ofNat 8 (leNat b / 2 ^ (n % 8) * 2 ^ (n % 8) + v)] s).at u

/-- DROP_MASK. -/
def runDropMask (x : Env) (s : State) : EngRes (Nat × Nat) :=
  let c := x.rand
  if !c.ok x ∨ c.mask = noOffset then .err cBAD_CMD 0 s
  else (x.ranges s [(c.mask, ceilDiv c.n 8, 128)]).bind fun _ s =>
    (x.maskOut c s).bind fun _ s => .ok (cOK, 0) s

/-- `DROP_MASK`. -/
def execDropMask (g : Nat) (s : State) : Host.Outcome State Fault Refusal :=
  checked s (.dropMask g) (s.startCmd g 5 (· == 3) runDropMask)

/-- DROP_APPLY. -/
def runDropApply (x : Env) (s : State) : EngRes (Nat × Nat) :=
  let c := x.rand
  let eb := c.eb
  let f : Fmt := if c.fmt = 0 then .fp32 else .bf16
  if !c.ok x then .err cBAD_CMD 0 s
  else
    (x.ranges s ([(c.src, eb * c.n, 128), (c.dst, eb * c.n, 128)]
      ++ (if c.mask = noOffset then [] else [(c.mask, ceilDiv c.n 8, 128)]))).bind fun _ s =>
    let per := 4096 / eb
    (engFold (List.range (ceilDiv c.n per)) () s fun _ u s =>
      ((x.rd (c.src + 4096 * u) (eb * min per (c.n - per * u)) s).bind fun b s =>
        x.wr (c.dst + 4096 * u) ((List.range (min per (c.n - per * u))).flatMap (fun j =>
          natLe eb (if c.kept x.cap.seed (per * u + j) then
            (fpMul f .rne (f.decode (fieldAt b (eb * j) eb)) (Fmt.fp32.decode c.scale)).bits else 0))) s).at u).bind fun _ s =>
    (if c.mask = noOffset then EngRes.ok () s else x.maskOut c s).bind fun _ s => .ok (cOK, 0) s

/-- `DROP_APPLY`. -/
def execDropApply (g : Nat) (s : State) : Host.Outcome State Fault Refusal :=
  checked s (.dropApply g) (s.startCmd g 5 (· == 4) runDropApply)

end Sys2Proof.Machine
end

