-- ==== Sys2Proof/Machine/LinkTxn.lean ====
section
/-! DEFINITION. Huaton sessions and transactions: greetings, acknowledgement, deduplication, the transactions as target and
their responses as initiator, the port command window (R333 to R346). -/

namespace Sys2Proof.Machine

/-- Transaction codes and response statuses (R341). -/
def stOK : Nat := 0
def stWINDOW : Nat := 1
def stMOVED : Nat := 2
def stPOISON : Nat := 3
def stFENCE : Nat := 4
def stBAD : Nat := 5

/-- a before b in 32-bit serial-number arithmetic. -/
def lt32 (a b : Nat) : Bool :=
  let d := (b + 2 ^ 32 - a % 2 ^ 32) % 2 ^ 32
  decide (0 < d) && decide (d < 2 ^ 31)

-- Ends of requests ----------------------------------------------------------------------------------------------------

/-- The host error code of a remote atomic that did not succeed. -/
def State.linkErr (s : State) : Nat := Config.linkErr s.tick

/-- HTN_ATOMIC of a port ends: err, the old value, busy clears. -/
def State.atomicDone (s : State) (n err v : Nat) : State :=
  let s := (s.dropReqs (.window n)).wr .HTN_CMD_err n err
  ((s.wr .HTN_RES_res (2 * n) v).wr .HTN_RES_res (2 * n + 1) 0).wr .HTN_CMD_busy n 0

/-- An answered or failed request whose owner waits for nothing more is forgotten; a port's command ends with it. -/
def State.settle (s : State) (o : ReqOwner) : State :=
  match o with
  | .fence | .gone => { s with reqs := s.reqs.filter (fun r => !(r.owner == o && r.st != 0)) }
  | .window n =>
    if !s.reqsDone o || (s.reqsOf o).isEmpty then s
    else if s.reqsBad o then s.ticked.atomicDone n s.linkErr 0
    else s.atomicDone n eOK (leNat ((s.reqsData o).take 8))
  | _ => s

/-- Record the first failed request of a port (R337, R350). -/
def State.tpFail (s : State) (n i rid cause : Nat) : State :=
  if s.flag .HTN_TP_FAIL_valid n then s
  else (((s.wr .HTN_TP_FAIL_rid n rid).wr .HTN_TP_FAIL_sess n i).wr .HTN_TP_FAIL_cause n cause).wr .HTN_TP_FAIL_valid n 1

/-- The request of a session with an ID that still waits for its response. -/
def State.openReq (s : State) (i rid : Nat) : Option Req :=
  s.reqs.find? (fun r => r.sess == i && r.rid == rid && r.st == 0)

/-- Change a request. -/
def State.modReq (s : State) (i rid : Nat) (f : Req → Req) : State :=
  { s with reqs := s.reqs.map (fun r => if r.sess == i && r.rid == rid && r.st == 0 then f r else r) }

/-- A request fails (R337): 0 reissues exhausted, 2 session closed. -/
def State.failReq (s : State) (i : Nat) (r : Req) (cause : Nat) : State :=
  let s := s.tpFail (s.homePort (s.sess i)) i r.rid cause
  (s.modReq i r.rid (fun r => { r with st := 2 })).settle r.owner

-- Sessions ------------------------------------------------------------------------------------------------------------

/-- A session closes: its requests fail, its keys are destroyed (R334, R429). -/
def State.closeSess (s : State) (i : Nat) : State :=
  let x := s.sess i
  if x.st = 0 then s
  else
    let s := s.each (s.reqs.filter (fun r => r.sess == i && r.st == 0)) (fun s r => s.failReq i r 2)
    let s := s.each ([x.txSlot, x.rxSlot, x.oldTx, x.oldRx].filter (· != 0)) State.retireKey
    let s := s.setSess i Sess.free
    s.each ((List.range 32).filter (fun n => x.ports.testBit n)) State.showPort

/-- A port leaves a session; the last one closes it (R334). -/
def State.leaveSess (s : State) (i n : Nat) : State :=
  let x := s.sess i
  if !x.ports.testBit n then s
  else
    let rest := x.ports - 2 ^ n
    if rest = 0 then s.closeSess i
    else
      let s := s.setSess i { x with ports := rest }
      ((x.unacked.filter (fun p => p.port == n)).foldl (fun s p => s.resend i p.psn) s).showPort n

/-- Take two link key slots: none when fewer than two are free (R428). -/
def State.twoKeys (s : State) (i : Nat) : Option (Nat × Nat × State) :=
  if s.freeSlots .link < 2 then none
  else match s.takeKey .link i with
    | none => none
    | some (a, s) => (s.takeKey .link i).map (fun (b, s) => (a, b, s))

/-- Count a wait for key slots (R428). -/
def State.keyWait (s : State) : State := s.countSat .SEC_SLOT_USE_waits 0 1

/-- Ports join a session that is open. -/
def State.joinPorts (s : State) (i ports : Nat) : State :=
  let s := s.modSess i (fun x => { x with ports := x.ports ||| ports, confirmed := 0 })
  (s.each ((List.range 32).filter (fun n => ports.testBit n)) State.showPort).issueReqs

/-- The exchange has succeeded on some ports: the session opens when two key slots are free (R333, R428). -/
def State.openSess (s : State) (i ports : Nat) : State :=
  match s.twoKeys i with
  | none => s.keyWait.modSess i (fun x => { x with confirmed := x.confirmed ||| ports })
  | some (a, b, s) => (s.modSess i (fun x => { x with st := 2, txSlot := a, rxSlot := b })).joinPorts i ports

/-- New keys replace the old ones, which the receiver accepts for the key overlap (R346). -/
def State.flipKeys (s : State) (i : Nat) : State :=
  match s.twoKeys i with
  | none => s.keyWait.modSess i (fun x => { x with rekey := false, rekeyWait := true })
  | some (a, b, s) =>
    let x := s.sess i
    let s := s.each ([x.oldTx, x.oldRx].filter (· != 0)) State.retireKey
    s.setSess i { x with rekey := false, rekeyWait := false, phase := 1 - x.phase, oldPhase := true, oldTx := x.txSlot,
                         oldRx := x.rxSlot, txSlot := a, rxSlot := b, txCount := 0, rxCount := 0 }

/-- Start a rekey by a fresh greeting exchange, or defer it while fewer than two link slots are free (R346, R428). -/
def State.startRekey (s : State) (i : Nat) : State :=
  if s.freeSlots .link < 2 then s.keyWait.modSess i (fun x => { x with rekeyWait := true })
  else (s.modSess i (fun x => { x with rekey := true, rekeyWait := false })).sendOffer (s.homePort (s.sess i)) i

/-- Sessions that wait for key slots go on, lowest index first (R428). -/
def State.serveWaits (s : State) : State :=
  s.each (s.sesss.map (·.1)) (fun s i =>
    let x := s.sess i
    if s.freeSlots .link < 2 then s
    else if x.st == 1 && x.confirmed != 0 then s.openSess i x.confirmed
    else if x.rekeyWait then s.startRekey i
    else s)

-- Greetings arrive ----------------------------------------------------------------------------------------------------

/-- Whether a port's partition has a route to the greeting's sender over the port (R333). -/
def State.greetOk (s : State) (n : Nat) (g : Greeting) : Bool :=
  s.linkUp n && g.verMaj == 1 && s.prtOf n == some g.dstPrt
    && (s.part g.dstPrt).peers.any (fun q => q.id == g.digest8 && q.prt == g.srcPrt && q.ports.testBit n)

/-- `GREETING_OFFER`: phase 0 (R333). An offer on a port of an open session starts a rekey. -/
def execGreetingOffer (n : Nat) (gr : Greeting) (s : State) : Host.Outcome State Fault Refusal :=
  gate s (decide (n < 32))
    (if !s.greetOk n gr then s
     else match s.sessFor gr.dstPrt gr.digest8 gr.srcPrt with
      | (none, s) => s
      | (some i, s) =>
        let x := s.sess i
        let again := x.st == 2 && x.ports.testBit n && !x.rekey
        let low := decide (beNat (s.idDigest.take 8) < beNat (natLe 8 gr.digest8))
        let s := s.setSess i { x with
          offered := x.offered ||| 2 ^ n, peerPub := gr.pub, peerNonce := gr.nonce, lower := low, dsess := gr.dsess,
          gen := gr.gen, maxdata := min gr.maxdata (s.portMax n), caps := gr.caps, eth := gr.eth }
        (if again then s.startRekey i else s).sendConfirm n i)

/-- `GREETING_CONFIRM`: phase 1; a signature that fails refuses the session on the port (R333). -/
def execGreetingConfirm (n : Nat) (gr : Greeting) (s : State) : Host.Outcome State Fault Refusal :=
  gate s (decide (n < 32))
    (if !(s.greetOk n gr && gr.sigOk) then s
     else match s.sesss.find? (fun e => e.2.st != 0 && e.2.prt == gr.dstPrt && e.2.peer == gr.digest8 && e.2.peerPrt == gr.srcPrt) with
      | none => s
      | some (i, x) =>
        if !x.offered.testBit n then s
        else
          let s := s.modSess i (fun y => { y with offered := if y.offered.testBit n then y.offered - 2 ^ n else y.offered })
          if x.st = 1 then s.openSess i (2 ^ n)
          else if x.rekey then s.flipKeys i
          else s.joinPorts i (2 ^ n))

/-- `GREETING_LEAVE`: phase 2 arrives on the port that the peer withdraws (R334). -/
def execGreetingLeave (n ses ports : Nat) (s : State) : Host.Outcome State Fault Refusal :=
  gate s (decide (n < 32)) (if ports ≠ 0 ∧ (s.sess ses).st = 2 then s.leaveSess ses n else s)

/-- `GREETING_UPDATE`: phase 3 (R334, R340). -/
def execGreetingUpdate (n ses gen : Nat) (s : State) : Host.Outcome State Fault Refusal :=
  gate s (decide (n < 32))
    (if (s.sess ses).st = 2 ∧ (s.sess ses).ports.testBit n then s.modSess ses (fun x => { x with gen := gen }) else s)

/-- `GREETING_STEP`: a step took longer than 10 ms, so the exchange restarts; the limit does not run while it waits for key
slots (R333, R428). -/
def execGreetingStep (n ses : Nat) (s : State) : Host.Outcome State Fault Refusal :=
  gate s (decide (n < 32))
    (let x := s.sess ses
     if s.linkUp n && ((x.st == 1 && x.confirmed == 0) || (x.st == 2 && (x.rekey || !x.ports.testBit n))) then s.sendOffer n ses
     else s)

/-- `PACKET_COUNT_REKEY` after 2^32 packets in a direction (R346). -/
def execPacketCountRekey (ses : Nat) (s : State) : Host.Outcome State Fault Refusal :=
  gate s true
    (let x := s.sess ses
     if x.st = 2 ∧ !x.rekey ∧ !x.rekeyWait ∧ (2 ^ 32 ≤ x.txCount ∨ 2 ^ 32 ≤ x.rxCount) then s.startRekey ses else s)

/-- `KEY_OVERLAP`: the old key phase is no longer accepted and its slots retire (R346, R429). -/
def execKeyOverlap (ses : Nat) (s : State) : Host.Outcome State Fault Refusal :=
  gate s true
    (let x := s.sess ses
     if x.oldPhase then
       (s.setSess ses { x with oldPhase := false, oldTx := 0, oldRx := 0 }).each ([x.oldTx, x.oldRx].filter (· != 0)) State.retireKey
     else s)

-- Acknowledgement -----------------------------------------------------------------------------------------------------

/-- `ACK`: cumulative and selective (R335, R336). -/
def execAck (ses apsn bitmap : Nat) (s : State) : Host.Outcome State Fault Refusal :=
  gate s true
    (s.modSess ses (fun x => { x with unacked := x.unacked.filter (fun p =>
      !(lt32 p.psn apsn) && !((List.range 64).any (fun k => bitmap.testBit k && p.psn == (apsn + 1 + k) % 2 ^ 32))) }))

/-- `NAK`: the packets it names are sent again (R336). -/
def execNak (ses first count : Nat) (s : State) : Host.Outcome State Fault Refusal :=
  gate s true
    (let l := ((s.sess ses).unacked.map (fun p => p.psn)).filter (fun q => decide ((q + 2 ^ 32 - first % 2 ^ 32) % 2 ^ 32 < count))
     s.each l (fun s q => s.resend ses q))

/-- `ACK_COALESCING`: the receiver acknowledges (R337). -/
def execAckCoalescing (ses : Nat) (s : State) : Host.Outcome State Fault Refusal :=
  gate s true
    (let x := s.sess ses
     let n := s.homePort x
     let map := (List.range 64).foldl (fun a k => if x.rxSet.contains ((x.rxNext + 1 + k) % 2 ^ 32) then a + 2 ^ k else a) 0
     if x.st = 2 then s.onPort n 3 (flitsOf 0) (.link n .ack [x.dsess, x.rxNext, map] []) else s)

/-- `NAK_DELAY`: a gap has lasted (R336). -/
def execNakDelay (ses : Nat) (s : State) : Host.Outcome State Fault Refusal :=
  gate s true
    (let x := s.sess ses
     let n := s.homePort x
     let gap := x.rxSet.foldl (fun a q => min a ((q + 2 ^ 32 - x.rxNext) % 2 ^ 32)) 65536
     if x.st = 2 ∧ x.rxSet ≠ [] then s.onPort n 3 (flitsOf 0) (.link n .nak [x.dsess, x.rxNext, gap] []) else s)

/-- `RETRANSMISSION_TIME` (R336). -/
def execRetransmissionTime (ses psn : Nat) (s : State) : Host.Outcome State Fault Refusal := gate s true (s.resend ses psn)

/-- Send a request again as a new packet with the same rid. -/
def State.reissue (s : State) (i : Nat) (r : Req) : State := s.sendData i (kindOf r.op) (r.vals (s.sess i).gen) r.data

/-- `REQUEST_TIME`: reissued, or failed once the reissues are used up (R337). -/
def execRequestTime (ses rid : Nat) (s : State) : Host.Outcome State Fault Refusal :=
  gate s true
    (match s.openReq ses rid with
      | none => s
      | some r =>
        let n := s.homePort (s.sess ses)
        let s := s.count .HTN_TP_TIMEOUT_count .HTN_TP_TIMEOUT_ovf n 1
        if r.reissues < s.rd .HTN_TMR_reissues n then
          (s.modReq ses rid (fun r => { r with reissues := r.reissues + 1 })).reissue ses r
        else (s.failReq ses r 0).issueReqs)

-- Arrivals ------------------------------------------------------------------------------------------------------------

/-- Move the next expected PSN past what has arrived. -/
def Sess.settlePsn (x : Sess) : Nat → Sess
  | 0 => x
  | k + 1 =>
    if x.rxSet.contains x.rxNext then
      ({ x with rxNext := (x.rxNext + 1) % 2 ^ 32, rxSet := x.rxSet.filter (· != x.rxNext) }).settlePsn k
    else x

/-- Take a packet of a session by its PSN: false for one that has arrived before (R336). -/
def State.takePsn (s : State) (n i psn : Nat) : Bool × State :=
  let x := s.sess i
  if lt32 psn x.rxNext || x.rxSet.contains psn then (false, s.count .HTN_TP_DUP_count .HTN_TP_DUP_ovf n 1)
  else (true, s.setSess i ({ x with rxSet := x.rxSet ++ [psn], rxCount := x.rxCount + 1 }.settlePsn (x.rxSet.length + 1)))

/-- Answer a transaction (R341); without an open session the answer goes out on the port of arrival. -/
def State.respond (s : State) (n i op : Nat) (t : Txn) (status arg : Nat) (data : List Byte) : State :=
  let v := [op, 1, t.gen16, t.rid, t.widx, t.wgen, status, data.length, t.sctx, t.sepoch, arg]
  if (s.sess i).st = 2 then s.sendData i .response v data
  else s.onPort n 1 (flitsOf data.length) (.link n .response ([(s.sess i).dsess, 0, 0, 0] ++ v) data)

/-- NAK-MOVED carries the current generation (R245, R340). -/
def State.moved (s : State) (n i op : Nat) (t : Txn) : State :=
  (s.count .HTN_TP_MOVED_count .HTN_TP_MOVED_ovf n 1).respond n i op t stMOVED (s.rd .SVY_GEN_gen 0) []

/-- Whether a request's generation is served: the current one, or the previous one while the dual-map window is open (R340,
R244). -/
def State.genOk (s : State) (g : Nat) : Bool :=
  g == s.rd .SVY_GEN_gen 0 % 65536 || (s.svy.old.isSome && g == s.svy.oldGen % 65536)

/-- What the home port knows of a rid (R338): new, a duplicate with the stored old value, or stale. -/
inductive RidState where
  | fresh | stale
  | dup (old : Option Nat)
  deriving DecidableEq, Repr

def Sess.ridState (x : Sess) (rid : Nat) : RidState :=
  match x.marks.find? (fun m => m.1 == rid), x.high with
  | some m, _ => .dup m.2
  | none, some h => if 4096 ≤ (h + 2 ^ 32 - rid % 2 ^ 32) % 2 ^ 32 ∧ lt32 rid h then .stale else .fresh
  | none, none => .fresh

/-- Keep the marks of the 4,096 rids up to the highest. -/
def keepMarks (h : Nat) (l : List (Nat × Option Nat)) : List (Nat × Option Nat) :=
  l.filter (fun m => decide ((h + 2 ^ 32 - m.1 % 2 ^ 32) % 2 ^ 32 ≤ 4096))

/-- Mark a rid as applied; ATOMIC and REDUCE are marked at the mirror partner too (R338, R339). -/
def State.markRid (s : State) (i rid op : Nat) (old : Option Nat) : State :=
  let x := s.sess i
  let h := match x.high with
    | some h => if lt32 h rid then rid else h
    | none => rid
  let mirrored := (op == 3 || op == 4) && decide (1 < (s.part x.prt).octets.length)
  s.setSess i { x with high := some h, marks := keepMarks h (x.marks ++ [(rid, old)]),
                       mirror := keepMarks h (if mirrored then x.mirror ++ [(rid, old)] else x.mirror) }

/-- What a transaction comes to at the target. -/
structure TxnEnd where
  status : Nat
  arg : Nat
  data : List Byte
  old : Option Nat
  s : State

/-- Refused under R297: counted and recorded in XLT_WIN_FAULT of the receiving partition. -/
def State.winRefuse (s : State) (n i idx : Nat) : TxnEnd :=
  let p := (s.sess i).prt
  let s := s.count .HTN_WIN_REFUSED_count .HTN_WIN_REFUSED_ovf n 1
  let s := if s.flag .XLT_WIN_FAULT_valid p then s
    else ((s.wr .XLT_WIN_FAULT_addr p (idx % 4096)).wr .XLT_WIN_FAULT_ctx p (s.win (idx % 4096)).ctx).wr .XLT_WIN_FAULT_valid p 1
  ⟨stWINDOW, 0, [], none, s⟩

/-- The export of an arrival, when the source and the right check (R297). -/
def State.exportFor (s : State) (i : Nat) (t : Txn) (right : Nat) : Option Win :=
  let x := s.sess i
  let w := s.win (t.widx % 4096)
  if t.widx < 4096 && w.kind == 1 && w.gen == t.wgen && w.peer == x.peer && w.peerPrt == x.peerPrt
      && (s.ctx w.ctx).prt == x.prt && bit w.rights right then some w else none

/-- The virtual address of an arrival, when it lies in the window and its pages may be reached through the tables (R297). -/
def State.arrivalVa (s : State) (w : Win) (off len : Nat) (wr : Bool) : Option Nat :=
  let va := w.base + off
  if off + len ≤ w.size && decide (va + len ≤ 0xE00000000000) && s.farOk w.ctx va len wr then some va else none

/-- The end of a memory access for a transaction. -/
def farEnd (n i idx : Nat) (r : FarRes × State) (k : List Byte → State → TxnEnd) : TxnEnd :=
  match r with
  | (.ok b, s) => k b s
  | (.xlate _, s) => s.winRefuse n i idx
  | (.owner, s) => s.winRefuse n i idx
  | (.poison _, s) => ⟨stPOISON, 0, [], none, s⟩
  | (.poolUE _ _, s) => ⟨stPOISON, 0, [], none, s⟩

/-- A request arrives on a port for a session (R336, R338, R340, R341): PSN, generation, reserved fields, rid, then its effect;
a duplicate is answered from the mark, a READ served again. -/
def State.arrive (s : State) (n i op : Nat) (t : Txn) (fieldsOk : Bool) (eff : State → TxnEnd) : State :=
  let s := s.deliverPacket n
  let x := s.sess i
  if t.resp then s
  else if x.st ≠ 2 then s.moved n i op t
  else match s.takePsn n i t.psn with
    | (false, s) => s
    | (true, s) =>
      if s.prtOf n ≠ some x.prt ∨ !s.genOk t.gen16 then s.moved n i op t
      else if t.rsv ≠ 0 ∨ !fieldsOk ∨ (s.sess i).maxdata < t.data.length then s.respond n i op t stBAD 0 []
      else
        let h := s.homePort (s.sess i)
        let serve := fun (s : State) =>
          let e := eff s
          let s := if e.status = stOK then e.s.markRid i t.rid op e.old else e.s
          s.respond n i op t e.status e.arg e.data
        match (s.sess i).ridState t.rid with
        | .stale => s.count .HTN_TP_STALE_count .HTN_TP_STALE_ovf h 1
        | .dup old =>
          let s := s.count .HTN_TP_DUP_count .HTN_TP_DUP_ovf h 1
          if op = 2 then serve s else s.respond n i op t stOK 0 (match old with
            | some v => natLe 8 v
            | none => [])
        | .fresh => serve s

/-- The write of a WRITE or MESSAGE. -/
def State.txnWrite (s : State) (n i : Nat) (t : Txn) (right : Nat) (k : Win → State → State) : TxnEnd :=
  match s.exportFor i t right with
  | none => s.winRefuse n i t.widx
  | some w => match s.arrivalVa w t.offset t.data.length true with
    | none => s.winRefuse n i t.widx
    | some va => farEnd n i t.widx (s.farWrite n w.ctx va t.data) (fun _ s => ⟨stOK, 0, [], none, k w s⟩)

/-- `WRITE`. -/
def execWrite (n ses : Nat) (t : Txn) (s : State) : Host.Outcome State Fault Refusal :=
  gate s (decide (n < 32)) (s.arrive n ses 1 t (t.arg == 0) (fun s => s.txnWrite n ses t rWRITE (fun _ s => s)))

/-- `READ`. -/
def execRead (n ses : Nat) (t : Txn) (s : State) : Host.Outcome State Fault Refusal :=
  gate s (decide (n < 32))
    (let len := t.arg % 2 ^ 32
     s.arrive n ses 2 t (decide (1 ≤ len) && decide (len ≤ (s.sess ses).maxdata)) (fun s =>
      match s.exportFor ses t rREAD with
      | none => s.winRefuse n ses t.widx
      | some w => match s.arrivalVa w t.offset len false with
        | none => s.winRefuse n ses t.widx
        | some va => farEnd n ses t.widx (s.farRead n w.ctx va len) (fun b s => ⟨stOK, 0, b, none, s⟩)))

/-- The operations of ATOMIC (*Transactions*). -/
def txnAtomicOp : Nat → AtomicOp
  | 0 => .add32
  | 1 => .add64
  | 2 => .swp32
  | _ => .swp64

/-- `ATOMIC`: at the memory controller, aligned to the operand (R341). -/
def execAtomic (n ses : Nat) (t : Txn) (s : State) : Host.Outcome State Fault Refusal :=
  gate s (decide (n < 32))
    (let op := txnAtomicOp (t.arg % 256)
     let sz := atomicSize op
     s.arrive n ses 3 t (decide (t.arg % 256 < 4) && t.data.length == 8 && t.offset % sz == 0) (fun s =>
      match s.exportFor ses t rATOMIC with
      | none => s.winRefuse n ses t.widx
      | some w => match s.arrivalVa w t.offset sz true with
        | none => s.winRefuse n ses t.widx
        | some va => match (s.walk w.ctx va).compute true with
          | .dev ppa => (match s.memAtomic (s.ctx w.ctx).prt ppa w.ctx op (leNat t.data) with
            | (.ok b, s) => ⟨stOK, 0, natLe 8 (leNat b), some (leNat b), s⟩
            | (.refused, s) => s.winRefuse n ses t.widx
            | (.poison _, s) => ⟨stPOISON, 0, [], none, s⟩)
          | _ => s.winRefuse n ses t.widx))

/-- `REDUCE_TRANSACTION`: matched by tag, or held (R343). -/
def execReduceTransaction (n ses : Nat) (t : Txn) (s : State) : Host.Outcome State Fault Refusal :=
  gate s (decide (n < 32))
    (s.arrive n ses 4 t (decide (t.arg < 2 ^ 32) && t.offset % 128 == 0) (fun s =>
      match s.exportFor ses t rREDUCE with
      | none => s.winRefuse n ses t.widx
      | some w =>
        if w.size < t.offset + 128 then s.winRefuse n ses t.widx
        else
          let p := (s.ctx w.ctx).prt
          match s.tagSlot p t.arg with
          | some (g, k) => ⟨stOK, 0, [], none, s.relayArrive g k (t.offset / 128) t.data⟩
          | none => ⟨stOK, 0, [], none, { s with heldReduce := s.heldReduce ++ [⟨p, t.arg, t.offset, n, t.data⟩] }⟩))

/-- `REDUCE_HOLD`: what was held for 2 ms is dropped and counted (R343). -/
def execReduceHold (p tag : Nat) (s : State) : Host.Outcome State Fault Refusal :=
  gate s (decide (p < 32))
    (let mine := s.heldReduce.filter (fun h => h.prt == p && h.tag == tag)
     let s := { s with heldReduce := s.heldReduce.filter (fun h => !(h.prt == p && h.tag == tag)) }
     s.each mine (fun s h => s.count .HTN_REDUCE_DROP_count .HTN_REDUCE_DROP_ovf h.port 1))

/-- `MESSAGE`: the arrival is counted after the write (R342). -/
def execMessage (n ses : Nat) (t : Txn) (s : State) : Host.Outcome State Fault Refusal :=
  gate s (decide (n < 32))
    (s.arrive n ses 5 t (decide (t.arg < 2)) (fun s => s.txnWrite n ses t rMESSAGE (fun w s =>
      if t.arg = 1 then s.setWin (t.widx % 4096) { w with arrivals := (w.arrivals + 1) % 2 ^ 64 } else s)))

/-- `FENCE_SIGNAL`: the fence must be owned by the export's context (R344). -/
def execFenceSignal (n ses : Nat) (t : Txn) (s : State) : Host.Outcome State Fault Refusal :=
  gate s (decide (n < 32))
    (s.arrive n ses 6 t true (fun s =>
      let refuse := fun (code : Nat) (s : State) => (⟨stFENCE, code, [], none, s⟩ : TxnEnd)
      match s.exportFor ses t rMESSAGE with
      | none => s.winRefuse n ses t.widx
      | some w => match s.fenceOf t.offset with
        | none => refuse eBAD_HANDLE s
        | some f =>
          let x := s.fence f
          if x.ctx ≠ w.ctx then refuse eBAD_HANDLE s
          else if t.err then ⟨stOK, 0, [], none, s.fenceError f⟩
          else if x.st = 2 then refuse eSTATE s
          else if x.takes t.arg then ⟨stOK, 0, [], none, s.fenceSignal f t.arg⟩
          else refuse eFENCE_BACK s))

/-- `REVOKE`: every import of the export closes (R298, R344). -/
def execRevoke (n ses : Nat) (t : Txn) (s : State) : Host.Outcome State Fault Refusal :=
  gate s (decide (n < 32))
    (s.arrive n ses 7 t (t.arg == 0) (fun s =>
      let x := s.sess ses
      let l := (s.wins.filter (fun e => e.2.kind == 2 && e.2.peer == x.peer && e.2.peerPrt == x.peerPrt
        && e.2.peerIdx == t.widx && e.2.peerGen == t.wgen && (s.ctx e.2.ctx).prt == x.prt)).map (·.1)
      ⟨stOK, 0, [], none, s.each l State.closeWin⟩))

/-- The response to a request that waits for it (R337, R341). -/
def State.answered (s : State) (n i : Nat) (t : Txn) (r : Req) : State :=
  let status := t.offset % 65536
  if r.owner == .gone || (s.ctx r.ctx).epoch != t.sepoch then
    let s := s.count .HTN_TP_STALE_count .HTN_TP_STALE_ovf n 1
    { s with reqs := s.reqs.filter (fun q => !(q.sess == i && q.rid == r.rid && q.st == 0)) }
  else if status = stMOVED then
    (s.modSess i (fun x => { x with gen := t.arg })).reissue i r
  else
    let s := if status = stOK then s else s.tpFail (s.homePort (s.sess i)) i r.rid 1
    (s.modReq i r.rid (fun r => { r with st := 1, status := status, resp := t.data })).settle r.owner

/-- `RESPONSE`. -/
def execResponse (n ses : Nat) (t : Txn) (s : State) : Host.Outcome State Fault Refusal :=
  gate s (decide (n < 32))
    (if !t.resp || (s.sess ses).st != 2 then s
     else match s.takePsn n ses t.psn with
      | (false, s) => s
      | (true, s) => (match s.openReq ses t.rid with
        | none => s.count .HTN_TP_STALE_count .HTN_TP_STALE_ovf n 1
        | some r => (s.answered n ses t r).issueReqs))

-- The port command window ---------------------------------------------------------------------------------------------

/-- Whether a function may use the command window of a port: that of the port's partition, and the physical function when it
is not confidential (R350). -/
def State.htnMay (s : State) (f n : Nat) : Bool :=
  match s.prtOf n with
  | some p => s.mayCmd f p false
  | none => false

/-- A command of port n's window, unless one is in progress. -/
def State.htnCmd (s : State) (f n op : Nat) (a : Args) (k : Nat → State → CmdRes) : State :=
  if !s.barOf f || s.flag .HTN_CMD_busy n then s
  else s.command .htn n op a (fun s => k ((s.prtOf n).getD 0) s)

/-- `HTN_SESS`. -/
def execHtnSess (f n : Nat) (a : Args) (s : State) : Host.Outcome State Fault Refusal :=
  gate s (decide (f < 128) && decide (n < 32))
    (let i := a.a0.toNat
     s.htnCmd f n 0x01 a (fun p s =>
      let x := s.sess i
      s.checks [(zeroFrom i 10, eBAD_OP), (s.htnMay f n, eRIGHTS), (x.st == 0 || x.prt == p, eBAD_HANDLE)] (fun s =>
        ⟨eOK, x.st + x.prt * 2 ^ 2 + x.peerPrt * 2 ^ 7 + x.ports * 2 ^ 12, x.peer, s⟩)))

/-- Checks of a fence named at a port: reserved bits, rights, existence in the port's partition. -/
def State.htnFence (s : State) (f n h p : Nat) (rsv : Bool) : List (Bool × Nat) :=
  [(rsv && zeroFrom h 32, eBAD_OP), (s.htnMay f n && s.fenceRights f h, eRIGHTS), (s.fenceIn h p, eBAD_HANDLE)]

/-- `HTN_FLINK`: through an import with the MESSAGE right, at most one peer fence each, 16,384 in the device (R344). -/
def execHtnFlink (f n : Nat) (a : Args) (s : State) : Host.Outcome State Fault Refusal :=
  gate s (decide (f < 128) && decide (n < 32))
    (let h := a.a0.toNat
     let w := a.a1.toNat
     let peer := a.a2.toNat
     s.htnCmd f n 0x02 a (fun p s =>
      let i := h % 2 ^ 20
      let c := (s.fence i).ctx
      s.checks (s.htnFence f n h p (zeroFrom w 12 && zeroFrom peer 32) ++
          [((s.win w).kind == 2 && (s.win w).ctx == c, eBAD_HANDLE), (bit (s.win w).rights rMESSAGE, eBAD_ARG),
           (s.isLive c && s.flinks.all (fun l => l.fence != i), eSTATE), (decide (s.flinks.length < 16384), eQUOTA)])
        (fun s => { s with flinks := s.flinks ++ [(⟨i, w, peer⟩ : FLink)] }.done)))

/-- `HTN_FUNLINK`. -/
def execHtnFunlink (f n : Nat) (a : Args) (s : State) : Host.Outcome State Fault Refusal :=
  gate s (decide (f < 128) && decide (n < 32))
    (let h := a.a0.toNat
     s.htnCmd f n 0x03 a (fun p s =>
      s.checks (s.htnFence f n h p true) (fun s =>
        { s with flinks := s.flinks.filter (fun l => l.fence != h % 2 ^ 20) }.done)))

/-- `HTN_REKEY` (R346). -/
def execHtnRekey (f n : Nat) (a : Args) (s : State) : Host.Outcome State Fault Refusal :=
  gate s (decide (f < 128) && decide (n < 32))
    (let i := a.a0.toNat
     s.htnCmd f n 0x04 a (fun p s =>
      let x := s.sess i
      s.checks [(zeroFrom i 10, eBAD_OP), (s.htnMay f n, eRIGHTS), (x.st != 0 && x.prt == p, eBAD_HANDLE), (x.st == 2, eSTATE)]
        (fun s => (if x.rekey || x.rekeyWait then s else s.startRekey i).done)))

/-- `HTN_ATOMIC`: busy until the response, or the failure of the request (R341, R350). -/
def execHtnAtomic (f n : Nat) (a : Args) (s : State) : Host.Outcome State Fault Refusal :=
  gate s (decide (f < 128) && decide (n < 32))
    (let a0 := a.a0.toNat
     let off := a.a1.toNat
     let c := bits a0 15 0
     let op := bits a0 23 16
     let w := bits a0 35 24
     let sz := atomicSize (txnAtomicOp op)
     if !s.barOf f || s.flag .HTN_CMD_busy n then s
     else
      let s := s.htnCmd f n 0x05 a (fun p s =>
        s.checks [(zeroFrom a0 36, eBAD_OP), (s.htnMay f n && s.ctxRights f c false, eRIGHTS),
            (s.ctxExists c && (s.ctx c).prt == p && (s.win w).kind == 2 && (s.win w).ctx == c, eBAD_HANDLE),
            (decide (op < 4) && s.winOk c w off sz rATOMIC && off % sz == 0, eBAD_ARG), (s.isLive c, eSTATE)]
          (fun s => s.done))
      if s.rd .HTN_CMD_err n ≠ eOK then s
      else
        let s := s.wr .HTN_CMD_busy n 1
        (s.request c w 3 off op false (natLe 8 a.a2.toNat) (.window n)).settle (.window n))

end Sys2Proof.Machine
end

