-- ==== Sys2Proof/Machine/Survey.lean ====
section
/-! DEFINITION. Loading and applying a Survey: staging, relayouts, the commit, the bind, the dual-map window, sealing and
destroying partitions (R229 to R247, R425, R432, R433, R437). The phases are those of SVY_STAT.phase. -/

namespace Sys2Proof.Machine

-- The end of a load ---------------------------------------------------------------------------------------------------

/-- What a load leaves behind: the management buffer and the dual-map window. -/
def Svy.cleared (x : Svy) : Svy :=
  { Svy.idle with bufLen := x.bufLen, buf := x.buf, bufOpen := x.bufOpen, old := x.old, oldGen := x.oldGen }

/-- The interrupt of SVY_CFG.ie. -/
def State.svyIrq (s : State) : State := if s.flag .SVY_CFG_ie 0 then s.raiseOpen else s

/-- End the load with a result. -/
def State.svyEnd (s : State) (err off : Nat) : State :=
  let s := ((s.wr .SVY_STAT_phase 0 0).wr .SVY_STAT_err 0 err).wr .SVY_STAT_erroff 0 off
  let s := (s.wr .SVY_PEND_gen 0 0).wr .SVY_STAT_done 0 1
  { s with svy := s.svy.cleared }.svyIrq

/-- A load refused with BUSY (R233, R446): it is reported and changes nothing of a load that runs. -/
def State.svyBusy (s : State) : State :=
  if s.rd .SVY_STAT_phase 0 = 0 then (s.wr .SVY_STAT_err 0 svBUSY).wr .SVY_STAT_done 0 1 else s.wr .SVY_STAT_err 0 svBUSY

/-- Whether a load may start (R233, R446). -/
def State.svyFree (s : State) : Bool := s.rd .SVY_STAT_phase 0 == 0 && s.flag .DEV_STAT_ready 0

/-- Start a load from a source: the registers of the last one are cleared. -/
def State.svyStart (s : State) (mgmt : Bool) : State :=
  let s := (((s.wr .SVY_STAT_phase 0 1).wr .SVY_STAT_err 0 0).wr .SVY_STAT_erroff 0 0).wr .SVY_STAT_done 0 0
  { s.wr .SVY_STAT_mgmt 0 (b2n mgmt) with svy := { s.svy.cleared with mgmt := mgmt } }

-- Relayouts -----------------------------------------------------------------------------------------------------------

def State.relay (s : State) (p : Nat) : Relay := s.relays.get .none p
def State.setRelay (s : State) (p : Nat) (x : Relay) : State := { s with relays := s.relays.set .none p x }

/-- The order by which a partition's HBM is laid out: after a finished shrink relayout that of the relayout (R241). -/
def State.laidOrder (s : State) (p : Nat) : List Nat :=
  let r := s.relay p
  if r.active && !r.grow && !s.flag .PRT_STAT_relayout p then r.newOrder else (s.part p).octets

/-- The PPA that an HBM line holds under an order, none for parity lines and octets outside the order. -/
def Part.hbmPpa (x : Part) (order : List Nat) (chan line : Nat) : Option Nat :=
  let pos := order.idxOf (chan / 8)
  if chan < 256 ∧ pos < order.length ∧ chan % 8 < x.dch then
    let g := if x.gran64 then 65536 else 4096
    let off := line * 64
    some ((off / g * (x.dch * order.length) + pos * x.dch + chan % 8) * g + off % g)
  else none

/-- The lines of a layout below a size that hold errors: PPA and whether the line is beyond correction. -/
def State.badLines (s : State) (p : Nat) (order : List Nat) (h : Nat) : List (Nat × Bool) :=
  s.lineErr.filterMap (fun e =>
    match (s.part p).hbmPpa order (e.1 / 2 ^ 32) (e.1 % 2 ^ 32) with
    | some a => if a < h ∧ e.2 ≠ 256 then some (a, decide (2 < e.2)) else none
    | none => none)

/-- Copy the lines of a partition's HBM to their new places: a line beyond correction arrives poisoned, any other clean. -/
def State.moveLines (s : State) (p : Nat) (old new : List Nat) (h : Nat) : State :=
  let bad := s.badLines p old h
  let stale := s.badLines p new h
  let s := s.each stale (fun s e => s.setLineBad ((s.part p).hbmLoc new e.1) 0)
  s.each (bad.filter (fun e => e.2)) (fun s e => s.setLineBad ((s.part p).hbmLoc new e.1) 255)

/-- Store one byte of partition memory by its key. -/
def State.putByte (s : State) (k : Nat) (b : Byte) : State := { s with pmem := Tab.set 0#8 s.pmem k b }

/-- Frames without a valid page-owner entry are not copied: what they hold afterwards is open (R239). -/
def State.loseUnowned (s : State) (p h : Nat) : State :=
  if !s.flag .MEM_PRT_OWN_en p then s
  else
    let cells := s.pmem.filter (fun c => decide (pmemKey p 0 ≤ c.1) && decide (c.1 < pmemKey p h))
    let open_ := cells.filter (fun c => !bit (s.ownEntry p ((c.1 - pmemKey p 0) / 65536)).1 16)
    (s.each open_ (fun s c => s.putByte c.1 (Config.relayoutByte s.tick c.1))).ticked

/-- Rewrite the page-owner table of a partition that holds DDR5 for a new HBM size: the entries of DDR5 frames follow those of
HBM (R200, R239); entries of HBM frames that were not there are invalid. -/
def State.moveOwners (s : State) (p h h' : Nat) : State :=
  let base := pmemKey p (s.rd .MEM_PRT_OWN_base p * 65536)
  let n := (s.part p).ddr / 65536 * 4
  let cells := (s.pmem.filter (fun c => decide (base + h / 16384 ≤ c.1) && decide (c.1 < base + h / 16384 + n))).map
    (fun c => (c.1 - (base + h / 16384), c.2))
  let m := memZero s.pmem (base + min h h' / 16384) (max h h' / 16384 - min h h' / 16384 + n)
  let s := (State.each { s with pmem := m } cells (fun s c => s.putByte (base + h' / 16384 + c.1) c.2))
  { s with ownCache := s.ownCache.clearRange (p * 2 ^ 32) ((p + 1) * 2 ^ 32) }

/-- Log frames that a relayout writes, when memory logging is on (R274). -/
def State.logFrames (s : State) (p : Nat) (l : List Nat) : State :=
  if !s.flag .DSP_MLOG_BASE_en p then s
  else if s.recStopped p then s.countSat .EMU_ORPHAN_dlog 0 l.length
  else { s with host := l.foldl (fun m fr => setBitmap m (s.rd .DSP_MLOG_BASE_addr p * 4096) fr) s.host }

/-- The frames below a size that a relayout copies: those with a valid entry, or every one without the owner check (R239). -/
def State.copiedFrames (s : State) (p h : Nat) : List Nat :=
  (List.range (h / 65536)).filter (fun k => !s.flag .MEM_PRT_OWN_en p || bit (s.ownEntry p k).1 16)

/-- The frames of the page-owner table for an HBM size. -/
def State.tableFrames (s : State) (p h : Nat) : List Nat :=
  pagesOf (s.rd .MEM_PRT_OWN_base p * 65536) ((h + (s.part p).ddr) / 16384) 65536

/-- Discard the HBM of a partition from one size up to another. -/
def State.dropHbm (s : State) (p lo hi : Nat) : State := { s with pmem := memZero s.pmem (pmemKey p lo) (hi - lo) }

/-- Start a shrink relayout (R239): the watermark begins at the new size. -/
def State.startShrink (s : State) (p : Nat) (new : List Nat) : State :=
  let old := s.laidOrder p
  let s := s.setRelay p ⟨true, false, old, new⟩
  (s.wr .PRT_RELAYOUT_wmark p ((s.part p).hbmOf new.length)).wr .PRT_STAT_relayout p 1

/-- A running relayout of a partition ends. -/
def State.finishRelay (s : State) (p : Nat) : State :=
  let r := s.relay p
  let x := s.part p
  let h := x.hbmOf r.oldOrder.length
  let h' := x.hbmOf r.newOrder.length
  let s := s.loseUnowned p (min h h')
  let s := if s.flag .DSP_MLOG_BASE_en p then s.logFrames p (s.copiedFrames p (min h h')) else s
  let s := s.moveLines p r.oldOrder r.newOrder (min h h')
  let s := if r.grow then s else s.dropHbm p h' h
  let s := if x.exts.isEmpty then s else (s.moveOwners p h h').logFrames p (s.tableFrames p h')
  let s := s.wr .PRT_STAT_relayout p 0
  if r.grow then ((s.setRelay p .none).wr .PRT_RELAYOUT_wmark p 0).wr .PRT_STAT_closed p 0
  else s.wr .PRT_RELAYOUT_wmark p 0

/-- Start a grow relayout once the octets that arrived are zero-filled (R240). -/
def State.startGrow (s : State) (p : Nat) : State :=
  let r := s.relay p
  if r.active && r.grow && !s.flag .PRT_STAT_relayout p && r.newOrder.all (fun n => !s.fills.contains n) then
    s.wr .PRT_STAT_relayout p 1
  else s

/-- `ZERO_FILL_DONE` (R199), after which a grow relayout may start. What the zeroed lines decrypt to under the partition's
key is open, and the model's unlisted bytes stand for it. -/
def execZeroFillDone (ddr : Bool) (unit : Nat) (s : State) : Host.Outcome State Fault Refusal :=
  checked s (.zeroFillDone ddr unit)
    (if s.fills.contains (fillNo ddr unit) then (s.filled ddr unit).each (List.range 32) State.startGrow else s)

-- Staging -------------------------------------------------------------------------------------------------------------

/-- The Survey being applied. -/
def State.svyDoc (s : State) : Doc :=
  match docOf s.svy.bytes with
  | .ok d => d
  | .error _ => ⟨s.svy.bytes, []⟩

/-- Whether a partition runs on under a Survey: it exists and is neither created afresh nor destroyed. -/
def State.keeps (s : State) (d : Doc) (p : Nat) : Bool :=
  d.delta && (s.part p).defined && d.opOf p != 1 && d.opOf p != 3

/-- Staging ends with the commit or in the held phase (R241). -/
def State.staged (s : State) : State :=
  let hold := if s.svy.mgmt then s.svy.hold else s.flag .SVY_CTRL_hold 0
  s.wr .SVY_STAT_phase 0 (if hold then 4 else 5)

/-- Generate the memory keys that can be had (R425); with every key and every shrink done, staging ends. -/
def State.stageStep (s : State) : State :=
  if s.rd .SVY_STAT_phase 0 != 3 then s
  else
    let s := s.each s.svy.needKeys (fun s p =>
      match s.newKey p with
      | some (n, s) => { s with svy := { s.svy with needKeys := s.svy.needKeys.filter (· != p),
                                                    newKeys := s.svy.newKeys ++ [(p, n)] } }
      | none => s)
    if s.svy.needKeys.isEmpty && s.svy.shrinks.isEmpty then s.staged else s

/-- Begin staging an accepted Survey (R240, R241): sealed partitions that lose slices are laid out anew. -/
def State.stage (s : State) (b : List Byte) (d : Doc) (m : Map) : State :=
  let ps := (List.range 32).filter (fun p => d.opOf p == 1)
  let shrink := (List.range 32).filter (fun p => s.keeps d p && s.rd .PRT_STAT_state p == 2
    && decide ((m.at p).octets.length < (s.laidOrder p).length))
  let s := { s with svy := { s.svy with bytes := b, pend := some m, pendGen := hdGen b, needKeys := ps, newKeys := [],
                                        shrinks := shrink } }
  let s := s.each shrink (fun s p => s.startShrink p (m.at p).octets)
  (s.wr .SVY_STAT_phase 0 3).stageStep

/-- Validate a Survey that is held on chip whole, and stage it or end the load (R234). -/
def State.svyRun (s : State) (b : List Byte) : State :=
  match s.svyValidate b s.svy.mgmt with
  | .error e => s.svyEnd e.code e.off
  | .ok (d, m) => s.stage b d m

/-- `SURVEY_LOAD`: SVY_CTRL.load (R232, R233). -/
def execSurveyLoad (src : Src) (s : State) : Host.Outcome State Fault Refusal :=
  gate s src.ok
    (if !(src.isPf && s.barOf 0) then s
     else if s.svyFree then s.svyStart false
     else s.svyBusy)

/-- `SURVEY_FETCH_DONE`: the bytes that the DMA reads of SVY_SRC and SVY_LEN brought, none when they failed (R232). -/
def execSurveyFetchDone (bytes : Option (List Byte)) (s : State) : Host.Outcome State Fault Refusal :=
  gate s true
    (if s.rd .SVY_STAT_phase 0 != 1 then s
     else
      let n := s.rd .SVY_LEN_len 0
      match bytes with
      | none => s.svyEnd svDMA 0
      | some b => if b.length < n then s.svyEnd svDMA 0 else s.svyRun (b.take n))

/-- Give back keys that were generated for partitions that will not come. -/
def State.dropNewKeys (s : State) : State := s.each s.svy.newKeys (fun s e => s.retireKey e.2)

/-- End a load with ABORTED (R241, R246): relayouts that run stop where nothing has moved, finished ones stay. -/
def State.svyAbort (s : State) : State :=
  let s := s.each s.svy.shrinks (fun s p =>
    if s.flag .PRT_STAT_relayout p then
      let r := s.relay p
      let back := r.oldOrder.length < (s.part p).octets.length
      let s := (s.setRelay p (if back then ⟨true, false, (s.part p).octets, r.oldOrder⟩ else .none)).wr .PRT_STAT_relayout p 0
      s.wr .PRT_RELAYOUT_wmark p 0
    else s)
  s.dropNewKeys.svyEnd svABORTED 0

/-- `RELAYOUT_DONE` (R239, R240). -/
def execRelayoutDone (p : Nat) (s : State) : Host.Outcome State Fault Refusal :=
  gate s (decide (p < 32))
    (if s.flag .PRT_STAT_relayout p then
      let s := s.finishRelay p
      { s with svy := { s.svy with shrinks := s.svy.shrinks.filter (· != p) } }.stageStep
     else s)

/-- `SVY_COMMIT`. -/
def execSvyCommit (src : Src) (s : State) : Host.Outcome State Fault Refusal :=
  gate s src.ok
    (if src.isPf && s.barOf 0 && s.rd .SVY_STAT_phase 0 == 4 then s.wr .SVY_STAT_phase 0 5 else s)

/-- Whether an abort acts: in staging and in the held phase. -/
def State.abortable (s : State) : Bool := s.rd .SVY_STAT_phase 0 == 3 || s.rd .SVY_STAT_phase 0 == 4

/-- `SVY_ABORT`. -/
def execSvyAbort (src : Src) (s : State) : Host.Outcome State Fault Refusal :=
  gate s src.ok (if src.isPf && s.barOf 0 && s.abortable then s.svyAbort else s)

-- The commit ----------------------------------------------------------------------------------------------------------

/-- Every slice of a partition. -/
def Part.all (x : Part) : List Nat := x.slices ++ x.spares

/-- Slices that leave their partition under a Survey. -/
def State.leavers (s : State) (d : Doc) (m : Map) : List Nat :=
  (List.range 32).filter (fun n =>
    match s.prtOf n with
    | none => false
    | some p => !s.keeps d p || !(m.at p).all.contains n)

/-- Galleries that leave their place: those of leaving slices, and those that a kept partition takes out of its order. -/
def State.leavingGals (s : State) (d : Doc) (m : Map) : List Nat :=
  (List.range 32).filter (fun n => (s.leavers d m).contains n ||
    (match s.prtOf n with
      | none => false
      | some p => (s.part p).order.contains n && !(m.at p).order.contains n))

/-- Whether a partition of the running commit is kept. -/
def State.kept (s : State) (p : Nat) : Bool := s.keeps s.svyDoc p

/-- Tasks of kept partitions that hold or reserve a leaving gallery. -/
def State.leavingTasks (s : State) : List Nat :=
  (s.subs.filter (fun e => (e.2.stage == .placed || e.2.stage == .suspended) && s.kept e.2.prt
    && e.2.gals.any (fun g => s.svy.leaving.contains g))).map (·.1)

/-- `COMMIT_SEQUENCE`: steps 1 and 2 of R242. -/
def execCommitSequence (s : State) : Host.Outcome State Fault Refusal :=
  gate s true
    (match s.svy.pend with
     | none => s
     | some m =>
       if s.rd .SVY_STAT_phase 0 != 5 || s.svy.step != 0 then s
       else
        let d := s.svyDoc
        let s := s.wr .SVY_PEND_gen 0 s.svy.pendGen
        let s := { s with svy := { s.svy with leaving := s.leavingGals d m, step := 1, parkedNow := [],
                                              startAt := s.clocks.get 0 domECHO } }
        s.each s.leavingTasks (fun s t => if (s.sub t).stage == .placed then s.preemptSub t else s))

/-- Leaving galleries of kept partitions. -/
def State.keptLeaving (s : State) : List Nat :=
  s.svy.leaving.filter (fun g => match s.prtOf g with
    | some p => s.kept p
    | none => false)

/-- Complete the commands of one task at an engine with ENGINE_RESET: the running one and those at the head of the ring. -/
def State.endTaskCmds (s : State) (t g e : Nat) : Nat → State
  | 0 => s
  | n + 1 =>
    let k := engKey g e
    match s.curEnv g e with
    | some x => if x.cap.task = t then (((s.orphanEng k).freeEng g e).completeCmd x cENGINE_RESET 0 0).endTaskCmds t g e n else s
    | none => match s.ringHead g e with
      | some x => if x.cap.task = t then ((s.popRing k).completeCmd x cENGINE_RESET 0 0).endTaskCmds t g e n else s
      | none => s

/-- `DRAIN_BOUND`: commands of leaving galleries, and those posted by the tasks that leave, end with ENGINE_RESET (R242 step
4). -/
def execDrainBound (s : State) : Host.Outcome State Fault Refusal :=
  gate s true
    (if s.rd .SVY_STAT_phase 0 != 5 || s.svy.step != 1 then s
     else
      let s := s.each s.keptLeaving (fun s g => s.each (List.range 9) (fun s e => s.endEngine g e))
      s.each (s.leavingTasks.filter (fun t => (s.sub t).stage == .suspended)) (fun s t =>
        s.each (s.sub t).gals (fun s g => s.each (List.range 9) (fun s e => s.endTaskCmds t g e 4097))))

/-- Whether steps 3 and 4 are done: every task that leaves has yielded, its commands and those of the leaving galleries have
completed. -/
def State.bindDue (s : State) : Bool :=
  s.rd .SVY_STAT_phase 0 == 5 && s.svy.step == 1
    && s.leavingTasks.all (fun t => (s.sub t).stage == .suspended && (s.sub t).posted == 0)
    && s.keptLeaving.all s.enginesIdle

-- What the bind does --------------------------------------------------------------------------------------------------

/-- The pager takes its pages out of a leaving gallery: hints end, pages go to HBM (step 5). -/
def State.emptyRegion (s : State) (g : Nat) : State :=
  let hints := (s.pgal g).slots.map (·.2)
  let s := s.each hints State.cancelHint
  let s := s.each (s.pgal g).order (fun s e => s.finishMove e.1 e.2)
  s.each (s.pgal g).order (fun s e => (s.toHbm e.1 e.2).2)

/-- A port leaves the sessions of a partition: phase 2 goes out first (step 6, R334). -/
def State.portLeaves (s : State) (p n : Nat) : State :=
  s.each ((s.sesss.filter (fun e => e.2.st != 0 && e.2.prt == p && e.2.ports.testBit n)).map (·.1)) (fun s i =>
    (s.onPort n 3 (flitsOf 88) (.link n .greetingLeave (s.greetVals n i 2) [])).leaveSess i n)

/-- The sessions of a partition whose routes no longer give a port for the peer lose it. -/
def State.routesLeave (s : State) (p : Nat) (y : Part) : State :=
  s.each ((s.sesss.filter (fun e => e.2.st != 0 && e.2.prt == p)).map (·.1)) (fun s i =>
    let x := s.sess i
    let q := (y.peers.find? (fun q => q.id == x.peer && q.prt == x.peerPrt)).map (·.ports)
    s.each ((List.range 32).filter (fun n => x.ports.testBit n && !(q.getD 0).testBit n)) (fun s n =>
      (s.onPort n 3 (flitsOf 88) (.link n .greetingLeave (s.greetVals n i 2) [])).leaveSess i n))

/-- Scrub a slice (R432): pool, register files, bands, buffers, engines, mark shadows, journal, pager slots. -/
def State.scrubSlice (s : State) (g : Nat) : State :=
  let s := s.releaseGal g
  let s := { s with pool := Tab.clearRange s.pool (poolKey g 0) (poolKey (g + 1) 0),
                    poolErr := s.poolErr.clearRange (g * 2 ^ 20) ((g + 1) * 2 ^ 20),
                    gals := s.gals.set .idle g .idle, pgals := s.pgals.set .empty g .empty }
  let s := s.each (List.range 9) (fun s e =>
    let k := engKey g e
    (((s.setEng k .idle).wr .GAL_ENG_STAT_state k 0).wr .GAL_ENG_STAT_relays k 0).resetReg .GAL_ENG_PTR k)
  (s.setNumFlags g 0).wr .GAL_DISP_STAT_susp g 0 |>.wr .GAL_DISP_STAT_sctx g 0

/-- Registers of a partition that hold nothing once it is absent. -/
def prtRegs : List Reg :=
  [.PRT_CTRL, .PRT_STAT, .PRT_SLICES, .PRT_COVER, .PRT_RELAYOUT, .PRT_PGR_HBM, .PRT_PGR_DDR, .PRT_PGR_FREE, .PRT_PGR_WMARK,
   .PRT_SEQ_ARG, .PRT_SEQ_CMD, .PRT_SEQ_INFO, .PRT_PGR_SPILL, .PRT_PGR_FILL, .PRT_PGR_FAULT, .MEM_PRT_LAYOUT, .MEM_PRT_OWN,
   .MEM_OWN_FAULT, .MEM_OWN_DATA, .MEM_OWN_CMD, .DSP_MLOG_BASE, .DSP_MLOG_NEXT, .DSP_MLOG_CTRL, .DSP_SCHED, .DSP_DLCNT,
   .DSP_DL_CTRL, .DSP_DL_MISS, .DSP_DL_LAST, .DSP_ACCT, .DSP_ACCT_STAT, .DSP_REG_STAT, .DSP_REG_HOLD, .DSP_PROG_CMD,
   .DSP_PROG_RES, .RAS_CTX_WDOG]

/-- Destroy a partition (R235): contexts torn down, sessions closed, key retired, memory gone; with zero fill its octets and
extents are filled (R433). -/
def State.destroyPart (s : State) (p : Nat) : State :=
  let x := s.part p
  let s := s.wr .PRT_STAT_state p 3
  let s := s.each ((s.ctxs.filter (fun e => e.2.st != 0 && e.2.prt == p)).map (·.1)) State.destroyCtx
  let s := s.each ((s.seqs.filter (fun e => e.2.st != 0 && e.2.prt == p)).map (·.1)) State.freeSeq
  let s := s.each ((s.sesss.filter (fun e => e.2.st != 0 && e.2.prt == p)).map (·.1)) State.closeSess
  let s := if s.rd .SEC_PRT_KEY_state p = 1 then s.retireKey (s.rd .SEC_PRT_KEY_slot p) else s
  let s := if bit x.pflags 1 then (s.each x.all (fun s n => s.startFill false n)).each x.exts (fun s e => s.startFill true e)
    else if s.flag .PRT_CTRL_conf p && bit x.cflags 0 then s.each x.all (fun s n => s.startFill false n)
    else s
  let s := { s with progs := s.progs.clearRange (p * 256) ((p + 1) * 256),
                    pmem := Tab.clearRange s.pmem (pmemKey p 0) (pmemKey (p + 1) 0),
                    ownCache := s.ownCache.clearRange (p * 2 ^ 32) ((p + 1) * 2 ^ 32), ownPend := s.ownPend.set 0 p 0,
                    relays := s.relays.set .none p .none, pgrs := s.pgrs.set .fresh p .fresh,
                    heldReduce := s.heldReduce.filter (fun h => h.prt != p), mlSwap := s.mlSwap.filter (· != p),
                    lats := s.lats.clearRange (p * 1024) ((p + 1) * 1024),
                    tokens := s.tokens.clearRange (p * 1024) ((p + 1) * 1024) }
  (s.each prtRegs (fun s r => s.resetReg r p)).setPart p .absent

/-- Galleries of an order that a spare covers (R246). -/
def covers (order : List Nat) (sp g : Nat) : Bool :=
  let k := order.idxOf g
  let pre := if k = 0 then [] else [order.getD (k - 1) 0]
  let suc := if k + 1 < order.length then [order.getD (k + 1) 0] else []
  (pre ++ suc).all (fun n => joined sp n)

/-- The spares of a partition that stand in no place of the order and are not lost. -/
def State.freeSpares (s : State) (p : Nat) : List Nat :=
  (s.part p).spares.filter (fun n => !(s.part p).order.contains n && !s.ras.lost.contains n)

/-- The mask of a list of bit numbers. -/
def maskOf (l : List Nat) : Nat := l.eraseDups.foldl (fun a n => a + 2 ^ n) 0

/-- Show the order of a partition and what its spares cover (R246, R247). -/
def State.showOrder (s : State) (p : Nat) : State :=
  let x := s.part p
  let s := s.each (List.range 32) (fun s k => s.wr .PRT_ORDER_gal (32 * p + k) (x.order.getD k 0xFF))
  let sp := s.freeSpares p
  s.wr .PRT_COVER_cover p (maskOf (x.order.filter (fun g => sp.any (fun n => covers x.order n g))))

/-- Load the PRT, MEM and HTN registers of a partition (R207, R247, R350). -/
def State.loadPrt (s : State) (p : Nat) : State :=
  let x := s.part p
  let s := (s.wr .PRT_STAT_slices p x.slices.length).wr .PRT_SLICES_bound p (maskOf x.slices)
  let s := (s.wr .PRT_SLICES_spare p (maskOf x.spares)).showOrder p
  let s := (s.wr .MEM_PRT_LAYOUT_slices p x.slices.length).wr .MEM_PRT_LAYOUT_gran p (b2n x.gran64)
  let s := (s.wr .MEM_PRT_LAYOUT_parity p (b2n x.parity)).wr .MEM_PRT_LAYOUT_w p (if x.exts.isEmpty then 0 else x.w)
  let s := s.wr .MEM_PRT_LAYOUT_ext p x.exts.length
  s.each x.octets.zipIdx (fun s e =>
    (s.wr .HTN_SUMP_base e.1 (x.sumpBase + e.2 * x.sumpFrames)).wr .HTN_SUMP_frames e.1 x.sumpFrames)

/-- Load the binding of a slice: its octet's channels, its port, its geode designation (R184, R207, R350). -/
def State.loadSlice (s : State) (n : Nat) : State :=
  let p := s.prtOf n
  let par := match p with
    | some q => (s.part q).parity
    | none => false
  let s := s.each (List.range 8) (fun s k =>
    ((s.wr .MEM_HBM_STAT_bound (8 * n + k) (b2n p.isSome)).wr .MEM_HBM_STAT_prt (8 * n + k) (p.getD 0)).wr
      .MEM_HBM_STAT_parity (8 * n + k) (b2n par))
  let s := (s.wr .HTN_PORT_STAT_bound n (b2n p.isSome)).wr .HTN_PORT_STAT_prt n (p.getD 0)
  let serves := match p with
    | some q => (s.part q).octets.contains n
    | none => false
  let s := if serves then s else (s.wr .HTN_SUMP_base n 0).wr .HTN_SUMP_frames n 0
  let geode := match p with
    | some q => (s.part q).geode == 4
    | none => false
  let s := if s.flag .GAL_POOL_CFG_geode n && !geode then s.geodeWipe n else s
  s.wr .GAL_POOL_CFG_geode n (b2n geode)

/-- The pager frames of a partition in use, HBM and DDR5. -/
def State.usedFrames (s : State) (p : Nat) : List Nat :=
  (s.seqs.filter (fun e => e.2.st != 0 && e.2.prt == p)).flatMap (fun e =>
    e.2.lists ++ (e.2.pages.filter (fun q => q.2.tier == 2 || q.2.tier == 3)).map (fun q => q.2.frame))

/-- Load the pager's ranges; when they change, the free lists are those frames of the new ranges that are not in use (R212,
R224, R238). -/
def State.loadPager (s : State) (p : Nat) (y : Part) : State :=
  let x := s.part p
  if y.defined && y.phbmBase == x.phbmBase && y.phbmFrames == x.phbmFrames && y.pddrBase == x.pddrBase
      && y.pddrFrames == x.pddrFrames then s
  else
    let used := s.usedFrames p
    let hb := used.filter (inRange x.phbmBase x.phbmFrames)
    let dd := used.filter (inRange x.pddrBase x.pddrFrames)
    let s := (s.wr .PRT_PGR_HBM_base p x.phbmBase).wr .PRT_PGR_HBM_frames p x.phbmFrames
    let s := (s.wr .PRT_PGR_DDR_base p x.pddrBase).wr .PRT_PGR_DDR_frames p x.pddrFrames
    let s := (s.wr .PRT_PGR_FREE_hbm p (x.phbmFrames - hb.length)).wr .PRT_PGR_FREE_ddr p (x.pddrFrames - dd.length)
    s.setPgr p { Pgr.fresh with skip := hb ++ dd }

/-- A gallery that joins a partition takes its pager region; in a sealed partition also the locked values of the gallery at
position 0 (R184, R243). -/
def State.joinGal (s : State) (p g : Nat) : State :=
  let x := s.part p
  let s := (s.wr .GAL_POOL_PAGER_base g x.pgrBase).wr .GAL_POOL_PAGER_pages g x.pgrPages
  let h := x.order.headD g
  if s.rd .PRT_STAT_state p = 2 && h != g then
    let s := s.wr .GAL_SEM_BASE_base g (s.rd .GAL_SEM_BASE_base h)
    s.each (List.range 9) (fun s e =>
      [Fld.GAL_ENG_RING_base, .GAL_ENG_RING_size, .GAL_ENG_RING_en, .GAL_ENG_WDOG_bound, .GAL_ENG_WDOG_wait].foldl
        (fun s f => s.wr f (engKey g e) (s.rd f (engKey h e))) s)
  else s

/-- The engines that ENGINES disables keep their rings off (R227, R475). -/
def State.maskEngines (s : State) (p g : Nat) : State :=
  s.each ((List.range 9).filter (fun e => !bit (s.part p).engMask e)) (fun s e => s.wr .GAL_ENG_RING_en (engKey g e) 0)

/-- Seal a partition (R235, R236, R430). -/
def State.sealPart (s : State) (p : Nat) : State :=
  if s.rd .PRT_STAT_state p = 1 then
    let s := (s.wr .PRT_STAT_state p 2).wr .PRT_CTRL_seal p 1
    s.wr .SEC_PRT_KEY_conf p (s.rd .PRT_CTRL_conf p)
  else s

/-- Create a partition (R24, R235, R236, R425). -/
def State.createPart (s : State) (p : Nat) : State :=
  let s := (s.wr .PRT_STAT_state p 1).wr .PRT_CTRL_conf p (s.part p).conf
  let s := s.wr .DSP_DLCNT_count p 0
  let s := if s.flag .EMU_ORPHAN_orphan 0 && (s.part p).owner == 0 then s.wr .DSP_SCHED_orphan p 1 else s
  match s.svy.newKeys.find? (fun e => e.1 == p) with
  | some e => s.showKey p e.2
  | none => s

/-- What of a partition moves its TDI to ERROR (R437). -/
def Part.bound (x : Part) : List Nat × List Nat × List Nat × (List Nat × List Nat) × List Peer :=
  (x.slices, x.spares, x.octets,
   ([b2n x.gran64, b2n x.parity, x.w, x.pgrPages, x.pgrBase, x.ownBase, x.parkBase, x.parkFrames, x.phbmBase, x.phbmFrames,
     x.pddrBase, x.pddrFrames, x.seqQuota, x.sumpBase, x.sumpFrames, x.conf, x.geode, x.cflags], x.exts), x.peers)

/-- Move the TDIs that bind a partition to ERROR with a cause (R437). -/
def State.tdiFail (s : State) (p cause : Nat) : State :=
  s.each ((List.range 128).filter (fun f => f != 0 && (s.rd .SEC_TDI_state f == 1 || s.rd .SEC_TDI_state f == 2)
      && (s.rd .SEC_TDI_prt f).testBit p))
    (fun s f => (s.wr .SEC_TDI_state f 3).wr .SEC_TDI_cause f cause)

/-- Load the device settings (R369): a fixed hall steps to its step at once, an opportunistic one at the next redistribution. -/
def State.loadPower (s : State) : State :=
  let d := s.map.dev
  let s := s.wr .PWR_PKG_limit 0 d.limit
  s.each [(0, d.wMode, d.wStep), (1, d.eMode, d.eStep)] (fun s e =>
    let s := (s.wr .PWR_HALL_STAT_mode e.1 e.2.1).wr .PWR_HALL_STAT_set e.1 e.2.2
    if e.2.1 = 1 && !s.flag .PWR_HALL_STAT_alert e.1 then
      ((s.each (hallGals e.1) (fun s g => s.giveEff g e.2.2)).requestStep e.1 e.2.2).showEff e.1
    else s)

/-- Greet the peers that a port's routes name and no session of it reaches (R333, R334). -/
def State.greetNew (s : State) (n : Nat) : State :=
  match s.prtOf n with
  | none => s
  | some p =>
    if !s.linkUp n || !(s.part p).octets.contains n then s
    else s.each ((s.part p).peers.filter (fun q => q.ports.testBit n)) (fun s q =>
      let has := s.sesss.any (fun e => e.2.st != 0 && e.2.prt == p && e.2.peer == q.id && e.2.peerPrt == q.prt
        && (e.2.ports.testBit n || e.2.offered.testBit n))
      if has || !(s.native n || s.hasNbr n q.id) then s
      else match s.sessFor p q.id q.prt with
        | (some i, s) => s.sendOffer n i
        | (none, s) => s)

/-- Send phase 3 with the new generation on every open session (R334). -/
def State.updateSessions (s : State) : State :=
  s.each ((s.sesss.filter (fun e => e.2.st == 2)).map (·.1)) (fun s i =>
    let n := s.homePort (s.sess i)
    s.onPort n 3 (flitsOf 88) (.link n .greetingUpdate (s.greetVals n i 3) []))

/-- The chain of measurement block 7 after a commit (R435). -/
def chainAfter (full : Bool) (m b : List Byte) : List Byte :=
  sha512 ((if full then List.replicate 64 0#8 else m) ++ sha512 b)

/-- DDR5 stripes that a partition gives up take their contents with them. -/
def State.dropDdr (s : State) (p : Nat) (x y : Part) : State :=
  if y.ddr < x.ddr then
    { s with pmem := memZero s.pmem (pmemKey p (ddrBase + y.ddr)) (x.ddr - y.ddr) }
  else s

/-- Lay out a kept partition's HBM for its new order: a shrink relayout ends with the bind, a growth is closed until its
relayout is done (R240). -/
def State.bindLayout (s : State) (p : Nat) (laid : List Nat) : State :=
  let new := (s.part p).octets
  let s := (s.setRelay p .none).wr .PRT_RELAYOUT_wmark p 0
  if s.rd .PRT_STAT_state p = 2 && laid.length < new.length then
    ((s.setRelay p ⟨true, true, laid, new⟩).wr .PRT_STAT_closed p 1).startGrow p
  else s

/-- Steps 3 to 8 of the commit (R242, R243, R334, R432, R433), with the map m of the Survey d. -/
def State.bindMap (s : State) (d : Doc) (m : Map) : State :=
  let old := s.map
  let oldPart := fun p => old.parts.get .absent p
  let leavers := s.leavers d m
  let keptPs := (List.range 32).filter (s.keeps d)
  let gonePs := (List.range 32).filter (fun p => (s.part p).defined && !s.keeps d p)
  let newPs := (List.range 32).filter (fun p => (m.at p).defined && !s.keeps d p)
  let laid := keptPs.map (fun p => (p, s.laidOrder p))
  let confFill := leavers.filter (fun n => match s.prtOf n with
    | some p => s.confidential p && bit (s.part p).cflags 0
    | none => false)
  let joined_ := fun n => (d.binding old n).filter (fun e => !(keptPs.contains e.1 && (oldPart e.1).all.contains n))
  let fillNew := (List.range 32).filter (fun n => (joined_ n).isSome && (match d.bindOf n with
    | some o => bit (d.u o 2 1) 1
    | none => false))
  -- tasks, pages and ports leave
  let s := s.each s.leavingTasks State.parkTask
  let s := s.each s.keptLeaving State.emptyRegion
  let s := s.each keptPs (fun s p => s.each (leavers.filter (oldPart p).all.contains) (fun s n => s.portLeaves p n))
  let s := s.each keptPs (fun s p => s.routesLeave p (m.at p))
  let s := s.each gonePs State.destroyPart
  let s := s.each leavers State.scrubSlice
  -- the new map
  let s := s.each keptPs (fun s p => s.dropDdr p (oldPart p) (m.at p))
  let s := { s with map := m }
  let s := s.each newPs State.createPart
  let s := s.each (confFill ++ fillNew).eraseDups (fun s n => s.startFill false n)
  let s := s.each laid (fun s e => s.bindLayout e.1 e.2)
  let s := s.each m.used State.loadPrt
  let s := s.each m.used (fun s p => s.loadPager p (if keptPs.contains p then oldPart p else .absent))
  let s := s.each (List.range 32) State.loadSlice
  let s := s.each (List.range 32) (fun s n => match joined_ n with
    | some e => s.joinGal e.1 n
    | none => s)
  let s := s.each m.used (fun s p => s.each (s.part p).all (fun s g => s.maskEngines p g))
  let changed := (List.range 32).filter (fun p => oldPart p != m.at p)
  let s := s.each changed (fun s p => s.wr .PRT_GEN_value p (if (m.at p).defined then hdGen d.b else 0))
  let s := s.each m.used (fun s p => if bit (s.part p).pflags 0 then s.sealPart p else s)
  let s := s.each (changed.filter (fun p => (oldPart p).defined && (oldPart p).bound != (m.at p).bound))
    (fun s p => s.tdiFail p 1)
  let s := s.loadPower.showVis
  { s with sec := { s.sec with chain := chainAfter (!d.delta) s.sec.chain d.b } }

/-- The bind: the new generation comes into force and the dual-map window opens (step 8, R244). -/
def State.bindNow (s : State) (d : Doc) (m : Map) : State :=
  let old := s.map
  let gen := s.rd .SVY_GEN_gen 0
  let s := s.bindMap d m
  let s := (s.wr .SVY_GEN_gen 0 (hdGen d.b)).wr .SVY_STAT_phase 0 6
  let s := { s with svy := { s.svy with old := some old, oldGen := gen, leaving := [], step := 2, newKeys := [] } }
  (s.updateSessions).each (List.range 32) State.greetNew

/-- `BIND`. -/
def execBind (s : State) : Host.Outcome State Fault Refusal :=
  gate s true
    (match s.svy.pend with
     | none => s
     | some m => if s.bindDue then s.bindNow s.svyDoc m else s)

/-- The dual-map window closes: the load ends without an error (step 9). -/
def State.closeWindow (s : State) : State :=
  let us := (s.clocks.get 0 domECHO - s.svy.startAt) / 1200
  let s := { s.wr .SVY_TIME_us 0 us with svy := { s.svy with old := none, oldGen := 0 } }
  s.svyEnd 0 0

/-- `WINDOW_CLOSE`. -/
def execWindowClose (s : State) : Host.Outcome State Fault Refusal :=
  gate s true (if s.rd .SVY_STAT_phase 0 = 6 then s.closeWindow else s)

/-- `NAK_MOVED`: an internal request is routed again under the new generation (R245). -/
def execNakMoved (p : Nat) (s : State) : Host.Outcome State Fault Refusal :=
  gate s (decide (p < 32)) (s.countSat .PRT_MOVED_value p 1)

/-- `SEAL`: PRT_CTRL.seal, from the physical function (R235). -/
def execSeal (src : Src) (p : Nat) (s : State) : Host.Outcome State Fault Refusal :=
  gate s (src.ok && decide (p < 32)) (if src.isPf && s.barOf 0 then (s.sealPart p).showVis else s)

/-- A single fault during a commit, up to the bind, rolls it back (R246). -/
def State.rollBack (s : State) : State :=
  if s.rd .SVY_STAT_phase 0 = 5 then s.dropNewKeys.svyEnd svABORTED 0 else s

/-- Apply a Survey from start to end, as start-up does (R445 step 9): error code and offset, 0 for none. -/
def State.applyDefault (s : State) (b : List Byte) : Nat × State :=
  let s := s.svyStart true
  match s.svyValidate b true with
  | .error e => (e.code, s.svyEnd e.code e.off)
  | .ok (d, m) =>
    let s := s.stage b d m
    (0, if s.rd .SVY_STAT_phase 0 = 5 then (s.bindNow d m).closeWindow else s)

end Sys2Proof.Machine
end

