-- ==== Sys2Proof/Machine/Start.lean ====
section
/-! DEFINITION. Start-up: fuses, identity, enrolled keys, firmware images and their pairing, training, march tests, the default
Survey (R398 to R400, R413, R416 to R421, R439, R445 to R449). What start-up finds of the package and the memories is the operand
of the command that starts it, log entry 32. -/

namespace Sys2Proof.Machine

-- Life cycle ----------------------------------------------------------------------------------------------------------

/-- Life-cycle states (R413). -/
def lcFACTORY : Nat := 0
def lcPROVISIONED : Nat := 1
def lcOWNED : Nat := 2
def lcDEBUG : Nat := 3
def lcRETIRED : Nat := 4

/-- The state that the last blown record gives (R416). -/
def Sec.lc (x : Sec) : Nat := match x.records.getLast? with
  | some e => e.1
  | none => lcFACTORY

/-- Entries to OPEN-DEBUG, oldest first. -/
def Sec.debugs (x : Sec) : List (Nat × Nat) := x.records.filter (fun e => e.1 == lcDEBUG)

/-- The state recorded on the last entry to OPEN-DEBUG. -/
def Sec.prior (x : Sec) : Nat := match x.debugs.getLast? with
  | some e => e.2
  | none => 0

/-- Transition records left. -/
def Sec.left (x : Sec) : Nat := 64 - x.records.length

/-- Whether the hardware gate hides the device secret (R419). -/
def Sec.subst (x : Sec) : Bool := x.lc == lcDEBUG || x.lc == lcRETIRED

/-- Read the fuses into SEC_LC. -/
def State.loadLc (s : State) : State :=
  let x := s.sec
  ((((s.wr .SEC_LC_state 0 x.lc).wr .SEC_LC_subst 0 (b2n x.subst)).wr .SEC_LC_dbg_cnt 0 x.debugs.length).wr .SEC_LC_prior 0
    x.prior).wr .SEC_LC_lc_left 0 x.left

/-- The secret that the identity comes from: none before it is fused (R413, R418, R419). -/
def Sec.root (x : Sec) : Option (List Byte) :=
  if x.subst then some ((List.range 32).map Config.testRoot)
  else if x.udsFused then some ((List.range 32).map Config.deviceSecret)
  else none

/-- The identity public key: 0 for none (R418). -/
def Sec.identity (x : Sec) : Nat := match x.root with
  | some r => edPublic (hkdf [] r (ascii "svettil-identity") 32)
  | none => 0

/-- Show the identity public key. -/
def State.showId (s : State) (pub : Nat) : State :=
  s.each (List.range 4) (fun s k => s.wr .SEC_IDPUB_key k (pub / 2 ^ (64 * k) % 2 ^ 64))

-- Enrolled keys -------------------------------------------------------------------------------------------------------

/-- The valid copy of the enrolment record with the higher sequence number (R421). -/
def Flash.best (x : Flash) : Option (Nat × Enrol) :=
  x.enrol.foldl (fun b e => match b, e with
    | some a, some c => if a.1 < c.1 then some c else some a
    | none, e => e
    | b, none => b) none

/-- The key ID of a slot, 0 when it is empty. -/
def kidOf (k : Option Nat) : Nat := match k with
  | some k => keyId k
  | none => 0

/-- Show the enrolled keys in the SEC registers. -/
def State.showKeys (s : State) : State :=
  let k := s.sec.keys
  let s := (s.wr .SEC_OWNER_KID_kid 0 (kidOf k.owner)).wr .SEC_OWNER_SHADOW_KID_kid 0 (kidOf k.ownerSh)
  let s := s.each (List.range 4) (fun s i => s.wr .SEC_FW_KID_kid i (kidOf (k.fw.getD i none)))
  s.wr .SEC_STAT_shadow 0 (b2n (k.ownerSh.isSome || k.fwSh.any Option.isSome))

/-- Load the enrolment record (R421). -/
def State.loadKeys (s : State) : State :=
  let k := match s.flash.best with
    | some e => e.2
    | none => Enrol.none
  ({ s with sec := { s.sec with keys := k } }.wr .SEC_STAT_ks_err 0 (b2n s.flash.best.isNone)).showKeys

/-- Write the enrolment record with the next sequence number to both copies, the one with the lower number first (R422); no
power is lost in between. -/
def State.storeKeys (s : State) : State :=
  let n := match s.flash.best with
    | some e => e.1 + 1
    | none => 1
  ({ s with flash := { s.flash with enrol := List.replicate 2 (some (n, s.sec.keys)) } }.wr .SEC_STAT_ks_err 0 0).showKeys

-- Firmware images -----------------------------------------------------------------------------------------------------

/-- Fields of an image header (R398). -/
def imgCompat (b : List Byte) : Nat := fieldAt b 0x05 1
def imgKrl (b : List Byte) : Nat := fieldAt b 0x06 2
def imgVersion (b : List Byte) : Nat := fieldAt b 0x08 4
def imgHil (b : List Byte) : Nat := fieldAt b 0x0C 2
def imgSvn (b : List Byte) : Nat := fieldAt b 0x0E 2
def imgSize (b : List Byte) : Nat := fieldAt b 0x10 4

/-- Whether bytes hold an image of a kind, 0 keeper, 1 runtime: its header and its size. -/
def imgIs (kind : Nat) (b : List Byte) : Bool :=
  fieldAt b 0 4 == 0x57524946 && fieldAt b 4 1 == kind && decide (136 ≤ imgSize b) && decide (imgSize b ≤ b.length)

/-- The compatibility table: kind, lowest and highest value of each entry. -/
def imgTable (b : List Byte) : List (Nat × Nat × Nat) :=
  (List.range (fieldAt b 0x18 2)).map (fun i =>
    let o := fieldAt b 0x14 4 + 8 * i
    (fieldAt b o 1, fieldAt b (o + 2) 2, fieldAt b (o + 4) 2))

/-- Whether an image's table holds an entry of a kind whose range contains a value. -/
def imgTakes (b : List Byte) (kind v : Nat) : Bool :=
  (imgTable b).any (fun e => e.1 == kind && decide (e.2.1 ≤ v) && decide (v ≤ e.2.2))

/-- The digest of an image: its bytes up to the signature block. -/
def imgDigest (b : List Byte) : List Byte := sha512 (b.take (imgSize b - 72))

/-- Whether an image is signed by an enrolled firmware-signing key. -/
def State.imgSigned (s : State) (b : List Byte) : Bool :=
  s.sec.keys.fw.any (fun k => match k with
    | some k => signedBy k (b.take (imgSize b))
    | none => false)

/-- The stepping as compatibility entries give it. -/
def State.stepping (s : State) : Nat := s.rd .DEV_ID_step_letter 0 * 256 + s.rd .DEV_ID_step_num 0

/-- The first of *Start checks* that a keeper and a runtime fail, 0 when all pass (R399). Bytes that hold no image of the kind
fail the first. -/
def State.pairCause (s : State) (k r : List Byte) : Nat :=
  let lvl := s.rd .DEV_COMPAT_LEVEL_level 0
  if !(imgIs 0 k && imgIs 1 r && s.imgSigned k && s.imgSigned r) then 1
  else if !(imgCompat k == lvl && imgCompat r == lvl) then 2
  else if imgSvn k < s.sec.svnK ∨ imgSvn r < s.sec.svnR then 3
  else if !imgTakes r 0 (imgKrl k) then 4
  else if !imgTakes k 1 (imgKrl r) then 5
  else if !imgTakes r 2 s.stepping then 6
  else 0

/-- The image in a slot. -/
def Flash.keeperAt (x : Flash) (i : Nat) : List Byte := x.keeper.getD i []
def Flash.runtimeAt (x : Flash) (i : Nat) : List Byte := x.runtime.getD i []

/-- Pending images become active, and the directory is written again (R410, R451). -/
def Flash.activate (x : Flash) : Flash :=
  if x.pendK || x.pendR then
    { x with actK := if x.pendK then 1 - x.actK else x.actK, actR := if x.pendR then 1 - x.actR else x.actR,
             pendK := false, pendR := false, dirSeq := (x.dirSeq + 1) % 2 ^ 32 }
  else x

/-- The pairings in the order of R399, as keeper and runtime slot. -/
def Flash.pairings (x : Flash) : List (Nat × Nat) :=
  [(x.actK, x.actR), (1 - x.actK, x.actR), (x.actK, 1 - x.actR), (1 - x.actK, 1 - x.actR)]

/-- The pairing that starts. -/
def State.goodPair (s : State) : Option (Nat × Nat) :=
  s.flash.pairings.find? (fun e => s.pairCause (s.flash.keeperAt e.1) (s.flash.runtimeAt e.2) == 0)

/-- Show version and digest of an image: i is 0 for the keeper, 1 for the runtime. -/
def State.showImage (s : State) (i : Nat) (b : List Byte) : State :=
  if imgIs i b then
    let d := imgDigest b
    (s.wr .EMU_FW_VER_version i (imgVersion b % 2 ^ 31)).each (List.range 32) (fun s j =>
      s.wr .EMU_FW_DIGEST_half (32 * i + j) (fieldAt d (2 * j) 2))
  else s

/-- The runtime runs: three cores share the duties and the fourth stands by (R396). -/
def State.runFw (s : State) (k r : List Byte) : State :=
  let s := ((s.showImage 0 k).showImage 1 r).wr .EMU_IFLEVEL_hil 0 (imgHil r)
  let s := (s.wr .EMU_KRL_RT_krl 0 (imgKrl r)).wr .EMU_KRL_KP_krl 0 (imgKrl k)
  let s := (s.wr .EMU_MODE_mode 0 0).wr .EMU_MODE_cause 0 0
  let s := (s.wr .EMU_HW_STAT_fw_up 0 1).wr .EMU_HW_STAT_standby 0 1
  { s with fw := { Fw.reset with standby := some 3 } }

/-- Recovery mode (R400): every core but core 0 stays in reset. -/
def State.recover (s : State) (cause : Nat) : State :=
  let s := (s.showImage 0 (s.flash.keeperAt s.flash.actK)).showImage 1 (s.flash.runtimeAt s.flash.actR)
  let s := (s.wr .EMU_MODE_mode 0 1).wr .EMU_MODE_cause 0 cause
  let s := s.wr .DEV_STAT_step 0 15
  { s with fw := { Fw.reset with crashed := [1, 2, 3] } }

/-- Whether the device is in recovery mode. -/
def State.recovering (s : State) : Bool := s.rd .DEV_STAT_step 0 == 15

/-- Cause of a recovery for tamper (R439). -/
def causeTAMPER : Nat := 7

/-- Steps 3 and 4: identity, enrolment, pairing; a part that was opened derives no identity (R439, R440), and a retired one
starts no runtime (R417). The pairing that starts is the active one from then on. -/
def State.startFw (s : State) (intact : Bool) : State :=
  let s := s.loadLc
  if !intact then (s.showId 0).recover causeTAMPER
  else
    let s := (s.showId s.sec.identity).loadKeys
    let s := { s with flash := s.flash.activate }
    let cause := s.pairCause (s.flash.keeperAt s.flash.actK) (s.flash.runtimeAt s.flash.actR)
    if s.sec.lc = lcRETIRED then s.recover cause
    else match s.goodPair with
      | none => s.recover cause
      | some e => { s with flash := { s.flash with actK := e.1, actR := e.2 } }.runFw (s.flash.keeperAt e.1) (s.flash.runtimeAt e.2)

-- Memories and pools --------------------------------------------------------------------------------------------------

/-- Codes of the management events that the spec names without a number: these are the model's. -/
def mgHBM : Nat := 1
def mgDDR : Nat := 2
def mgMARCH : Nat := 3
def mgSURVEY : Nat := 4
def mgREADY : Nat := 5
def mgORPHAN : Nat := 6
def mgTELEMETRY : Nat := 7
def mgRESET : Nat := 8
def mgTAMPER : Nat := 9

/-- Set a flag of DEV_STAT and tell management (R447). -/
def State.bootFlag (s : State) (f : Fld) (code : Nat) (on : Bool) : State :=
  if on then (s.wr f 0 1).emit (.mgmtEvent code 0) else s

/-- A channel that has been trained: nothing of it is poisoned. -/
def State.trained (s : State) (ch : Nat) : State :=
  let s := if ch < 256 then s.wr .MEM_HBM_STAT_state ch 1 else s.wr .MEM_DDR_STAT_state (ch - 256) 1
  { s with chans := s.chans.upd .reset ch (fun x => { x with dead := false }),
           lineErr := s.lineErr.clearRange (ch * 2 ^ 32) ((ch + 1) * 2 ^ 32) }

/-- Train a channel: one that fails is lost (R447). -/
def State.train (s : State) (bad : List Nat) (ch : Nat) : State :=
  if bad.contains ch then s.loseChan ch else s.trained ch

/-- Whether R185 supports a DIMM. -/
def dimmOk (x : Dimm) : Bool := x.fitted && decide (16 ≤ x.ext) && decide (x.ext ≤ 256) && decide (x.speed ≤ 2)

/-- Find the DIMM of a channel. -/
def State.fitDimm (s : State) (d : Nat) (x : Dimm) : State :=
  if x.fitted then
    let s := (s.wr .MEM_DDR_STAT_present d 1).wr .MEM_DDR_STAT_x8 d (b2n x.x8)
    if dimmOk x then (s.wr .MEM_DDR_STAT_ext d x.ext).wr .MEM_DDR_STAT_speed d x.speed else s
  else s

/-- Step 6: the destructive march test with repair on every gallery (R182, R183). -/
def State.marchAll (s : State) (l : List (Nat × List MarchFail × List MarchFail)) : State :=
  s.each (List.range 32) (fun s g =>
    let e := (l.find? (fun e => e.1 == g)).map (·.2) |>.getD ([], [])
    ((s.wr .GAL_POOL_MARCH_state g 1).wr .GAL_POOL_MARCH_mode g 0 |>.wr .GAL_POOL_MARCH_repair g 1).marchDone g e.1 e.2)

/-- Show the flags of R447. -/
def State.bootFlags (s : State) : State :=
  let s := s.bootFlag .DEV_STAT_hbm_fail mgHBM ((List.range 256).any (fun n => s.rd .MEM_HBM_STAT_state n == 3))
  let s := s.bootFlag .DEV_STAT_ddr_fail mgDDR ((List.range 12).any (fun d =>
    s.flag .MEM_DDR_STAT_present d && s.rd .MEM_DDR_STAT_state d != 1))
  s.bootFlag .DEV_STAT_march_fail mgMARCH ((List.range 32).any (fun g => s.rd .GAL_POOL_MFAIL_bank g != 0))

/-- Steps 9 and 10: the default Survey, then fully ready (R445, R449). The times are open. -/
def State.ready (s : State) : State :=
  let s := match s.flash.survey with
    | [] => (s.wr .DEV_STAT_svy_err 0 1).emit (.mgmtEvent mgSURVEY 0)
    | b => match s.applyDefault b with
      | (0, s) => s
      | (_, s) => (s.wr .DEV_STAT_svy_err 0 1).emit (.mgmtEvent mgSURVEY 0)
  let s := (s.wr .DEV_BOOT_TIME_cfg_ms 0 (Config.bootMs (2 * s.tick))).wr .DEV_BOOT_TIME_ready_ms 0
    (Config.bootMs (2 * s.tick + 1) % 6001)
  let s := (s.wr .DEV_STAT_step 0 10).wr .DEV_STAT_ready 0 1
  ((s.wr .RAS_STAT_fault 0 0).emit (.mgmtEvent mgREADY 0)).ticked

/-- Both halls at step 0 at a fixed frequency, the package limit 800 W (R448). -/
def State.slowStart (s : State) : State :=
  (s.wr .PWR_PKG_limit 0 800).each [0, 1] (fun s h =>
    (((s.wr .PWR_HALL_STAT_mode h 1).wr .PWR_HALL_STAT_set h 0).wr .PWR_HALL_STAT_cur h 0).wr .PWR_HALL_STAT_target h 0)

/-- Start-up from power-good (R445), in one step. -/
def State.startUp (s : State) (b : Boot) : State :=
  let s := (s.wr .RAS_STAT_fault 0 1).wr .SEC_STAT_tamper_boot 0 (b2n (!b.intact))
  let s := s.startFw b.intact
  if s.recovering then s
  else
    let s := s.slowStart.marchAll b.tests.march
    let s := s.each (List.range 256) (fun s n => s.train b.tests.hbm n)
    let s := s.each b.dimms.zipIdx (fun s e => if e.2 < 12 then s.fitDimm e.2 e.1 else s)
    let s := s.each ((List.range 12).filter (fun d => s.rd .MEM_DDR_STAT_ext d != 0)) (fun s d =>
      s.train (b.tests.ddr.map (256 + ·)) (256 + d))
    let s := s.each b.tests.ddr (fun s d => if d < 12 then s.wr .MEM_DDR_STAT_ext d 0 else s)
    let s := s.each (List.range 32) (fun s n => s.wr .HTN_PORT_STAT_state n 1)
    s.bootFlags.ready

end Sys2Proof.Machine
end

