-- ==== Sys2Proof/Machine/XltCmd.lean ====
section
/-! DEFINITION. Translation commands: root tables, windows, the invalidation queue, copy faults (R282, R288 to R299). -/

namespace Sys2Proof.Machine

-- The command window --------------------------------------------------------------------------------------------------

/-- `SET_ROOT`. -/
def State.setRootCmd (s : State) (f a0 a1 : Nat) : CmdRes :=
  let c := a0
  s.checks [(zeroFrom a0 16 && a1 % 4096 == 0 && zeroFrom a1 48, eBAD_OP), (s.ctxRights f c false, eRIGHTS),
      (s.ctxExists c, eBAD_HANDLE), (s.isLive c, eSTATE)] (fun s => (s.modCtx c (fun x => { x with root := some a1 })).done)

/-- `SET_ROOT`: the context's cached entries are dropped, which the model has none of (R288). -/
def execSetRoot (f : Nat) (a : Args) (s : State) : Host.Outcome State Fault Refusal :=
  checked s (.setRoot f a) (if s.barAll f then s.command .xlt f 0x01 a (fun s => s.setRootCmd f a.a0.toNat a.a1.toNat) else s)

/-- Sizes of windows (*Window entry*). -/
def winSizeOk (n : Nat) : Bool := decide (65536 ≤ n) && decide (n ≤ 2 ^ 32) && n % 65536 == 0

/-- Reserved bits of ARG0 of the commands that make windows. -/
def winArg0Ok (a0 : Nat) : Bool := bits a0 31 21 == 0 && zeroFrom a0 37

/-- Make a window for a context in any free entry. -/
def State.makeWin (s : State) (w : Win) : Option Nat × State :=
  match s.chooseFree 4096 (fun i => (s.win i).kind == 0) with
  | (none, s) => (none, s)
  | (some i, s) => (some i, s.setWin i { w with gen := (s.win i).gen })

/-- `WIN_EXPORT`. -/
def State.winExportCmd (s : State) (f a0 a1 a2 a3 : Nat) : CmdRes :=
  let c := bits a0 15 0
  let p := (s.ctx c).prt
  s.checks [(winArg0Ok a0, eBAD_OP), (s.ctxRights f c false, eRIGHTS), (s.ctxExists c, eBAD_HANDLE),
      (a1 % 65536 == 0 && zeroFrom a1 48 && winSizeOk a2, eBAD_ARG), (s.isLive c, eSTATE),
      (decide (s.winUse p < (s.part p).winQuota), eQUOTA)] (fun s =>
    match s.makeWin { Win.free with kind := 1, ctx := c, rights := bits a0 20 16, peerPrt := bits a0 36 32, base := a1,
                                    size := a2, peer := a3 } with
    | (none, s) => s.fails eQUOTA
    | (some i, s) => ⟨eOK, i + (s.win i).gen * 2 ^ 16, 0, s⟩)

/-- `WIN_EXPORT`. -/
def execWinExport (f : Nat) (a : Args) (s : State) : Host.Outcome State Fault Refusal :=
  checked s (.winExport f a)
    (if s.barAll f then
      s.command .xlt f 0x10 a (fun s => s.winExportCmd f a.a0.toNat a.a1.toNat a.a2.toNat a.a3.toNat)
     else s)

/-- `WIN_IMPORT`. -/
def State.winImportCmd (s : State) (f a0 a1 a2 a3 : Nat) : CmdRes :=
  let c := bits a0 15 0
  let p := (s.ctx c).prt
  s.checks [(winArg0Ok a0 && bits a2 15 12 == 0 && zeroFrom a2 32, eBAD_OP), (s.ctxRights f c false, eRIGHTS),
      (s.ctxExists c, eBAD_HANDLE), (winSizeOk a3, eBAD_ARG), (s.isLive c, eSTATE),
      (decide (s.winUse p < (s.part p).winQuota), eQUOTA)] (fun s =>
    match s.makeWin { Win.free with kind := 2, ctx := c, rights := bits a0 20 16, peerPrt := bits a0 36 32, peer := a1,
                                    peerIdx := bits a2 11 0, peerGen := bits a2 31 16, size := a3 } with
    | (none, s) => s.fails eQUOTA
    | (some i, s) => ⟨eOK, i, 0, s⟩)

/-- `WIN_IMPORT`. -/
def execWinImport (f : Nat) (a : Args) (s : State) : Host.Outcome State Fault Refusal :=
  checked s (.winImport f a)
    (if s.barAll f then
      s.command .xlt f 0x11 a (fun s => s.winImportCmd f a.a0.toNat a.a1.toNat a.a2.toNat a.a3.toNat)
     else s)

/-- Rights on a window named: a free entry has no partition (R476). -/
def State.winRights (s : State) (f i : Nat) (pf : Bool) : Bool :=
  (s.win i).kind == 0 || s.mayCmd f (s.ctx (s.win i).ctx).prt pf

/-- `WIN_CLOSE` (R298). -/
def State.winCloseCmd (s : State) (f i : Nat) : CmdRes :=
  s.checks [(zeroFrom i 12, eBAD_OP), (s.winRights f i true, eRIGHTS), ((s.win i).kind != 0, eBAD_HANDLE)]
    (fun s => (s.closeWin i).done)

/-- `WIN_CLOSE`. -/
def execWinClose (f : Nat) (a : Args) (s : State) : Host.Outcome State Fault Refusal :=
  checked s (.winClose f a) (if s.barAll f then s.command .xlt f 0x12 a (fun s => s.winCloseCmd f a.a0.toNat) else s)

/-- `WIN_QUERY`: a free entry answers that it is free. -/
def State.winQueryCmd (s : State) (f i : Nat) : CmdRes :=
  s.checks [(zeroFrom i 12, eBAD_OP), (s.winRights f i false, eRIGHTS)] (fun s =>
    let w := s.win i
    ⟨eOK, w.kind + w.ctx * 2 ^ 2 + w.gen * 2 ^ 18, w.arrivals, s⟩)

/-- `WIN_QUERY`. -/
def execWinQuery (f : Nat) (a : Args) (s : State) : Host.Outcome State Fault Refusal :=
  checked s (.winQuery f a) (if s.barAll f then s.command .xlt f 0x13 a (fun s => s.winQueryCmd f a.a0.toNat) else s)

-- The invalidation queue ----------------------------------------------------------------------------------------------

/-- Whether a write to a function's own XLT registers comes from it (R299). -/
def State.ownXlt (s : State) (src : Src) (f : Nat) : Bool := src == .func f && s.barAll f

/-- `XLT_IQ_TAIL`. -/
def execXltIqTail (src : Src) (f v : Nat) (s : State) : Host.Outcome State Fault Refusal :=
  checked s (.xltIqTail src f v) (if s.ownXlt src f then s.wr .XLT_IQ_TAIL_idx f v else s)

/-- `XLT_IQ_STAT_ERR_CLEAR`: the queue restarts at the head. -/
def execXltIqStatErrClear (src : Src) (f : Nat) (s : State) : Host.Outcome State Fault Refusal :=
  checked s (.xltIqStatErrClear src f) (if s.ownXlt src f then s.wr .XLT_IQ_STAT_err f 0 else s)

/-- Whether the queue has a command to execute: it runs, none is under way, and the tail is ahead (R289). -/
def State.iqReady (s : State) (f : Nat) : Bool :=
  let n := s.rd .XLT_IQ_BASE_size f
  s.flag .XLT_IQ_BASE_en f && decide (6 ≤ n) && decide (n ≤ 12) && !s.flag .XLT_IQ_STAT_err f && !(s.func f).d3
    && (s.func f).iqCur.isNone && s.rd .XLT_IQ_HEAD_idx f != s.rd .XLT_IQ_TAIL_idx f % 2 ^ n

/-- A command completes: the head moves on. -/
def State.iqDone (s : State) (f : Nat) : State :=
  let s := s.modFunc f (fun x => { x with iqCur := none })
  s.wr .XLT_IQ_HEAD_idx f ((s.rd .XLT_IQ_HEAD_idx f + 1) % 2 ^ s.rd .XLT_IQ_BASE_size f)

/-- The first check of R289 that a command fails: reserved bits, rights and existence of its context, arguments. -/
def State.iqCode (s : State) (f : Nat) (c : IqCmd) (rsvOk usesCtx argOk : Bool) : Nat :=
  if !(rsvOk && decide (c.iflags < 2) && c.rsv == 0) then eBAD_OP
  else if usesCtx && (s.ctx c.ctx).st != 0 && !s.serves f (s.ctx c.ctx).prt then eRIGHTS
  else if usesCtx && !s.ctxExists c.ctx then eBAD_HANDLE
  else if !argOk then eBAD_ARG
  else eOK

/-- Execute the command at the head: a failed check stops the queue. -/
def State.iqRun (s : State) (f : Nat) (code : Nat) (k : State → State) : State :=
  if !s.iqReady f then s
  else if code = eOK then k s
  else (s.wr .XLT_IQ_STAT_err f 1).wr .XLT_IQ_STAT_code f code

/-- An invalidation begins; it completes at INVALIDATION_COMPLETE (R290). -/
def State.iqBegin (s : State) (f op : Nat) (c : IqCmd) : State := s.modFunc f (fun x => { x with iqCur := some (op, c) })

/-- `INV_VA`. -/
def execInvVa (f : Nat) (c : IqCmd) (s : State) : Host.Outcome State Fault Refusal :=
  checked s (.invVa f c)
    (s.iqRun f (s.iqCode f c true true (c.count != 0 && c.addr % 65536 == 0)) (fun s => s.iqBegin f 1 c))

/-- `INV_CTX`. -/
def execInvCtx (f : Nat) (c : IqCmd) (s : State) : Host.Outcome State Fault Refusal :=
  checked s (.invCtx f c) (s.iqRun f (s.iqCode f c true true true) (fun s => s.iqBegin f 2 c))

/-- `INV_FUNC`. -/
def execInvFunc (f : Nat) (c : IqCmd) (s : State) : Host.Outcome State Fault Refusal :=
  checked s (.invFunc f c) (s.iqRun f (s.iqCode f c true false true) (fun s => s.iqBegin f 3 c))

/-- `WAIT`: every earlier command has completed; the value is written, then the vector raised. -/
def execWait (f : Nat) (c : IqCmd) (s : State) : Host.Outcome State Fault Refusal :=
  checked s (.wait f c)
    (s.iqRun f (s.iqCode f c true false (c.addr % 8 == 0)) (fun s =>
      let s := s.hostWr f none c.addr (natLe 8 c.value.toNat)
      let s := if bit c.iflags 0 then s.raise f (s.rd .XLT_IQ_BASE_vec f) else s
      s.iqDone f))

/-- `INVALIDATION_COMPLETE`: no translation under the old entries is held any more (R290). -/
def execInvalidationComplete (f : Nat) (s : State) : Host.Outcome State Fault Refusal :=
  checked s (.invalidationComplete f) (if (s.func f).iqCur.isSome then s.iqDone f else s)

/-- `ATS_INVALIDATION`: answered once no translation of the range is held, which the model never keeps (R290). -/
def execAtsInvalidation (f addr len : Nat) (s : State) : Host.Outcome State Fault Refusal :=
  checked s (.atsInvalidation f addr len) (s.emit (.reply [f, addr, len] []))

-- Copy faults ---------------------------------------------------------------------------------------------------------

/-- The engine key a fault record's tag names: gallery × 2 + copy engine (*Fault record*). -/
def tagKey (tag : Nat) : Nat := tag % 64 / 2 * 16 + 6 + tag % 2

/-- Whether a reply is stale (R293). -/
def State.replyStale (s : State) (k epoch ctx : Nat) : Bool :=
  match (s.eng k).cur, (s.eng k).parked with
  | some c, some p => p.cause == 2 || c.2.1.epoch != epoch || c.2.1.ctx != ctx
  | _, _ => true

/-- A parked command ends with COPY_ABORT (R293). -/
def State.abortCopy (s : State) (k : Nat) : State :=
  match s.curEnv (k / 16) (k % 16), (s.eng k).parked with
  | some x, some p => (x.endStep (.err cCOPY_ABORT p.unit s)).wr .GAL_ENG_STAT_state k 1
  | _, _ => s

/-- `FAULT_REPLY` (R293). -/
def execFaultReply (f : Nat) (c : IqCmd) (s : State) : Host.Outcome State Fault Refusal :=
  checked s (.faultReply f c)
    (s.iqRun f (s.iqCode f c (bits c.count 31 9 == 0 && zeroFrom c.addr 16) true true) (fun s =>
      let k := tagKey (bits c.count 5 0)
      let s := if s.replyStale k (c.addr % 2 ^ 16) c.ctx then s.countSat .XLT_FR_STALE_count f 1
        else if bit c.count 8 then s.abortCopy k
        else s.unpark (k / 16) (k % 16)
      s.iqDone f))

/-- Whether a function's fault ring runs and has room (R291, R272). -/
def State.frRoom (s : State) (f : Nat) : Bool :=
  let n := s.rd .XLT_FR_BASE_size f
  s.flag .XLT_FR_BASE_en f && decide (6 ≤ n) && decide (n ≤ 12)
    && (s.rd .XLT_FR_TAIL_idx f + 1) % 2 ^ n != s.rd .XLT_FR_HEAD_idx f % 2 ^ n

/-- The 32 bytes of a fault record. -/
def frBytes (p : Parked) (c : Captured) (x : Ctx) (tag phase seq : Nat) : List Byte :=
  natLe 8 p.va ++ natLe 2 c.ctx ++ natLe 2 c.epoch ++ natLe 4 (if x.nopasid then 2 ^ 31 else x.pasid)
    ++ natLe 1 p.cause ++ natLe 1 p.access ++ natLe 1 p.level ++ natLe 1 phase ++ natLe 2 tag ++ natLe 2 0 ++ natLe 4 seq
    ++ natLe 4 0

/-- Post the record of a parked command at the ring tail and raise the vector (R291, R292). -/
def State.postRecord (s : State) (k : Nat) (p : Parked) (c : Captured) : State :=
  let f := (s.part (s.ctx c.ctx).prt).func
  let x := s.func f
  let tail := s.rd .XLT_FR_TAIL_idx f
  let s := s.hostWr f none (s.rd .XLT_FR_BASE_addr f * 65536 + 32 * tail)
    (frBytes p c (s.ctx c.ctx) (k / 16 * 2 + k % 2) ((x.frPass + 1) % 2) x.frSeq)
  let tail' := (tail + 1) % 2 ^ s.rd .XLT_FR_BASE_size f
  let s := s.wr .XLT_FR_TAIL_idx f tail'
  let s := s.modFunc f (fun x => { x with frSeq := (x.frSeq + 1) % 2 ^ 32,
                                          frPass := if tail' = 0 then x.frPass + 1 else x.frPass })
  let s := s.modEng k (fun y => { y with parked := some { p with posted := true } })
  s.raise f (s.rd .XLT_FR_BASE_vec f)

/-- `FAULT_RECORD_POST`: a copy engine keeps its record while the ring does not run or is full, and in orphan mode (R291,
R405). -/
def execFaultRecordPost (g e : Nat) (s : State) : Host.Outcome State Fault Refusal :=
  checked s (.faultRecordPost g e)
    (let k := engKey g e
     match (s.eng k).cur, (s.eng k).parked with
     | some c, some p =>
       let prt := (s.ctx c.2.1.ctx).prt
       if isCopy e && !p.posted && !p.pri && s.frRoom (s.part prt).func && !s.recStopped prt then s.postRecord k p c.2.1 else s
     | _, _ => s)

/-- `XLT_FR_HEAD`. -/
def execXltFrHead (src : Src) (f v : Nat) (s : State) : Host.Outcome State Fault Refusal :=
  checked s (.xltFrHead src f v) (if s.ownXlt src f then s.wr .XLT_FR_HEAD_idx f v else s)

/-- A page request has ended without the page: a record with cause 1 will be posted (R294). -/
def State.priFailed (s : State) (k : Nat) : State :=
  match (s.eng k).parked with
  | some p => if p.pri then s.modEng k (fun y => { y with parked := some { p with pri := false, cause := 1, level := 0xFF } })
              else s
  | none => s

/-- `PRI_RESPONSE`: success makes the engine translate again (R294). -/
def execPriResponse (g e : Nat) (ok : Bool) (s : State) : Host.Outcome State Fault Refusal :=
  checked s (.priResponse g e ok)
    (let k := engKey g e
     if (s.eng k).parked.any (fun p => p.pri) then (if ok then s.unpark g e else s.priFailed k) else s)

/-- `PRI_TIMEOUT`: no response within XLT_FR_CTRL.pri_to. -/
def execPriTimeout (g e : Nat) (s : State) : Host.Outcome State Fault Refusal :=
  gate s (decide (g < 32) && decide (e < 9)) (s.priFailed (engKey g e))

end Sys2Proof.Machine
end

