-- ==== Sys2Proof/Machine/Firmware.lean ====
section
/-! DEFINITION. The firmware rows: emulated registers, core crashes, lease and orphan mode, firmware update (R401 to R412). A
takeover and a live activation are one step each, log entry 35. -/

namespace Sys2Proof.Machine

-- Emulated registers --------------------------------------------------------------------------------------------------

/-- The EMU_BUSY status word (R401). -/
def emuBusyWord : Nat := 0xB5B50001

/-- Whether the DEV and EMU blocks answer a function: from configuration-ready on; in recovery mode the physical function alone is
enumerated (R400, R445). -/
def State.emuOf (s : State) (f : Nat) : Bool :=
  s.board.pcie && !(s.func f).d3 && !s.tdiError f
    && ((decide (7 ≤ s.rd .DEV_STAT_step 0) && decide (s.rd .DEV_STAT_step 0 ≤ 10)) || (s.recovering && f == 0))

/-- Whether EMU_LEASE, a hardware register, takes writes of the physical function: a claim is accepted from step 5 on (R446). -/
def State.leaseUp (s : State) : Bool :=
  s.board.pcie && !(s.func 0).d3
    && ((decide (5 ≤ s.rd .DEV_STAT_step 0) && decide (s.rd .DEV_STAT_step 0 ≤ 10)) || s.recovering)

/-- The emulated registers. -/
def emuRegs : List Reg :=
  [.EMU_MODE, .EMU_IFLEVEL, .EMU_FW_VER, .EMU_VIS, .EMU_KRL_RT, .EMU_KRL_KP, .EMU_LOG_BASE, .EMU_LOG_CFG, .EMU_LOG_HEAD,
   .EMU_LOG_TAIL, .EMU_TRACE, .EMU_CMD, .EMU_FW_DIGEST]

/-- The emulated register at an offset of the block, with its instance. -/
def emuAt (off : Nat) : Option (Reg × Nat) :=
  (emuRegs.flatMap (fun r => (List.range r.place.count).map (fun i => (r, i)))).find? (fun e => e.1.addr e.2 == 0x10000 + off)

/-- Registers that a virtual function reads (R402), and those that the recovery monitor serves (R400). -/
def emuForVf (r : Reg) : Bool :=
  [Reg.EMU_MODE, .EMU_IFLEVEL, .EMU_KRL_RT, .EMU_KRL_KP, .EMU_FW_VER, .EMU_FW_DIGEST].contains r
def emuInRecovery (r : Reg) : Bool := [Reg.EMU_MODE, .EMU_FW_VER, .EMU_FW_DIGEST].contains r

/-- What an emulated read answers; bit 31 reads zero (R401). -/
def State.emuValue (s : State) (f off : Nat) : Nat :=
  match emuAt off with
  | none => 0
  | some (r, i) =>
    if (f == 0 || emuForVf r) && (!s.recovering || emuInRecovery r) then s.readReg r i % 2 ^ 31 else 0

/-- Whether an offset is emulated. -/
def emulated (off : Nat) : Bool := decide (0x100 ≤ off) && decide (off < 0x10000)

/-- `EMU_READ`: the firmware, or the recovery monitor, answers. -/
def execEmuRead (f off : Nat) (s : State) : Host.Outcome State Fault Refusal :=
  gate s (decide (f < 128))
    (if s.emuOf f && emulated off && (s.flag .EMU_HW_STAT_fw_up 0 || s.recovering) then s.emit (.reply [s.emuValue f off] [])
     else s)

/-- `EMU_BUSY`: 20 µs have passed without an answer; one that comes later is discarded. -/
def execEmuBusy (f off : Nat) (s : State) : Host.Outcome State Fault Refusal :=
  gate s (decide (f < 128)) (if s.emuOf f && emulated off then s.emit (.reply [emuBusyWord] []) else s)

/-- A command of EMU_CMD: one whose number is that of the last applied is ignored (R402). Clearing the log empties the on-chip
buffer. -/
def State.emuCommand (s : State) (seq op : Nat) : State :=
  if s.fw.lastCmd = some seq then s
  else
    let s := { (s.wr .EMU_CMD_seq 0 seq).wr .EMU_CMD_op 0 op with fw := { s.fw with lastCmd := some seq } }
    match op with
    | 1 => { s with fw := { s.fw with log := [] } }
    | 2 => s.emit (.mgmtEvent mgTELEMETRY 0)
    | _ => s

/-- Apply a write to an emulated register (R402, R412). -/
def State.emuApply (s : State) (off v : Nat) : State :=
  match emuAt off with
  | some (.EMU_LOG_BASE, i) => (s.wr .EMU_LOG_BASE_addr i (v % 2 ^ 31)).logConfigured
  | some (.EMU_LOG_CFG, _) => ((s.wr .EMU_LOG_CFG_en 0 (bits v 0 0)).wr .EMU_LOG_CFG_size 0 (bits v 4 1)).logConfigured
  | some (.EMU_LOG_HEAD, _) => s.wr .EMU_LOG_HEAD_idx 0 v
  | some (.EMU_TRACE, i) => (s.wr .EMU_TRACE_mask i (v % 2 ^ 31)).logConfigured
  | some (.EMU_CMD, _) => s.emuCommand (bits v 7 0) (bits v 15 8)
  | _ => s

/-- A write reaches the emulated range: it is applied, or waits in the write queue of 64 entries, or is dropped and counted. -/
def State.emuStore (s : State) (off v : Nat) : State :=
  if s.recovering then s
  else if s.flag .EMU_HW_STAT_fw_up 0 then s.emuApply off v
  else if s.fw.wq.length < 64 then
    let s := { s with fw := { s.fw with wq := s.fw.wq ++ [(off, v)] } }
    s.wr .EMU_HW_STAT_wq 0 s.fw.wq.length
  else s.count .EMU_WDROP_count .EMU_WDROP_ovf 0 1

/-- `EMU_WRITE`: only the physical function writes. -/
def execEmuWrite (f off v : Nat) (s : State) : Host.Outcome State Fault Refusal :=
  gate s (decide (f < 128)) (if f == 0 && s.emuOf 0 && emulated off then s.emuStore off v else s)

/-- The offset of EMU_CMD. -/
def emuCMD : Nat := 0x140

/-- `CLEAR_LOG`. -/
def execClearLog (f seq : Nat) (s : State) : Host.Outcome State Fault Refusal :=
  gate s (decide (f < 128)) (if f == 0 && s.emuOf 0 then s.emuStore emuCMD (seq % 256 + 0x100) else s)

/-- `REPORT_TELEMETRY`. -/
def execReportTelemetry (f seq : Nat) (s : State) : Host.Outcome State Fault Refusal :=
  gate s (decide (f < 128)) (if f == 0 && s.emuOf 0 then s.emuStore emuCMD (seq % 256 + 0x200) else s)

-- Cores ---------------------------------------------------------------------------------------------------------------

/-- `CORE_CRASH` (R403): the standby takes the duties; a crash of the standby removes it; with none left it is a chip fault. -/
def execCoreCrash (core : Nat) (s : State) : Host.Outcome State Fault Refusal :=
  gate s (decide (core < 4))
    (if !s.flag .EMU_HW_STAT_fw_up 0 || s.fw.crashed.contains core then s
     else if s.fw.standby.isNone then s.escalateChip
     else
       let own := s.fw.standby == some core
       let s := { s with fw := { s.fw with standby := none, crashed := s.fw.crashed ++ [core] } }
       let s := (s.wr .EMU_HW_STAT_standby 0 0).count .RAS_CNT_UNIT_count .RAS_CNT_UNIT_ovf 0 1
       s.rasRecord ⟨3, 12, if own then 0 else 10, uFIRMWARE, core, 0xFF, domCPC, 0, 0⟩)

-- Lease ---------------------------------------------------------------------------------------------------------------

/-- Show orphan mode in every partition of the driver (R405, R406). -/
def State.showOrphan (s : State) (on : Bool) : State :=
  s.each (List.range 32) (fun s p =>
    if !on then s.wr .DSP_SCHED_orphan p 0
    else if (s.part p).defined && (s.part p).owner == 0 then s.wr .DSP_SCHED_orphan p 1
    else s)

/-- Claim the lease (R404): it ends orphan mode; writes to host memory stay stopped (R406). -/
def State.leaseClaim (s : State) (id : Nat) : State :=
  if id % 2 ^ 32 ≠ 0 ∧ (s.rd .EMU_LEASE_HOLDER_holder 0 = 0 ∨ s.flag .EMU_ORPHAN_orphan 0) then
    let s := (s.wr .EMU_LEASE_HOLDER_holder 0 id).wr .EMU_ORPHAN_orphan 0 0
    let s := { s.wr .EMU_ORPHAN_expired 0 0 with fw := { s.fw with leaseAt := s.clocks.get 0 domCPC } }
    s.showOrphan false
  else s.wr .EMU_HW_STAT_lviol 0 1

/-- Renew the lease (R404). -/
def State.leaseRenew (s : State) (id : Nat) : State :=
  if id % 2 ^ 32 ≠ 0 ∧ id % 2 ^ 32 = s.rd .EMU_LEASE_HOLDER_holder 0 then
    { s with fw := { s.fw with leaseAt := s.clocks.get 0 domCPC } }
  else s.wr .EMU_HW_STAT_lviol 0 1

/-- Host-memory writes resume (R406): OVERFLOW records first, then the records of parked copy engines. In orphan mode nothing
resumes. -/
def State.ringsResume (s : State) : State :=
  if s.flag .EMU_ORPHAN_orphan 0 || !s.hostStop then s
  else
    let s := { s with hostStop := false }
    let s := s.each (s.ctxs.map (·.1)) State.evFlush
    s.each (s.engs.map (·.1)) (fun s k =>
      match (s.eng k).cur, (s.eng k).parked with
      | some c, some p => if !p.posted && !p.pri && s.frRoom (s.part (s.ctx c.2.1.ctx).prt).func then s.postRecord k p c.2.1 else s
      | _, _ => s)

/-- `LEASE_CLAIM`. -/
def execLeaseClaim (f id : Nat) (s : State) : Host.Outcome State Fault Refusal :=
  gate s (decide (f < 128)) (if f == 0 && s.leaseUp then s.leaseClaim id else s)

/-- `LEASE_RENEW`. -/
def execLeaseRenew (f id : Nat) (s : State) : Host.Outcome State Fault Refusal :=
  gate s (decide (f < 128)) (if f == 0 && s.leaseUp then s.leaseRenew id else s)

/-- `RINGS`. -/
def execRings (f : Nat) (s : State) : Host.Outcome State Fault Refusal :=
  gate s (decide (f < 128)) (if f == 0 && s.leaseUp then s.ringsResume else s)

/-- `LEASE_EXPIRY` (R404, R405): a renewal in the same CPC cycle leaves the lease renewed. -/
def execLeaseExpiry (s : State) : Host.Outcome State Fault Refusal :=
  gate s true
    (if s.rd .EMU_LEASE_HOLDER_holder 0 = 0 ∨ s.flag .EMU_ORPHAN_orphan 0 ∨ s.fw.leaseAt = s.clocks.get 0 domCPC then s
     else
       let s := { (s.wr .EMU_ORPHAN_orphan 0 1).wr .EMU_ORPHAN_expired 0 1 with hostStop := true }
       (s.showOrphan true).emit (.mgmtEvent mgORPHAN 0))

-- Update --------------------------------------------------------------------------------------------------------------

/-- Whether a message came inside a secured session that is open (R434, R453). -/
def State.inSession (s : State) (m : Mgmt) : Bool :=
  m.secured && s.sec.spdm.any (fun x => x.doe == m.overDoe && x.id == m.sess && x.live && (!x.doe || x.func == m.func))

/-- Whether management answers over I3C: from step 5 on, and in recovery mode (R400, R445). -/
def State.mgmtUp (s : State) : Bool := decide (5 ≤ s.rd .DEV_STAT_step 0) && s.board.dyn != 0

/-- PLDM completion codes of the model's replies: success; a wrong argument; invalid access (R453); verification failed (R409);
not served here. -/
def pcOK : Nat := 0
def pcARG : Nat := 1
def pcACCESS : Nat := 2
def pcVERIFY : Nat := 3
def pcUNSUPPORTED : Nat := 5
def pcBUSY : Nat := 6

/-- Answer a management command. -/
def State.answer (s : State) (code : Nat) (b : List Byte) : State := s.emit (.reply [code] b)

/-- Whether firmware update is offered: not when the part was opened, nor in RETIRED (R417, R439, R440). -/
def State.updateOffered (s : State) : Bool :=
  !s.flag .SEC_STAT_tamper_boot 0 && !s.flag .SEC_STAT_tamper_run 0 && s.rd .SEC_LC_state 0 != lcRETIRED

/-- Write an image to the inactive slot and verify it beside its partner (R409). -/
def State.update (s : State) (comp : Nat) (image : List Byte) : State :=
  let x := s.flash
  if comp = 1 then
    let slot := 1 - x.actK
    let r := x.runtimeAt (if x.pendR then 1 - x.actR else x.actR)
    let ok := s.pairCause image r == 0
    { s with flash := { x with keeper := x.keeper.set slot image, pendK := ok, dirSeq := (x.dirSeq + 1) % 2 ^ 32 } }.answer
      (if ok then pcOK else pcVERIFY) []
  else
    let slot := 1 - x.actR
    let k := x.keeperAt (if x.pendK then 1 - x.actK else x.actK)
    let ok := s.pairCause k image == 0
    { s with flash := { x with runtime := x.runtime.set slot image, pendR := ok, dirSeq := (x.dirSeq + 1) % 2 ^ 32 } }.answer
      (if ok then pcOK else pcVERIFY) []

/-- `FIRMWARE_UPDATE`: over MCTP, inside a secured session; the image fits its slot of 1 or 2 MiB (R450). -/
def execFirmwareUpdate (m : Mgmt) (comp : Nat) (image : List Byte) (s : State) : Host.Outcome State Fault Refusal :=
  gate s true
    (if !s.mgmtUp || m.overDoe then s
     else if !s.inSession m then s.answer pcACCESS []
     else if !s.updateOffered then s.answer pcUNSUPPORTED []
     else if (comp = 1 ∧ image.length ≤ 0x100000) ∨ (comp = 2 ∧ image.length ≤ 0x200000) then s.update comp image
     else s.answer pcARG [])

/-- `LIVE_ACTIVATION` (R410): a pending runtime of the running major interface level replaces the running one; the standby takes the
duties and another core becomes the standby. -/
def execLiveActivation (s : State) : Host.Outcome State Fault Refusal :=
  gate s true
    (let x := s.flash
     let r := x.runtimeAt (1 - x.actR)
     match s.fw.standby with
     | none => s
     | some sb =>
       if s.flag .EMU_HW_STAT_fw_up 0 && x.pendR && imgHil r / 256 == s.rd .EMU_IFLEVEL_hil 0 / 256 then
         let l := (List.range 4).filter (fun c => c != sb && !s.fw.crashed.contains c)
         let s := { s with flash := { x with actR := 1 - x.actR, pendR := false, dirSeq := (x.dirSeq + 1) % 2 ^ 32 },
                           fw := { s.fw with standby := some (l.getD (Config.pick s.tick % max l.length 1) sb) } }
         ((s.showImage 1 r).wr .EMU_IFLEVEL_hil 0 (imgHil r)).wr .EMU_KRL_RT_krl 0 (imgKrl r) |>.ticked
       else s)

end Sys2Proof.Machine
end

