-- ==== Sys2Proof/Machine/EngNorm.lean ====
section
/-! DEFINITION. The attention engine and the norm and activation engine (R135 to R142). -/

namespace Sys2Proof.Machine

-- FP32 on bits --------------------------------------------------------------------------------------------------------

def dec32 (x : Nat) : Val := Fmt.fp32.decode x
def add32 (x y : Nat) : Nat := (fpAdd .fp32 .rne (dec32 x) (dec32 y)).bits
def sub32 (x y : Nat) : Nat := (fpAdd .fp32 .rne (dec32 x) (dec32 y).flip).bits
def mul32 (x y : Nat) : Nat := (fpMul .fp32 .rne (dec32 x) (dec32 y)).bits
def fma32 (x y z : Nat) : Nat := (fpFma .fp32 .rne (dec32 x) (dec32 y) (dec32 z)).bits
def rsqrt32 (x : Nat) : Nat := (fpRsqrt .fp32 .rne (dec32 x)).bits
/-- A quotient of an exact value by a count, rounded once to FP32. -/
def divN (v : Val) (n : Nat) : Nat := (fpDiv .fp32 .rne v (.fin false n 0)).bits
/-- -∞ in FP32. -/
def negInf32 : Nat := 0xFF800000

/-- x − y exactly. -/
def subExact (x y : Val) : Val :=
  match x, y with
  | .fin _ _ _, .fin _ _ _ => sumVal [some x, some y.flip]
  | .nan _ _, _ => .nan false false
  | _, .nan _ _ => .nan false false
  | .inf a, .inf b => if a == b then .nan false false else .inf a
  | .inf a, _ => .inf a
  | _, .inf b => .inf (!b)

-- ATTEND --------------------------------------------------------------------------------------------------------------

/-- The keys and values of one position: K and V rows. -/
structure KV where
  pos : Nat
  k : List Val
  v : List Val
  deriving DecidableEq, Repr

/-- A value with its E8M0 scale (R60). -/
def scaleVal (sc : Nat) (v : Val) : Val :=
  if sc = 255 then .nan false false
  else match v with
    | .fin n m e => .fin n m (e + (sc : Int) - 127)
    | v => v

/-- The K and V row of a token slot out of its page's bytes (R210). -/
def Seq.rowBytes (x : Seq) (t : Nat) (isV : Bool) : Nat × Nat :=
  let h := headDim x.hd
  if x.fmt = 0 then ((if isV then 2 * h * x.tpp else 0) + 2 * h * t, 2 * h)
  else ((if isV then h * x.tpp else 0) + h * t, h)

/-- The scales of a token slot (R210). -/
def Seq.scaleBytes (x : Seq) (t : Nat) (isV : Bool) : Nat × Nat :=
  let h := headDim x.hd
  (2 * h * x.tpp + h / 32 * (if isV then x.tpp + t else t), h / 32)

/-- What the pager's answer does to the command (R138, R188, R209). -/
def Env.pager (x : Env) (r : SeqRes × State) : EngRes (List Byte) :=
  match r with
  | (.ok b, s) => .ok b s
  | (.refused, s) => .err cXLATE 0 s
  | (.poison l, s) => .gone (s.poisonFault x.cap.ctx x.g x.e l)
  | (.poolUE g o, s) => x.poolGone s g o

/-- One row of K or V at a position, through the pager (R210, R216). -/
def Env.kvRow (x : Env) (i pos kvh : Nat) (isV : Bool) (s : State) : EngRes (List Val) :=
  let q := s.seq i
  let page := pos / q.tpp * q.nkvh + kvh
  let t := pos % q.tpp
  let (o, n) := q.rowBytes t isV
  (x.pager (s.pageRead x.cap.ctx i page o n)).bind fun b s =>
    if q.fmt = 0 then .ok ((List.range (n / 2)).map (fun d => Fmt.bf16.decode (fieldAt b (2 * d) 2))) s
    else
      let (so, sn) := q.scaleBytes t isV
      (x.pager (s.pageRead x.cap.ctx i page so sn)).bind fun sb s =>
        .ok ((List.range n).map (fun d => scaleVal (fieldAt sb (d / 32) 1) (Fmt.e4m3.decode (fieldAt b d 1)))) s

/-- Running values of a query row. -/
structure Att where
  m : Nat
  l : Nat
  o : List Nat
  deriving DecidableEq, Repr

/-- The larger of FP32 values, a NaN staying a NaN. -/
def max32 (x y : Nat) : Nat := (fpMinMax .fp32 true x y).bits

/-- One block of 64 positions (R137). -/
def Att.block (a : Att) (scale : Nat) (q : List Val) (js : List KV) : Att :=
  let sc := js.map (fun r => match mulVal (dec32 scale) (sumVal (List.zipWith mulVal q r.k)) with
    | some v => roundVal .fp32 v
    | none => Fmt.fp32.canon)
  let mn := sc.foldl max32 a.m
  let alpha := expCr (sub32 a.m mn)
  let p := sc.map (fun v => expCr (sub32 v mn))
  let l := add32 (mul32 alpha a.l) (roundVal .fp32 (sumVal (p.map (fun v => some (dec32 v)))))
  let o := a.o.zipIdx.map (fun (od, d) =>
    add32 (mul32 alpha od) (roundVal .fp32 (sumVal (List.zipWith (fun pj (r : KV) =>
      mulVal (dec32 pj) (r.v.getD d (.fin false 0 0))) p js))))
  ⟨mn, l, o⟩

/-- Whether a key position is visible to a query position (R136). -/
def visible (lo hi : Nat) (causal : Bool) (window q j : Nat) : Bool :=
  decide (lo ≤ j) && decide (j < hi) && (!causal || decide (j ≤ q)) && (window == 0 || decide (q < j + window))

/-- One query row over the blocks in ascending order (R137). -/
def attendRow (scale hd : Nat) (q : List Val) (kv : List KV) (vis : Nat → Bool) (lo hi : Nat) : Att :=
  let b0 := lo / 64
  ((List.range (ceilDiv hi 64 - b0)).map (· + b0)).foldl (fun (a : Att) b =>
    let js := kv.filter (fun r => r.pos / 64 == b && vis r.pos)
    if js.isEmpty then a else a.block scale q js) ⟨negInf32, 0, List.replicate hd 0⟩

/-- `ATTEND`: checks, then the rows (R135 to R138). -/
def runAttend (x : Env) (s : State) : EngRes (Nat × Nat) :=
  let nq := x.f 0x34 1
  let hdc := x.f 0x35 1
  let fl := x.f 0x37 1
  let lo := x.f 0x1C 4
  let hi := x.f 0x20 4
  let hd := headDim hdc
  let ob := if bit fl 1 then 2 else 4
  let ml := x.f 0x30 4
  if nq = 0 ∨ 128 < nq ∨ 2 < hdc ∨ 8 ≤ fl ∨ !x.zero 0x38 8 ∨ hi ≤ lo then .err cBAD_CMD 0 s
  else
    (x.ranges s ([(x.f 0x10 4, nq * 2 * hd, 128), (x.f 0x14 4, nq * hd * ob, 128)]
      ++ (if ml = noOffset then [] else [(ml, 8 * nq, 128)]))).bind fun _ s =>
    match s.seqOf (s.ctx x.cap.ctx).prt (x.f 0x18 4) with
    | none => .err cSEQ 0 s
    | some i =>
      let sq := s.seq i
      if sq.len < hi then .err cSEQ 0 s
      else if sq.nkvh ≤ x.f 0x36 1 ∨ sq.hd ≠ hdc then .err cBAD_CMD 0 s
      else
        let s := (s.seqStamp i).takeSlot x.g true i
        (x.rd (x.f 0x10 4) (nq * 2 * hd) s).bind fun qb s =>
        let qpos := fun (r : Nat) => x.f 0x24 4 + (if bit fl 2 then r else 0)
        let vis := fun (r : Nat) => visible lo hi (bit fl 0) (x.f 0x2C 4) (qpos r)
        let need := ((List.range (hi - lo)).map (· + lo)).filter (fun j => (List.range nq).any (fun r => vis r j))
        (engFold need ([] : List KV) s fun acc j s =>
          (x.kvRow i j (x.f 0x36 1) false s).bind fun k s =>
          (x.kvRow i j (x.f 0x36 1) true s).bind fun v s => .ok (acc ++ [(⟨j, k, v⟩ : KV)]) s).bind fun kv s =>
        let rows := (List.range nq).map (fun r =>
          attendRow (x.f 0x28 4) hd ((List.range hd).map (fun d => Fmt.bf16.decode (fieldAt qb (2 * (r * hd + d)) 2))) kv
            (vis r) lo hi)
        let out := rows.flatMap (fun a => a.o.flatMap (fun od =>
          let v := if (dec32 a.l).isZero then 0
            else (fpDiv (if ob = 2 then .bf16 else .fp32) .rne (dec32 od) (dec32 a.l)).bits
          natLe ob v))
        (x.wr (x.f 0x14 4) out s).bind fun _ s =>
          if ml = noOffset then .ok (cOK, 0) s
          else (x.wr ml (rows.flatMap (fun a => natLe 4 a.m ++ natLe 4 a.l)) s).bind fun _ s => .ok (cOK, 0) s

/-- `ATTEND`. -/
def execAttend (g : Nat) (s : State) : Host.Outcome State Fault Refusal :=
  checked s (.attend g) (s.startCmd g 0 (· == 1) runAttend)

-- NORM ----------------------------------------------------------------------------------------------------------------

/-- The fields of *NORM body* that every opcode shares. -/
structure Norm where
  src : Nat
  dst : Nat
  aux0 : Nat
  aux1 : Nat
  rows : Nat
  cols : Nat
  eps : Nat
  fin : Nat
  fout : Nat
  func : Nat
  nseg : Nat
  deriving DecidableEq, Repr

/-- Parse the body. -/
def Env.norm (x : Env) : Norm :=
  ⟨x.f 0x10 4, x.f 0x14 4, x.f 0x18 4, x.f 0x1C 4, x.f 0x20 4, x.f 0x24 4, x.f 0x28 4, x.f 0x2C 1, x.f 0x2D 1,
   x.f 0x2E 1, x.f 0x2F 1⟩

/-- Whether the fields are in range: eps finite and not negative, formats and function known, reserved bytes zero. -/
def Norm.ok (n : Norm) (x : Env) (aux1 : Bool) : Bool :=
  decide (1 ≤ n.rows) && decide (n.rows ≤ 65536) && decide (1 ≤ n.cols) && decide (n.cols ≤ 32768)
    && decide (n.eps < 0x7F800000) && decide (n.fin < 2) && decide (n.fout < 2) && decide (n.func < 9)
    && x.zero 0x30 16 && (aux1 || n.aux1 == 0)

/-- Bytes of an element of format code 0 FP32 or 1 BF16. -/
def elBytes (f : Nat) : Nat := if f = 0 then 4 else 2

/-- Row stride (R139), and bytes from the first row to the last. -/
def Norm.stride (n : Norm) (f : Nat) : Nat := ceilDiv (n.cols * elBytes f) 128 * 128
def Norm.span (n : Norm) (f : Nat) : Nat := (n.rows - 1) * n.stride f + n.cols * elBytes f

/-- Elements of a byte string as FP32 bits; BF16 widens exactly. -/
def toFp32s (f : Nat) (b : List Byte) : List Nat :=
  (List.range (b.length / elBytes f)).map (fun i =>
    if f = 0 then fieldAt b (4 * i) 4 else fieldAt b (2 * i) 2 * 65536)

/-- FP32 results in the output format (R77, to nearest even). -/
def fromFp32s (f : Nat) (l : List Nat) : List Byte :=
  l.flatMap (fun v => if f = 0 then natLe 4 (roundVal .fp32 (dec32 v)) else natLe 2 (roundVal .bf16 (dec32 v)))

/-- Row r of an input. -/
def Env.row (x : Env) (n : Norm) (base r : Nat) (s : State) : EngRes (List Nat) :=
  (x.rd (base + r * n.stride n.fin) (n.cols * elBytes n.fin) s).bind fun b s => .ok (toFp32s n.fin b) s

/-- Rows one after the other: a row is a progress unit. -/
def Env.rows (x : Env) (n : Norm) (f : Nat → State → EngRes (List Nat)) (s : State) : EngRes (Nat × Nat) :=
  (engFold (List.range n.rows) () s fun _ r s =>
    ((f r s).bind fun y s => x.wr (n.dst + r * n.stride n.fout) (fromFp32s n.fout y) s).at r).bind
    fun _ s => .ok (cOK, 0) s

/-- γ and β as FP32 bits. -/
def Env.vec (x : Env) (off n : Nat) (s : State) : EngRes (List Nat) :=
  (x.rd off (4 * n) s).bind fun b s => .ok (toFp32s 0 b) s

/-- LayerNorm of one row (R140). -/
def lnormRow (eps : Nat) (x g b : List Nat) : List Nat :=
  let n := x.length
  let vs := x.map dec32
  let mu := divN (sumVal (vs.map some)) n
  let d := vs.map (fun v => subExact v (dec32 mu))
  let var := divN (sumVal (d.map (fun v => mulVal v v))) n
  let r := rsqrt32 (add32 var eps)
  d.zipIdx.map (fun (v, i) =>
    let t := match mulVal v (dec32 r) with
      | some p => roundVal .fp32 p
      | none => Fmt.fp32.canon
    fma32 t (g.getD i 0) (b.getD i 0))

/-- RMSNorm of one row (R140). -/
def rmsRow (eps : Nat) (x g : List Nat) : List Nat :=
  let ms := divN (sumVal (x.map (fun v => mulVal (dec32 v) (dec32 v)))) x.length
  let r := rsqrt32 (add32 ms eps)
  x.zipIdx.map (fun (v, i) => mul32 (mul32 v r) (g.getD i 0))

/-- The ranges of a norm command: input, output, and what else it reads. -/
def Norm.ranges (n : Norm) (more : List (Nat × Nat × Nat)) : List (Nat × Nat × Nat) :=
  [(n.src, n.span n.fin, 128), (n.dst, n.span n.fout, 128)] ++ more

/-- `LNORM`. -/
def runLnorm (x : Env) (s : State) : EngRes (Nat × Nat) :=
  let n := x.norm
  if !n.ok x true then .err cBAD_CMD 0 s
  else
    (x.ranges s (n.ranges [(n.aux0, 4 * n.cols, 128), (n.aux1, 4 * n.cols, 128)])).bind fun _ s =>
    (x.vec n.aux0 n.cols s).bind fun g s =>
    (x.vec n.aux1 n.cols s).bind fun b s =>
    x.rows n (fun r s => (x.row n n.src r s).bind fun v s => .ok (lnormRow n.eps v g b) s) s

/-- `LNORM`. -/
def execLnorm (g : Nat) (s : State) : Host.Outcome State Fault Refusal :=
  checked s (.lnorm g) (s.startCmd g 1 (· == 1) runLnorm)

/-- RMSNORM. -/
def runRmsnorm (x : Env) (s : State) : EngRes (Nat × Nat) :=
  let n := x.norm
  if !n.ok x false then .err cBAD_CMD 0 s
  else
    (x.ranges s (n.ranges [(n.aux0, 4 * n.cols, 128)])).bind fun _ s =>
    (x.vec n.aux0 n.cols s).bind fun g s =>
    x.rows n (fun r s => (x.row n n.src r s).bind fun v s => .ok (rmsRow n.eps v g) s) s

/-- `RMSNORM`. -/
def execRmsnorm (g : Nat) (s : State) : Host.Outcome State Fault Refusal :=
  checked s (.rmsnorm g) (s.startCmd g 1 (· == 2) runRmsnorm)

/-- The FP32 constants of R141: 1/√2, √(2/π), 0.044715, one half, one. -/
def kC1 : Nat := 0x3F3504F3
def kC2 : Nat := 0x3F4C422A
def kC3 : Nat := 0x3D372713
def kHalf : Nat := 0x3F000000
def kOne : Nat := 0x3F800000

/-- The built-in activations (R141). -/
def actFn (func x : Nat) : Nat :=
  match func with
  | 0 => x
  | 1 => match dec32 x with
    | .nan _ _ => Fmt.fp32.canon
    | .inf n => if n then 0 else x
    | .fin n m _ => if n || m == 0 then 0 else x
  | 2 => sigmoidCr x
  | 3 => mul32 x (sigmoidCr x)
  | 4 => mul32 (mul32 kHalf x) (add32 kOne (erfCr (mul32 x kC1)))
  | 5 =>
    let x3 := mul32 (mul32 x x) x
    let u := mul32 kC2 (fma32 kC3 x3 x)
    mul32 (mul32 kHalf x) (add32 kOne (tanhCr u))
  | 6 => tanhCr x
  | 7 => expCr x
  | _ => softplusCr x

/-- ACT. -/
def runAct (x : Env) (s : State) : EngRes (Nat × Nat) :=
  let n := x.norm
  if !n.ok x false then .err cBAD_CMD 0 s
  else
    (x.ranges s (n.ranges [])).bind fun _ s =>
    x.rows n (fun r s => (x.row n n.src r s).bind fun v s => .ok (v.map (actFn n.func)) s) s

/-- `ACT`. -/
def execAct (g : Nat) (s : State) : Host.Outcome State Fault Refusal :=
  checked s (.act g) (s.startCmd g 1 (· == 3) runAct)

/-- ACT_GATED: rne(act(g) × u) (R142). -/
def runActGated (x : Env) (s : State) : EngRes (Nat × Nat) :=
  let n := x.norm
  if !n.ok x false then .err cBAD_CMD 0 s
  else
    (x.ranges s (n.ranges [(n.aux0, n.span n.fin, 128)])).bind fun _ s =>
    x.rows n (fun r s => (x.row n n.src r s).bind fun v s =>
      (x.row n n.aux0 r s).bind fun u s => .ok (List.zipWith (fun a b => mul32 (actFn n.func a) b) v u) s) s

/-- `ACT_GATED`. -/
def execActGated (g : Nat) (s : State) : Host.Outcome State Fault Refusal :=
  checked s (.actGated g) (s.startCmd g 1 (· == 4) runActGated)

/-- A segment of ACT_TABLE: bound and coefficients. -/
structure Segment where
  b : Nat
  c0 : Nat
  c1 : Nat
  c2 : Nat
  c3 : Nat
  deriving DecidableEq, Repr

/-- Whether the bounds are strictly ascending; a NaN is in no order. -/
def ascending : List Segment → Bool
  | a :: b :: t => !(dec32 a.b).isNan && !(dec32 b.b).isNan && decide (cmpVal (dec32 a.b) (dec32 b.b) < 0)
      && ascending (b :: t)
  | [a] => !(dec32 a.b).isNan
  | [] => true

/-- The piecewise cubic of R142. -/
def tableFn (segs : List Segment) (x : Nat) : Nat :=
  if (dec32 x).isNan then Fmt.fp32.canon
  else
    let seg := (segs.filter (fun q => decide (cmpVal (dec32 q.b) (dec32 x) ≤ 0))).getLast?.or segs.head?
    match seg with
    | some q => fma32 (fma32 (fma32 q.c3 x q.c2) x q.c1) x q.c0
    | none => 0

/-- ACT_TABLE. -/
def runActTable (x : Env) (s : State) : EngRes (Nat × Nat) :=
  let n := x.norm
  let k := if n.nseg = 0 then 256 else n.nseg
  if !n.ok x false then .err cBAD_CMD 0 s
  else
    (x.ranges s (n.ranges [(n.aux0, 32 * k, 128)])).bind fun _ s =>
    (x.rd n.aux0 (32 * k) s).bind fun tb s =>
    let segs := (List.range k).map (fun i => (⟨fieldAt tb (32 * i) 4, fieldAt tb (32 * i + 4) 4, fieldAt tb (32 * i + 8) 4,
      fieldAt tb (32 * i + 12) 4, fieldAt tb (32 * i + 16) 4⟩ : Segment))
    if !ascending segs then .err cBAD_CMD 0 s
    else x.rows n (fun r s => (x.row n n.src r s).bind fun v s => .ok (v.map (tableFn segs)) s) s

/-- `ACT_TABLE`. -/
def execActTable (g : Nat) (s : State) : Host.Outcome State Fault Refusal :=
  checked s (.actTable g) (s.startCmd g 1 (· == 5) runActTable)

end Sys2Proof.Machine
end

