-- ==== Sys2Proof/Machine/Engines.lean ====
section
/-! DEFINITION. What happens to engines apart from their commands: completion, ring configuration, resets, stale arrivals
(R122 to R134, R164, R475). -/

namespace Sys2Proof.Machine

/-- Opcodes of an engine beside the no-op. -/
def engOps (e : Nat) : Nat :=
  match e with
  | 0 => 1
  | 1 => 5
  | 2 => 3
  | 3 => 4
  | 4 => 3
  | 5 => 4
  | 6 | 7 => 3
  | _ => 2

/-- Whether an opcode is reserved for an engine (R124, R127). -/
def engReserved (e op : Nat) : Bool := op != 0 && decide (engOps e < op)

/-- Complete the command that has made all its writes; one of a context that has moved on is discarded (R126, R132). -/
def State.completeEng (s : State) (g e : Nat) : State :=
  match s.curEnv g e, (s.eng (engKey g e)).phase with
  | some x, .finished code info count =>
    let s := s.freeEng g e
    if s.capStale x.cap then s.unpost x.cap.task else s.completeCmd x code info count
  | _, _ => s

/-- `ENGINE_NOP`: opcode 0 completes at once (R124). -/
def execEngineNop (g e : Nat) (s : State) : Host.Outcome State Fault Refusal :=
  checked s (.engineNop g e)
    (if (s.eng (engKey g e)).cur.isSome then s
     else (s.startCmd g e (· == 0) (fun _ s => .ok (cOK, 0) s)).completeEng g e)

/-- `COMMAND_COMPLETE`: an engine command ends (R126, R127). A head entry with a reserved opcode ends with BAD_CMD; relay
slots that are through complete too (R153). -/
def execCommandComplete (g e : Nat) (s : State) : Host.Outcome State Fault Refusal :=
  checked s (.commandComplete g e)
    (let s := if e = 4 then s.finishRelays g else s
     let s := s.engAdvance g e 3
     let s := if (s.eng (engKey g e)).cur.isNone then s.startCmd g e (engReserved e) (fun _ s => .err cBAD_CMD 0 s) else s
     s.completeEng g e)

/-- `GAL_ENG_RST`: only the physical function resets an engine (R164). -/
def execGalEngRst (src : Src) (g e : Nat) (s : State) : Host.Outcome State Fault Refusal :=
  checked s (.galEngRst src g e)
    (if src.isPf && s.reachesSlice src g then s.resetEngine g e false else s)

/-- `MISSED_STOP_TIME`: the engine is reset (R375 row 1). -/
def execMissedStopTime (g e : Nat) (s : State) : Host.Outcome State Fault Refusal :=
  checked s (.missedStopTime g e) (s.resetEngine g e false)

/-- `STALE_ARRIVAL` (R132). -/
def execStaleArrival (g e : Nat) (s : State) : Host.Outcome State Fault Refusal :=
  checked s (.staleArrival g e) (s.count .GAL_ENG_STALE_count .GAL_ENG_STALE_ovf (engKey g e) 1)

-- Rings ---------------------------------------------------------------------------------------------------------------

/-- Whether a ring may not be enabled: size, end of the pool, semaphore region, other enabled rings of the gallery (R122). -/
def State.ringBad (s : State) (g e base size : Nat) : Bool :=
  let off := base * 64
  let len := 64 * 2 ^ size
  decide (size < 4) || decide (12 < size) || decide (poolSize < off + len) || s.inSems g off len
    || (List.range 9).any (fun j =>
      let k := engKey g j
      j != e && s.flag .GAL_ENG_RING_en k && overlap off len (s.rd .GAL_ENG_RING_base k * 64) (64 * s.ringSize k))

/-- A new ring configuration (R122, R475). -/
def State.setRing (s : State) (g e base size en : Nat) : State :=
  let k := engKey g e
  let s := (s.endEngine g e).modEng k (fun y => { y with caps := [] })
  let s := (s.wr .GAL_ENG_PTR_head k 0).wr .GAL_ENG_PTR_tail k 0
  let s := ((s.wr .GAL_ENG_RING_base k base).wr .GAL_ENG_RING_size k size).wr .GAL_ENG_RING_en k 0
  let bad := s.ringBad g e base size
  if en = 1 ∧ s.engEnabled g e then
    (s.wr .GAL_ENG_RING_en k (b2n !bad)).wr .GAL_ENG_STAT_cfg_err k (b2n bad)
  else if size < 4 ∨ 12 < size then s.wr .GAL_ENG_STAT_cfg_err k 1
  else s

/-- `GAL_ENG_RING`: a write that changes nothing has no effect. -/
def execGalEngRing (src : Src) (g e base size en : Nat) (s : State) : Host.Outcome State Fault Refusal :=
  checked s (.galEngRing src g e base size en)
    (let k := engKey g e
     let own := s.prtOf g
     let base := base % 2 ^ 19
     let size := size % 16
     let en := en % 2
     let same := s.rd .GAL_ENG_RING_base k == base && s.rd .GAL_ENG_RING_size k == size && s.rd .GAL_ENG_RING_en k == en
     if !s.reachesSlice src g || s.sealedPrt own || same then s else s.setRing g e base size en)

end Sys2Proof.Machine
end

