-- ==== Sys2Proof/Machine/Loss.lean ====
section
/-! DEFINITION. The loss of a gallery: replacement by a spare with replay from the last complete mark, or exclusion (R380 to
R385, R339, R246). A replacement is one step of the model, from the detection to the restart. -/

namespace Sys2Proof.Machine

-- Tasks and commands of a lost gallery --------------------------------------------------------------------------------

/-- Whether a command writes to a remote window: COLL SEND and RELAY, and GSC or COPY commands with such a destination (R383). -/
def Env.sendsRemote (x : Env) (s : State) : Bool :=
  let far := fun (a : EAddr) => match a with
    | .far va => isWindow va
    | _ => false
  match x.e, x.f 0 1 with
  | 4, 2 | 4, 3 => true
  | 2, 2 =>
    let tb := s.poolRd x.g x.moe.dest (16 * x.moe.nexp)
    (List.range x.moe.nexp).any (fun e => far (expert tb e).1 || far (expert tb e).2)
  | 6, _ | 7, _ => far x.copy.dst
  | _, _ => false

/-- Commands of a gallery's engines that have been taken from their rings: the running one and the armed relays. -/
def State.startedOn (s : State) (g e : Nat) : List Env :=
  let x := s.eng (engKey g e)
  (match x.cur with
    | some (b, c, i) => [⟨g, e, b, c, i⟩]
    | none => []) ++ x.relays.map (fun r => ⟨g, e, r.cmd, r.cap, r.idx⟩)

/-- The contexts that have commands in a gallery's engines. -/
def State.cmdCtxs (s : State) (g : Nat) : List Nat :=
  ((List.range 9).flatMap (fun e =>
    (s.startedOn g e).map (fun x => x.cap.ctx) ++ (s.eng (engKey g e)).caps.map (fun c => c.2.ctx))).eraseDups

/-- Tasks that hold or reserve a gallery. -/
def State.tasksOn (s : State) (g : Nat) : List Nat := s.subsOn g (fun st => st == .placed || st == .suspended)

/-- The mark from which a task would be replayed, or why it cannot be: the detail of NOREPLAY (R371, R381 to R383). That of a
remote command which makes replay impossible is open. -/
def State.replayMark (s : State) (g t : Nat) : Nat ⊕ Nat :=
  let u := s.sub t
  let m := s.completeMark t
  if !(s.subProg u).replay then .inr 0
  else if m = 0 || !u.gals.all (fun h => (s.gal h).shadow.any (fun sv => sv.marks == m)) then .inr 1
  else if u.gals.any (fun h => (s.gal h).journalFull) then .inr 2
  else if (List.range 9).any (fun e => (s.startedOn g e).any (fun x =>
      x.cap.task == t && decide (m ≤ x.cap.mark) && x.sendsRemote s)) then .inr (Config.replayDetail s.tick % 256)
  else .inl m

-- Replacement ---------------------------------------------------------------------------------------------------------

/-- Pool ranges that a replacement copies (step 3): windows of tasks and of resident programs, the semaphore region, engine
rings, the pager region. -/
def State.copied (s : State) (p g : Nat) : List (Nat × Nat) :=
  let wins := (s.tasksOn g).map (fun t => ((s.progOf t).base, (s.progOf t).size))
  let progs := (s.progs.filter (fun e => e.1 / 256 == p && e.2.resident.contains g)).map (fun e => (e.2.base, e.2.size))
  let rings := ((List.range 9).filter (fun e => s.flag .GAL_ENG_RING_en (engKey g e))).map
    (fun e => (s.rd .GAL_ENG_RING_base (engKey g e) * 64, 64 * s.ringSize (engKey g e)))
  wins ++ progs ++ [(s.semOff g 0, 0x80000)] ++ rings ++ [s.pagerRegion g]

/-- Copy a pool range to another gallery, poison with it. -/
def State.copyPool (s : State) (g sp : Nat) (r : Nat × Nat) : State :=
  let bad := (s.poolErr.filter (fun e => e.1 / 2 ^ 20 == g && 2 < e.2)).map (fun e => (e.1 % 2 ^ 20, e.2))
  let cws := (if bad.isEmpty then [] else pagesOf r.1 r.2 32).filter (fun w => bad.any (fun e => e.1 == s.cwKey g (32 * w) % 2 ^ 20))
  let s := s.putCells sp r.1 r.2 (s.poolCells g r.1 r.2)
  let s := s.each (if s.poolErr.any (fun e => e.1 / 2 ^ 20 == sp) then pagesOf r.1 r.2 32 else []) (fun s w =>
    { s with poolErr := s.poolErr.set 0 (s.cwKey sp (32 * w)) 0 })
  s.each cws (fun s w => { s with poolErr := s.poolErr.set 0 (s.cwKey sp (32 * w)) 255 })

/-- The registers of a gallery that say where rings, semaphores and pager region lie. -/
def State.copyPlaces (s : State) (g sp : Nat) : State :=
  let s := s.wr .GAL_SEM_BASE_base sp (s.rd .GAL_SEM_BASE_base g)
  let s := (s.wr .GAL_POOL_PAGER_base sp (s.rd .GAL_POOL_PAGER_base g)).wr .GAL_POOL_PAGER_pages sp
    (s.rd .GAL_POOL_PAGER_pages g)
  s.each (List.range 9) (fun s e =>
    [Fld.GAL_ENG_RING_base, .GAL_ENG_RING_size, .GAL_ENG_RING_en, .GAL_ENG_WDOG_bound, .GAL_ENG_WDOG_wait,
     .GAL_ENG_PTR_head, .GAL_ENG_PTR_tail].foldl (fun s f => s.wr f (engKey sp e) (s.rd f (engKey g e))) s)

/-- Discard the commands of a task posted after a mark in one engine (step 5): those in the ring become entries that name
nothing, which the engine passes over. -/
def State.dropLater (s : State) (t m k : Nat) : State :=
  let late := fun (c : Captured) => c.task == t && decide (m ≤ c.mark)
  let x := s.eng k
  let cur := match x.cur with
    | some (_, c, _) => late c
    | none => false
  let n := (x.caps.filter (fun c => late c.2)).length + b2n cur + (x.relays.filter (fun r => late r.cap)).length
  let y := { x with caps := x.caps.filter (fun c => !late c.2), relays := x.relays.filter (fun r => !late r.cap) }
  let s := if cur then
      ((s.orphanEng k).setEng k { y with cur := none, phase := .idle, parked := none }).wr .GAL_ENG_STAT_state k 0
    else s.setEng k y
  let s := s.wr .GAL_ENG_STAT_relays k (b2n (!y.relays.isEmpty))
  s.each (List.range n) (fun s _ => s.unpost t)

/-- Move the engines of the lost gallery to the spare (R383): what had started runs again from its start, but remote commands
end with ENGINE_RESET and their contexts take REMOTE_LOST. -/
def State.moveEngine (s : State) (g sp e : Nat) : State :=
  let k := engKey g e
  let k' := engKey sp e
  let lost := (s.startedOn g e).filter (fun x => x.sendsRemote s)
  let x := s.eng k
  let again := match s.curEnv g e with
    | some c => !c.sendsRemote s
    | none => false
  let s := (s.orphanEng k).setEng k { Eng.idle with expiries := x.expiries }
  let s := s.setEng k' { x with cur := if again then x.cur else none, phase := .idle, parked := none, relays := [],
                                expiries := (s.eng k').expiries }
  let s := ((s.wr .GAL_ENG_STAT_relays k 0).wr .GAL_ENG_STAT_state k 0).wr .GAL_ENG_STAT_state k' (b2n again)
  s.each lost (fun s c =>
    let s := s.completeCmd { c with g := sp } cENGINE_RESET 0 0
    s.ctxFault c.cap.ctx cfREMOTE_LOST (c.f 0 1) sp e c.idx)

/-- Pages in the lost gallery's region stand in the spare's, and moves to it go there (step 4); its slots and hints go. -/
def State.movePages (s : State) (g sp : Nat) : State :=
  let mv := fun (n : Nat) => if n / 256 = g then 256 * sp + n % 256 else n
  let hints := (s.pgal g).slots.map (·.2)
  let s := s.each hints State.cancelHint
  let order := (s.pgal g).order
  let s := s.each order (fun s q =>
    let e := (s.seq q.1).page q.2
    s.setPage q.1 q.2 { e with frame := if e.tier = 1 then mv e.frame else e.frame, tgt := if e.busy then mv e.tgt else e.tgt })
  { s with pgals := (s.pgals.set .empty g .empty).set .empty sp { PGal.empty with order := order } }

/-- Undo the journalled increments of a gallery that a replay repeats (step 5). -/
def State.undoJournal (s : State) (g m : Nat) : State :=
  let l := (s.gal g).journal.filter (fun e => decide (m ≤ e.2.2))
  let s := s.each l (fun s e =>
    s.poolWr g (s.semOff g e.1) (natLe 8 ((s.sem g e.1 + 2 ^ 64 - e.2.1 % 2 ^ 64) % 2 ^ 64)))
  s.modGal g (fun x => { x with journal := x.journal.filter (fun e => !decide (m ≤ e.2.2)) })

/-- Forget the far moves of a gallery: their responses are dropped. -/
def State.orphanFars (s : State) (g : Nat) : State :=
  { s with reqs := s.reqs.map (fun (r : Req) => match r.owner with
      | .far h _ => if h == g then { r with owner := .gone } else r
      | _ => r) }

/-- Load every gallery of a task's run with the state of a mark; the span starts again under R32 (steps 5 and 6). -/
def State.replayTask (s : State) (t m : Nat) (run : List Nat) : State :=
  let u := s.sub t
  let saved := u.gals.zipIdx.filterMap (fun e => ((s.gal e.1).shadow.find? (fun sv => sv.marks == m)).map (fun sv => (e.2, sv)))
  let js := u.gals.zip run |>.map (fun e => (e.2, (s.gal e.1).journal, (s.gal e.1).journalFull))
  let s := s.each u.gals (fun s g => (s.account t (s.gal g).used).orphanFars g |>.releaseGal g)
  let s := s.modSub t (fun u => { u with stage := .placed, gals := run, saved := saved, yielded := [], endedGals := [] })
  let s := s.each run (fun s g => s.armGal g t)
  s.each js (fun s e => s.modGal e.1 (fun x => { x with journal := e.2.1, journalFull := e.2.2 }))

/-- The spare takes a lost gallery's residency mark for a program of the partition (R382). -/
def Prog.takeMark (p g sp : Nat) (e : Nat × Prog) : Nat × Prog :=
  if e.1 / 256 = p ∧ e.2.resident.contains g ∧ !e.2.resident.contains sp then
    (e.1, { e.2 with resident := e.2.resident ++ [sp] })
  else e

/-- A spare takes the place of a gallery (R382). replay is the loaded task and its mark. -/
def State.replaceGal (s : State) (p g sp : Nat) (replay : Option (Nat × Nat)) : State :=
  let s := s.each (s.copied p g) (fun s r => s.copyPool g sp r)
  let s := s.copyPlaces g sp
  let x := s.part p
  let s := s.setPart p { x with order := x.order.map (fun n => if n = g then sp else n) }
  let s := { s with progs := s.progs.map (Prog.takeMark p g sp) }
  let s := s.movePages g sp
  let swap := fun (l : List Nat) => l.map (fun n => if n = g then sp else n)
  let s := match replay with
    | some (t, m) => s.each (List.range 32) (fun s h => s.each (List.range 9) (fun s e => s.dropLater t m (engKey h e)))
    | none => s
  let s := s.each (List.range 9) (fun s e => s.moveEngine g sp e)
  let s := match replay with
    | some (t, m) =>
      let run := swap (s.sub t).gals
      let s := s.replayTask t m run
      s.each run (fun s h => s.undoJournal h m)
    | none => s
  -- tasks that reserve the gallery
  let s := s.each (s.subsOn g (fun st => st == .suspended)) (fun s t => s.modSub t (fun u =>
    { u with gals := swap u.gals, yielded := swap u.yielded }))
  ((s.releaseGal g).showSusp g).showSusp sp

/-- What remains of a lost gallery that nothing replaces: no task, no command, never free (R385). -/
def State.excludeGal (s : State) (g : Nat) : State :=
  let s := s.each (List.range 9) (fun s e =>
    let k := engKey g e
    (((s.orphanEng k).setEng k { Eng.idle with expiries := (s.eng k).expiries }).wr .GAL_ENG_STAT_state k 0).wr
      .GAL_ENG_STAT_relays k 0)
  let s := s.each ((s.pgal g).slots.map (·.2)) State.cancelHint
  (s.orphanFars g).releaseGal g

/-- The mirror partner becomes home for the sessions whose home port's slice is lost (R339). -/
def State.loseHome (s : State) (n : Nat) : State :=
  let ss := (s.sesss.filter (fun e => e.2.st != 0 && s.homePort e.2 == n)).map (·.1)
  s.each ss (fun s i => s.modSess i (fun x =>
    { x with homeLost := x.homeLost ++ [n], marks := x.mirror,
             high := x.mirror.foldl (fun h m => match h with
               | none => some m.1
               | some a => some (if lt32 a m.1 then m.1 else a)) none }))

/-- Note a gallery as lost (R385, R395). -/
def State.markLost (s : State) (g : Nat) : State :=
  let s := s.wr .RAS_LOST_gal 0 (s.rd .RAS_LOST_gal 0 ||| 2 ^ g)
  { s with ras := { s.ras with lost := s.ras.lost ++ [g] } }

/-- The RAS record of a gallery's loss: row 6 replaced, row 7 excluded (R394). -/
def State.lossRecord (s : State) (g p dom : Nat) (replaced : Bool) : State :=
  s.rasRecord ⟨3, if replaced then 6 else 7, if replaced then 3 else 4, uGALLERY, g, p, dom, 0, 0⟩

/-- A gallery ends without replacement: the contexts that ran on it take NOREPLAY (R385). -/
def State.loseAlone (s : State) (g detail : Nat) : State :=
  let ts := s.tasksOn g
  let cs := (ts.map (fun t => ((s.sub t).ctx, s.completeMark t))) ++
    ((s.cmdCtxs g).filter (fun c => !ts.any (fun t => (s.sub t).ctx == c))).map (fun c => (c, 0))
  let s := s.each cs (fun s e => if (s.ctx e.1).st == 0 then s else s.ctxFault e.1 cfNOREPLAY detail g 0xFF e.2)
  s.excludeGal g

/-- The loss of a gallery's logic domain (R375, R382, R385). One already lost is not lost again; a commit rolls back (R246). -/
def State.loseGal (s : State) (g dom : Nat) : State :=
  if s.ras.lost.contains g then s
  else
    let s := (s.rollBack.count .RAS_CNT_UNIT_count .RAS_CNT_UNIT_ovf 0 1).markLost g
    match s.prtOf g with
    | none => (s.excludeGal g).lossRecord g 0xFF dom false
    | some p =>
      let x := s.part p
      let s := if x.octets.contains g then s.loseHome g else s
      let sp := if x.order.contains g then (s.freeSpares p).find? (fun n => covers x.order n g) else none
      let run := (s.subsOn g (fun st => st == .placed)).head?
      let r : Option (Nat × Nat) ⊕ Nat := match run with
        | none => .inl none
        | some t => match s.replayMark g t with
          | .inl m => .inl (some (t, m))
          | .inr d => .inr d
      match sp, r with
      | some n, .inl rep => ((s.replaceGal p g n rep).showOrder p).lossRecord g p dom true
      | some _, .inr d => ((s.loseAlone g d).showOrder p).lossRecord g p dom false
      | none, _ => ((s.loseAlone g 4).showOrder p).lossRecord g p dom false

/-- `ECHO_TIMEOUT`. -/
def execEchoTimeout (g : Nat) (s : State) : Host.Outcome State Fault Refusal :=
  gate s (decide (g < 32)) (s.loseGal g domECHO)

/-- `INTERNAL_CHECK`. -/
def execInternalCheck (g : Nat) (s : State) : Host.Outcome State Fault Refusal :=
  gate s (decide (g < 32)) (s.loseGal g (hallDom g))

/-- Echo cycles in 1 s. -/
def echoSecond : Nat := 1200000000

/-- Whether an engine's watchdog runs: a command is taken and makes no progress, and it waits neither on its semaphore nor
parked (R133). -/
def State.dogRuns (s : State) (k : Nat) : Bool :=
  let x := s.eng k
  match x.cur, x.phase, x.parked with
  | some _, .waiting _, none => true
  | _, _, _ => false

/-- `ENGINE_WATCHDOG`: the engine is reset; a fourth expiry within 1 s is the loss of the gallery (R134, R375 row 2). -/
def execEngineWatchdog (g e : Nat) (s : State) : Host.Outcome State Fault Refusal :=
  checked s (.engineWatchdog g e)
    (let k := engKey g e
     if !s.dogRuns k then s
     else
       let now := s.clocks.get 0 domECHO
       let l := (s.eng k).expiries.filter (fun t => decide (now - t < echoSecond)) ++ [now]
       let s := (s.modEng k (fun x => { x with expiries := l })).resetEngine g e true
       if 4 ≤ l.length then s.loseGal g (hallDom g) else s)

/-- `CONTEXT_WATCHDOG`: the head of a loaded task whose span runs has counted its period (R374). -/
def execContextWatchdog (g : Nat) (s : State) : Host.Outcome State Fault Refusal :=
  gate s (decide (g < 32))
    (match (s.gal g).task with
     | some t => if s.isHead g && (s.sub t).stage == .placed then
         s.ctxFault (s.sub t).ctx cfWATCHDOG 0 g 0xFF (s.rd .RAS_CTX_WDOG_ms (s.sub t).prt)
       else s
     | none => s)

end Sys2Proof.Machine
end

