-- ==== Sys2Proof/Machine/Recovery.lean ====
section
/-! DEFINITION. Escalation and resets: partition reset, chip warm reset, power cycle, shared structures, mesh stops (R352, R375 to
R377, R386 to R389). An escalation makes a reset due and freezes what it resets; the command of the reset runs it in one step, log
entries 33 and 34. -/

namespace Sys2Proof.Machine

-- Partition reset -----------------------------------------------------------------------------------------------------

/-- Zero a pool range: its codewords are clean. -/
def State.clearPool (s : State) (g off n : Nat) : State :=
  let s := s.poolZero g off n
  s.each (if s.poolErr.any (fun e => e.1 / 2 ^ 20 == g) then pagesOf off n 32 else []) (fun s w =>
    { s with poolErr := s.poolErr.set 0 (s.cwKey g (32 * w)) 0 })

/-- Reset a gallery's engines and disarm its relays; ring entries and pointers are cleared (steps 4 and 5). -/
def State.resetEngines (s : State) (g : Nat) : State :=
  s.each (List.range 9) (fun s e =>
    let k := engKey g e
    let s := if s.flag .GAL_ENG_RING_en k then s.clearPool g (s.rd .GAL_ENG_RING_base k * 64) (64 * s.ringSize k) else s
    let s := (((s.orphanEng k).setEng k .idle).wr .GAL_ENG_STAT_state k 0).wr .GAL_ENG_STAT_relays k 0
    (s.wr .GAL_ENG_PTR_head k 0).wr .GAL_ENG_PTR_tail k 0)

/-- Reset a gallery's logic (steps 4 and 5); its pages in the pager region stay. -/
def State.resetGal (s : State) (g : Nat) : State :=
  let s := s.each ((s.pgal g).slots.map (·.2)) State.cancelHint
  let s := (s.modPgal g (fun y => { y with slots := [] })).resetEngines g
  let s := (s.orphanFars g).releaseGal g
  let s := s.clearPool g (s.semOff g 0) 0x80000
  (s.setGal g .idle).setNumFlags g 0

/-- One context in a partition reset: it takes PRT_RESET and is aborted; one that is being destroyed stays so (R386). -/
def State.resetCtx (s : State) (c row : Nat) : State :=
  let s := s.event c 0 (faultValue cfPRT_RESET row 0 0xFF 0) c evCTX_FAULT eFAULT
  if (s.ctx c).st = 4 then s.abortWork c
  else (s.abortCtx c).modCtx c (fun x => { x with code := cfPRT_RESET })

/-- Copies of a partition's programs stop. -/
def Prog.stopLoads (p : Nat) (e : Nat × Prog) : Nat × Prog :=
  if e.1 / 256 = p then (e.1, { e.2 with loading := [] }) else e

/-- A partition reset (R386). row is the *Escalation* row that triggered it. -/
def State.resetPrt (s : State) (p row : Nat) : State :=
  let s := if s.flag .RAS_ESC_CTRL_dump_prt 0 then (s.startDump 1 p).finishDump else s
  let s := s.each ((s.ctxs.filter (fun e => e.2.st != 0 && e.2.prt == p)).map (·.1)) (fun s c => s.resetCtx c row)
  let x := s.part p
  let s := s.each (x.slices ++ x.spares) State.resetGal
  let s := { s with ownCache := s.ownCache.clearRange (p * 2 ^ 32) ((p + 1) * 2 ^ 32), ownPend := s.ownPend.set 0 p 0,
                    lats := s.lats.clearRange (p * 1024) ((p + 1) * 1024),
                    tokens := s.tokens.clearRange (p * 1024) ((p + 1) * 1024),
                    progs := s.progs.map (Prog.stopLoads p) }
  let s := (s.wr .MEM_OWN_CMD_busy p 0).tdiFail p 2
  let s := { s with ras := { s.ras with frozen := s.ras.frozen.filter (· != p),
                                        due := s.ras.due.filter (fun d => d.prt != some p) } }
  (s.count .RAS_CNT_PRT_count .RAS_CNT_PRT_ovf 0 1).rasRecord ⟨4, 4, 7, uPARTITION, p, p, domECHO, 0, 0⟩

/-- `PARTITION_RESET`: due by escalation, or requested by RAS_RESET.prt_go or management. -/
def execPartitionReset (src : Src) (p : Nat) (s : State) : Host.Outcome State Fault Refusal :=
  gate s (src.ok && decide (p < 32))
    (if !(s.part p).defined then s
     else match s.ras.due.find? (fun d => d.prt == some p) with
       | some d => s.resetPrt p d.row
       | none => if s.pfOrMgmt src then s.resetPrt p 4 else s)

-- Power cycle ---------------------------------------------------------------------------------------------------------

/-- Ask for a power cycle (R388): FAULT_N, the dump, the record, PWRCYC_REQ_N; the units stay frozen. -/
def State.askCycle (s : State) : State :=
  if s.flag .RAS_STAT_cycle 0 then s
  else
    let s := ((s.wr .RAS_STAT_fault 0 1).startDump 3 0xFF).finishDump
    let s := (s.rasRecord ⟨6, 6, 9, uDEVICE, 0, 0xFF, domECHO, 0, 0⟩).wr .RAS_STAT_cycle 0 1
    { s with pwr := { s.pwr with stop := max s.pwr.stop 1 }, ras := { s.ras with due := [] } }

/-- A fault of row 6: with `auto_cycle` at 0 it is reported, and the request waits (R375). -/
def State.escalateCycle (s : State) : State :=
  if s.flag .RAS_STAT_cycle 0 then s
  else if s.flag .RAS_ESC_CTRL_auto_cycle 0 then s.askCycle
  else
    let s := s.rasRecord ⟨6, 6, 0, uDEVICE, 0, 0xFF, domECHO, 0, 0⟩
    { s.wr .RAS_STAT_fault 0 1 with pwr := { s.pwr with stop := max s.pwr.stop 1 } }

/-- `POWER_CYCLE`. -/
def execPowerCycle (src : Src) (s : State) : Host.Outcome State Fault Refusal :=
  gateHeld s src.ok (if s.pfOrMgmt src then s.askCycle else s)

-- Chip warm reset -----------------------------------------------------------------------------------------------------

/-- Copy the fields of one register instance from an earlier state. -/
def State.keepReg (old s : State) (r : Reg) (i : Nat) : State := r.fields.foldl (fun s f => s.wr f i (old.rd f i)) s

/-- Copy one field at every instance. -/
def State.keepFld (old s : State) (f : Fld) : State :=
  (List.range f.desc.reg.place.count).foldl (fun s i => s.wr f i (old.rd f i)) s

/-- Registers that keep their values across a chip warm reset (R379, R395, R441). -/
def keptRegs : List Reg :=
  [.RAS_STAT, .RAS_EVQ_BASE, .RAS_ESC_CTRL, .RAS_RESET, .RAS_LOST, .RAS_DUMP_CTRL, .RAS_DUMP_STAT, .RAS_DUMP_DST, .RAS_EVQ_TAIL,
   .RAS_EVQ_HEAD, .RAS_DUMP_LOST, .RAS_CNT_CTX, .RAS_CNT_UNIT, .RAS_CNT_PRT, .RAS_CNT_CHIP, .RAS_CNT_DROP, .RAS_CTX_WDOG,
   .SEC_LC, .SEC_STAT, .SEC_IDPUB, .SEC_OWNER_KID, .SEC_OWNER_SHADOW_KID, .SEC_FW_KID, .SEC_SLOT_USE, .SEC_KEY_STALE,
   .HTN_AN_LP, .MEM_DDR_STAT, .DEV_ID, .DEV_COMPAT_LEVEL]

/-- Fields that the trained PHYs keep. -/
def keptFlds : List Fld :=
  [.HTN_PORT_STAT_state, .HTN_PORT_STAT_rank, .HTN_PORT_STAT_lanes, .HTN_PORT_STAT_eth, .MEM_HBM_STAT_state]

/-- What the PCI Express controller keeps of a function. -/
def Func.warm (x : Func) : Func := { Func.reset with d3 := x.d3, held := x.held, msix := x.msix }

/-- The chip domain at reset (steps 3 to 5): everything goes but what R379 lists. -/
def State.chipCleared (s : State) : State :=
  let s := s.destroyKeys
  let n : State :=
    { State.reset with
      funcs := s.funcs.map (fun e => (e.1, e.2.warm)), softRows := s.softRows, softLanes := s.softLanes,
      chans := s.chans.map (fun e => (e.1, { Chan.reset with dead := e.2.dead })), lineErr := s.lineErr,
      slots := s.slots, retired := s.retired, sec := { s.sec with goal := none, conns := [], spdm := [] },
      flash := s.flash, pwr := { Pwr.reset with trip := s.pwr.trip }, board := s.board, host := s.host, clocks := s.clocks,
      ras := { s.ras with lost := [], frozen := [], due := [], fencedCopies := [], fencedStops := [] }, out := s.out,
      tick := s.tick, pending := s.pending }
  let n := keptRegs.foldl (fun n r => (List.range r.place.count).foldl (fun n i => s.keepReg n r i) n) n
  keptFlds.foldl (fun n f => s.keepFld n f) n

/-- Lost channels are trained again, degraded ones are whole (step 6). -/
def State.retrain (s : State) (t : Tests) : State :=
  let s := s.each (List.range 256) (fun s n =>
    match s.rd .MEM_HBM_STAT_state n with
    | 3 => s.train t.hbm n
    | 2 | 4 => s.wr .MEM_HBM_STAT_state n 1
    | _ => s)
  s.each (List.range 12) (fun s d => if s.rd .MEM_DDR_STAT_state d = 3 then s.train (t.ddr.map (256 + ·)) (256 + d) else s)

/-- Echo cycles in 60 s. -/
def echoMinute : Nat := 72000000000

/-- A chip warm reset (R387): a third within 60 s becomes a power cycle (R375 row 5). A part found open stays in recovery mode
(R439, R440). -/
def State.resetChip (s : State) (t : Tests) : State :=
  let now := s.clocks.get 0 domECHO
  let l := s.ras.chipTimes.filter (fun k => decide (now - k < echoMinute))
  if 2 ≤ l.length then s.escalateCycle
  else
    let s := s.wr .RAS_STAT_fault 0 1
    let s := (if s.flag .RAS_ESC_CTRL_dump_chip 0 then s.startDump 2 0xFF else s).finishDump
    let s := s.chipCleared
    let s := { s with ras := { s.ras with chipTimes := l ++ [now] } }
    let s := s.startFw (!(s.flag .SEC_STAT_tamper_boot 0 || s.flag .SEC_STAT_tamper_run 0))
    let s := if s.recovering then s else (s.marchAll t.march).retrain t
    let s := s.each (List.range 32) (fun s n =>
      if s.linkUp n then s else ((s.wr .HTN_PORT_STAT_state n 1).wr .HTN_PORT_STAT_rank n 0).wr .HTN_PORT_STAT_lanes n 0)
    let s := (s.wr .RAS_STAT_fault 0 0).count .RAS_CNT_CHIP_count .RAS_CNT_CHIP_ovf 0 1
    let s := s.rasRecord ⟨5, 5, 8, uDEVICE, 0, 0xFF, domECHO, 0, 0⟩
    if s.recovering then s else s.slowStart.bootFlags.ready

/-- `CHIP_WARM_RESET`: due, or requested by RAS_RESET.chip_go or management; not once a power cycle is asked for. -/
def execChipWarmReset (src : Src) (t : Tests) (s : State) : Host.Outcome State Fault Refusal :=
  gateHeld s src.ok
    (if s.flag .RAS_STAT_cycle 0 then s
     else if s.ras.due.any (fun d => d.prt == none) || s.pfOrMgmt src then s.resetChip t
     else s)

-- Detectors -----------------------------------------------------------------------------------------------------------

/-- `ESCALATION`: a recovery action missed its bound, and the action of the next row starts (R375). -/
def execEscalation (row unit : Nat) (s : State) : Host.Outcome State Fault Refusal :=
  gate s (decide (2 ≤ row) && decide (row ≤ 6)
      && (if row = 2 then decide (unit < 512) && decide (unit % 16 < 9) else decide (unit < 32)))
    (match row with
     | 2 => s.resetEngine (unit / 16) (unit % 16) false
     | 3 => s.loseGal unit domECHO
     | 4 => s.escalatePrt unit 4
     | 5 => s.escalateChip
     | _ => s.escalateCycle)

/-- `SHARED_STRUCTURE_FAULT` (R376): a wrong value is rewritten from the other copy, a copy whose logic fails is fenced; without
another copy it is a chip fault. -/
def execSharedStructureFault (structure_ copy : Nat) (logic : Bool) (s : State) : Host.Outcome State Fault Refusal :=
  gate s true
    (let id := 2 * structure_ + copy % 2
     let other := 2 * structure_ + (copy + 1) % 2
     if s.ras.fencedCopies.contains id then s
     else if s.ras.fencedCopies.contains other then s.escalateChip
     else
       let s := if logic then
           { s.count .RAS_CNT_UNIT_count .RAS_CNT_UNIT_ovf 0 1 with
             ras := { s.ras with fencedCopies := s.ras.fencedCopies ++ [id] } }
         else s
       s.rasRecord ⟨3, 15, 0, uDEVICE, 0, 0xFF, domECHO, 0, 0⟩)

/-- An octet out of reach: every line of its channels is poison (R377). -/
def State.loseOctet (s : State) (g : Nat) : State :=
  s.each ((List.range 8).map (· + 8 * g)) (fun s ch =>
    { s.wr .MEM_HBM_STAT_state ch 3 with
      chans := s.chans.upd .reset ch (fun x => { x with dead := true }),
      lineErr := s.lineErr.clearRange (ch * 2 ^ 32) ((ch + 1) * 2 ^ 32) })

/-- `MESH_STOP_FENCE` (R377): gallery and octet are lost, the slice's partition is reset; a second stop is a chip fault. -/
def execMeshStopFence (g : Nat) (s : State) : Host.Outcome State Fault Refusal :=
  gate s (decide (g < 32))
    (if s.ras.fencedStops.contains g then s
     else if !s.ras.fencedStops.isEmpty then s.escalateChip
     else
       let s := s.rollBack.loseOctet g
       let s := { s with ras := { s.ras with fencedStops := [g] } }
       let s := s.count .RAS_CNT_UNIT_count .RAS_CNT_UNIT_ovf 0 1
       let s := if s.ras.lost.contains g then s else (s.markLost g).loseAlone g 3
       let s := s.rasRecord ⟨3, 16, 4, uGALLERY, g, (s.prtOf g).getD 0xFF, hallDom g, 0, 0⟩
       match s.prtOf g with
       | none => s
       | some p =>
         let s := if (s.part p).octets.contains g then s.loseHome g else s
         (s.showOrder p).escalatePrt p 4)

/-- The PCI Express link goes down (row 13): device work runs on. -/
def State.pcieDown (s : State) : State :=
  if s.board.pcie then { s with board := { s.board with pcie := false } }.rasRecord ⟨3, 13, 0, uDEVICE, 0, 0xFF, 6, 0, 0⟩
  else s

/-- `REFCLK_LOSS` (R352): 0 PCIe, 1 system, 2 and 3 the links of West and East. -/
def execRefclkLoss (ref : Nat) (s : State) : Host.Outcome State Fault Refusal :=
  gate s (decide (ref < 4))
    (let s := s.wr .PWR_REF_STAT_lost 0 (s.rd .PWR_REF_STAT_lost 0 ||| 2 ^ ref)
     match ref with
     | 0 => s.pcieDown
     | 1 => s.escalateChip
     | _ => s.each ((List.range 16).map (· + 16 * (ref - 2))) (fun s n => if s.linkUp n then (s.goDown n 1).portFault n 10 else s))

/-- `GEODE_WIPE_DONE`: after the last wipe of a life-cycle transition the chip warm reset is due (R175, R414). -/
def execGeodeWipeDone (g : Nat) (s : State) : Host.Outcome State Fault Refusal :=
  gateHeld s (decide (g < 32))
    (let s := s.geodeWiped g
     if s.sec.goal.isSome && !s.ras.due.any (fun d => d.prt == none)
         && (List.range 32).all (fun g => !s.flag .GAL_POOL_CFG_wipe g) then s.chipDue
     else s)

end Sys2Proof.Machine
end

