-- ==== Sys2Proof/Machine/Security.lean ====
section
/-! DEFINITION. The security rows: life-cycle transitions, key replacement, key slots, SPDM, IDE and TDI keys and states, tamper
(R413 to R440). Whether a request's signatures and authorisation verify is an operand, log entry 36. -/

namespace Sys2Proof.Machine

-- Life cycle ----------------------------------------------------------------------------------------------------------

/-- Whether a transition is a row of *Life-cycle transitions*, and whether its authorisation passes (R414): leaving OPEN-DEBUG for
the recorded state needs none. -/
def Sec.mayGo (x : Sec) (goal : Nat) (authorised : Bool) : Bool :=
  match x.lc, goal with
  | 0, 1 | 1, 2 | 2, 1 => authorised
  | 1, 3 | 2, 3 => authorised && decide (x.debugs.length < 15)
  | 3, 4 | 1, 4 | 2, 4 => authorised
  | 3, g => g == x.prior
  | _, _ => false

/-- Whether a record is left for a transition: the last one is kept for RETIRED (R416). -/
def Sec.roomFor (x : Sec) (goal : Nat) : Bool := if goal = lcRETIRED then decide (1 ≤ x.left) else decide (2 ≤ x.left)

/-- The further effects of a transition on fuses and keys; keys and certificate come with the request. -/
def State.lcEffects (s : State) (goal : Nat) (keys : List Nat) (cert : List Byte) : State :=
  let k := s.sec.keys
  match s.sec.lc, goal with
  | 0, _ => { s with sec := { s.sec with udsFused := true,
                                         keys := { k with fw := (List.range 4).map (fun i => keys[i]?) } },
                     flash := { s.flash with cert := cert } }.storeKeys
  | 1, 2 => { s with sec := { s.sec with keys := { k with owner := keys.head? } } }.storeKeys
  | 2, 1 => { s with sec := { s.sec with keys := { k with owner := none, ownerSh := none } } }.storeKeys
  | _, 4 => { s with sec := { s.sec with rootKill := true } }
  | _, _ => s

/-- A transition blows its record, wipes the geodes and then takes a chip warm reset (R414). -/
def State.lcGo (s : State) (goal : Nat) (keys : List Nat) (cert : List Byte) : State :=
  let from_ := s.sec.lc
  let s := s.lcEffects goal keys cert
  let s := { s with sec := { s.sec with records := s.sec.records ++ [(goal, from_)], goal := some goal } }
  let s := (s.answer pcOK []).each (List.range 32) State.geodeWipe
  if (List.range 32).all (fun g => !s.flag .GAL_POOL_CFG_wipe g) then s.chipDue else s

/-- Whether a management or security message reaches its responder: over DOE of a function that the link shows, over I3C once an
address is set (R400, R434). -/
def State.spdmUp (s : State) (m : Mgmt) : Bool :=
  decide (5 ≤ s.rd .DEV_STAT_step 0) && if m.overDoe then s.board.pcie && decide (m.func < 128) && (m.func == 0 || !s.recovering)
    else s.board.dyn != 0

/-- `LIFE_CYCLE_TRANSITION`: refused while another runs or a Survey load is between loading and window close (R415). -/
def execLifeCycleTransition (m : Mgmt) (goal : Nat) (authorised : Bool) (keys : List Nat) (cert : List Byte) (s : State) :
    Host.Outcome State Fault Refusal :=
  gate s true
    (if !s.spdmUp m then s
     else if !s.inSession m then s.answer pcACCESS []
     else if s.sec.goal.isSome || s.rd .SVY_STAT_phase 0 != 0 then s.answer pcBUSY []
     else if s.sec.mayGo goal authorised && s.sec.roomFor goal then s.lcGo goal keys cert
     else s.answer pcARG [])

-- Keys ----------------------------------------------------------------------------------------------------------------

/-- Set the shadow key of a slot: 0 the owner key, 1 to 4 the firmware-signing keys. -/
def Enrol.stage (x : Enrol) (slot : Nat) (k : Option Nat) : Enrol :=
  if slot = 0 then { x with ownerSh := k } else { x with fwSh := x.fwSh.set (slot - 1) k }

/-- The active and the shadow key of a slot. -/
def Enrol.active (x : Enrol) (slot : Nat) : Option Nat := if slot = 0 then x.owner else x.fw.getD (slot - 1) Option.none
def Enrol.shadow (x : Enrol) (slot : Nat) : Option Nat := if slot = 0 then x.ownerSh else x.fwSh.getD (slot - 1) Option.none

/-- Exchange the active and the shadow key of a slot. -/
def Enrol.swap (x : Enrol) (slot : Nat) : Enrol :=
  if slot = 0 then { x with owner := x.ownerSh, ownerSh := x.owner }
  else { x with fw := x.fw.set (slot - 1) (x.shadow slot), fwSh := x.fwSh.set (slot - 1) (x.active slot) }

/-- `KEY_STAGE` (R422): a chain that does not verify clears the shadow slot. A firmware-signing key may be chained to the fused root
instead of the key it replaces. -/
def execKeyStage (m : Mgmt) (slot pub : Nat) (chainOk : Bool) (s : State) : Host.Outcome State Fault Refusal :=
  gate s true
    (if !s.spdmUp m then s
     else if !s.inSession m then s.answer pcACCESS []
     else if 5 ≤ slot then s.answer pcARG []
     else
       let ok := chainOk && (slot != 0 || s.sec.keys.owner.isSome)
       let k := s.sec.keys.stage slot (if ok then some pub else none)
       ({ s with sec := { s.sec with keys := k } }.showKeys).answer (if ok then pcOK else pcVERIFY) [])

/-- `KEY_SWAP` (R422): signed by the staged key. A Survey's signature check is part of one step of the model, so no swap has to wait
for one (R423). -/
def execKeySwap (m : Mgmt) (slot : Nat) (sigOk : Bool) (s : State) : Host.Outcome State Fault Refusal :=
  gate s true
    (if !s.spdmUp m then s
     else if !s.inSession m then s.answer pcACCESS []
     else if decide (slot < 5) && sigOk && (s.sec.keys.shadow slot).isSome then
       ({ s with sec := { s.sec with keys := s.sec.keys.swap slot } }.storeKeys).answer pcOK []
     else s.answer pcARG [])

/-- `SLOT_FREE` (R427): greetings, rekeys and a staging that wait for a slot go on. -/
def execSlotFree (slot : Nat) (s : State) : Host.Outcome State Fault Refusal :=
  gate s (decide (slot < 4096))
    (if (s.slot slot).st = 3 then (s.setSlot slot { s.slot slot with st := 0 }).serveWaits.stageStep else s)

/-- `DRBG_RESEED` (R425). -/
def execDrbgReseed (s : State) : Host.Outcome State Fault Refusal :=
  gate s true
    (if 2 ^ 20 ≤ s.sec.drbg ∧ !s.flag .SEC_STAT_drbg_err 0 then { s with sec := { s.sec with drbg := 0 } } else s)

-- SPDM ----------------------------------------------------------------------------------------------------------------

/-- The connection of a requester: by function over DOE, 128 over MCTP. -/
def connKey (m : Mgmt) : Nat := if m.overDoe then m.func else 128

/-- What a requester has negotiated: bit 0 version, 1 capabilities, 2 algorithms. -/
def State.conn (s : State) (m : Mgmt) : Nat := s.sec.conns.get 0 (connKey m)
def State.setConn (s : State) (m : Mgmt) (v : Nat) : State :=
  { s with sec := { s.sec with conns := s.sec.conns.set 0 (connKey m) v } }

/-- Replies to SPDM requests: an answer, or an error. -/
def spOK : Nat := 0
def spERR : Nat := 1

/-- A request after negotiation. -/
def State.spdmReq (s : State) (m : Mgmt) (k : State → State) : State :=
  if !s.spdmUp m then s else if s.conn m = 7 then k s else s.answer spERR []

/-- A request inside an open session. -/
def State.spdmIn (s : State) (m : Mgmt) (k : State → State) : State :=
  if !s.spdmUp m then s else if s.inSession m then k s else s.answer spERR []

/-- `GET_VERSION`: 1.2 and 1.3; the negotiation starts afresh. -/
def execGetVersion (m : Mgmt) (s : State) : Host.Outcome State Fault Refusal :=
  gate s true (if s.spdmUp m then (s.setConn m 1).answer spOK [0x12#8, 0x13#8] else s)

/-- `GET_CAPABILITIES`. -/
def execGetCapabilities (m : Mgmt) (s : State) : Host.Outcome State Fault Refusal :=
  gate s true
    (if !s.spdmUp m then s
     else if s.conn m % 2 = 1 then (s.setConn m 3).answer spOK []
     else s.answer spERR [])

/-- `NEGOTIATE_ALGORITHMS`: the one set of *SPDM options*. -/
def execNegotiateAlgorithms (m : Mgmt) (s : State) : Host.Outcome State Fault Refusal :=
  gate s true
    (if !s.spdmUp m then s
     else if s.conn m % 4 = 3 then (s.setConn m 7).answer spOK []
     else s.answer spERR [])

/-- Whether bytes occur in a list. -/
def hasSub (l x : List Byte) : Bool := (List.range (l.length + 1)).any (fun i => (l.drop i).take x.length == x)

/-- The certificate chain that is served, and whether that of the flash does not fit the identity (R419, R420). -/
def State.chainOf (s : State) : List Byte × Bool :=
  if s.flag .SEC_LC_subst 0 then (Config.testChain, false)
  else if hasSub s.flash.cert (natLe 32 s.idPub) then (s.flash.cert, false)
  else (Config.testChain, true)

/-- `GET_DIGESTS`: of the one chain, in slot 0. -/
def execGetDigests (m : Mgmt) (s : State) : Host.Outcome State Fault Refusal :=
  gate s true (s.spdmReq m (fun s => s.answer spOK (sha512 s.chainOf.1)))

/-- `GET_CERTIFICATE` (R420). -/
def execGetCertificate (m : Mgmt) (slot : Nat) (s : State) : Host.Outcome State Fault Refusal :=
  gate s true (s.spdmReq m (fun s =>
    if slot != 0 then s.answer spERR []
    else
      let c := s.chainOf
      (if c.2 then s.wr .SEC_STAT_cert_err 0 1 else s).answer spOK c.1))

/-- `CHALLENGE`: the digest of the chain, with a fresh nonce; the signature is open. -/
def execChallenge (m : Mgmt) (s : State) : Host.Outcome State Fault Refusal :=
  gate s true (s.spdmReq m (fun s =>
    let d := sha512 s.chainOf.1
    let (nonce, s) := s.random 32
    (s.answer spOK (d ++ nonce ++ (List.range 64).map (Config.protocolByte s.tick))).ticked))

/-- Keeper or runtime as measurement blocks 2 and 3 hold them: digest, version, svn. -/
def State.measImage (s : State) (i : Nat) (b : List Byte) : List Byte :=
  (List.range 32).flatMap (fun j => natLe 2 (s.rd .EMU_FW_DIGEST_half (32 * i + j))) ++ natLe 4 (s.rd .EMU_FW_VER_version i)
    ++ natLe 2 (imgSvn b)

/-- A partition as its measurement block holds it. -/
def State.measPart (s : State) (p : Nat) : List Byte :=
  let x := s.part p
  natLe 1 (s.rd .PRT_STAT_state p) ++ natLe 1 (s.rd .PRT_CTRL_conf p) ++ natLe 4 (s.rd .PRT_SLICES_bound p)
    ++ (List.range 32).flatMap (fun k => natLe 1 (s.rd .PRT_ORDER_gal (32 * p + k)))
    ++ x.bound.2.2.2.1.1.flatMap (natLe 4) ++ x.exts.flatMap (natLe 2)
    ++ x.peers.flatMap (fun q => natLe 8 q.id ++ natLe 1 q.prt ++ natLe 4 q.ports) ++ natLe 8 (s.rd .PRT_GEN_value p)

/-- A measurement block (R435), none for an index that names none. The order of a block's items is that of the table; the DMTF
framing round them is left out. -/
def State.measBlock (s : State) (index : Nat) : Option (List Byte) :=
  match index with
  | 1 => some Config.romDigest
  | 2 => some (s.measImage 0 (s.flash.keeperAt s.flash.actK))
  | 3 => some (s.measImage 1 (s.flash.runtimeAt s.flash.actR))
  | 4 => some (natLe 2 (s.rd .DEV_COMPAT_LEVEL_level 0) ++ natLe 2 s.stepping ++ natLe 2 s.sec.svnK ++ natLe 2 s.sec.svnR
      ++ Config.maxSteps)
  | 5 => some (natLe 1 s.sec.lc ++ natLe 1 s.sec.debugs.length
      ++ natLe 1 (s.rd .SEC_STAT_tamper_boot 0 + 2 * s.rd .SEC_STAT_tamper_run 0))
  | 6 => some (natLe 8 (kidOf s.sec.keys.owner) ++ s.sec.keys.fw.flatMap (fun k => natLe 8 (kidOf k)))
  | 7 => some (s.sec.chain ++ natLe 8 (s.rd .SVY_GEN_gen 0))
  | n => if 0x10 ≤ n ∧ n < 0x30 then some (s.measPart (n - 0x10)) else none

/-- `GET_MEASUREMENTS`: index 0 asks how many blocks there are, 0xFF for all. -/
def execGetMeasurements (m : Mgmt) (index : Nat) (s : State) : Host.Outcome State Fault Refusal :=
  gate s true (s.spdmReq m (fun s =>
    let all := (List.range 0x30).filterMap s.measBlock
    if index = 0 then s.emit (.reply [spOK, all.length] [])
    else if index = 0xFF then s.answer spOK (all.flatMap id)
    else match s.measBlock index with
      | some b => s.answer spOK b
      | none => s.answer spERR []))

/-- `KEY_EXCHANGE`: 4 sessions over DOE and 4 over MCTP; the ephemeral key comes from the generator (R425, R434). -/
def execKeyExchange (m : Mgmt) (s : State) : Host.Outcome State Fault Refusal :=
  gate s true (s.spdmReq m (fun s =>
    let n := (s.sec.spdm.filter (fun x => x.doe == m.overDoe)).length
    if 4 ≤ n ∨ s.flag .SEC_STAT_drbg_err 0 then s.answer spERR []
    else
      let i := s.sec.spdmNext
      { s with sec := { s.sec with spdm := s.sec.spdm ++ [Spdm.mk m.overDoe m.func i false], spdmNext := i + 1,
                                   drbg := s.sec.drbg + 1 } }.emit (.reply [spOK, i] [])))

/-- Whether a session is the one that a message names. -/
def Spdm.named (x : Spdm) (m : Mgmt) : Bool := x.doe == m.overDoe && x.id == m.sess && (!x.doe || x.func == m.func)

/-- A session that FINISH opens. -/
def Spdm.open_ (m : Mgmt) (x : Spdm) : Spdm := if x.named m then { x with live := true } else x

/-- `FINISH`: the session is open. -/
def execFinish (m : Mgmt) (s : State) : Host.Outcome State Fault Refusal :=
  gate s true
    (if !s.spdmUp m then s
     else if s.sec.spdm.any (fun x => x.named m && !x.live) then
       { s with sec := { s.sec with spdm := s.sec.spdm.map (Spdm.open_ m) } }.answer
         spOK []
     else s.answer spERR [])

/-- `HEARTBEAT`. -/
def execHeartbeat (m : Mgmt) (s : State) : Host.Outcome State Fault Refusal :=
  gate s true (s.spdmIn m (fun s => s.answer spOK []))

/-- A session ends: its keys are destroyed. -/
def State.endSpdm (s : State) (m : Mgmt) : State :=
  { s with sec := { s.sec with spdm := s.sec.spdm.filter (fun x => !x.named m) } }

/-- `HEARTBEAT_TIMEOUT`. -/
def execHeartbeatTimeout (m : Mgmt) (s : State) : Host.Outcome State Fault Refusal := gate s true (s.endSpdm m)

/-- `KEY_UPDATE`: the keys of a session are never state that a command sees. -/
def execKeyUpdate (m : Mgmt) (s : State) : Host.Outcome State Fault Refusal :=
  gate s true (s.spdmIn m (fun s => s.answer spOK []))

/-- `END_SESSION`. -/
def execEndSession (m : Mgmt) (s : State) : Host.Outcome State Fault Refusal :=
  gate s true (s.spdmIn m (fun s => (s.endSpdm m).answer spOK []))

-- Device interfaces ---------------------------------------------------------------------------------------------------

/-- Partitions that a virtual function serves. -/
def State.servedBy (s : State) (f : Nat) : List Nat :=
  (List.range 32).filter (fun p => (s.part p).defined && (s.part p).func == f)

/-- Lock a function's interface (R436): true when it is accepted. -/
def State.lockTdi (s : State) (f : Nat) : Bool × State :=
  let ps := s.servedBy f
  if f != 0 && decide (f < 128) && s.rd .SEC_TDI_state f == 0 && ps.all s.confidential then
    (true, ((s.wr .SEC_TDI_state f 1).wr .SEC_TDI_cause f 0).wr .SEC_TDI_prt f (maskOf ps))
  else (false, s)

/-- Start a locked interface (TDISP START_INTERFACE_REQUEST). -/
def State.startTdi (s : State) (f : Nat) : Bool × State :=
  if f != 0 && decide (f < 128) && s.rd .SEC_TDI_state f == 1 then (true, s.wr .SEC_TDI_state f 2) else (false, s)

/-- Stop an interface (R438): every context of the bound partitions is destroyed. -/
def State.stopTdi (s : State) (f : Nat) : Bool × State :=
  if f == 0 || decide (128 ≤ f) then (false, s)
  else
    let mask := s.rd .SEC_TDI_prt f
    let s := s.each ((s.ctxs.filter (fun e => (e.2.st == 1 || e.2.st == 2) && mask.testBit e.2.prt)).map (·.1)) State.destroyCtx
    (true, ((s.wr .SEC_TDI_state f 0).wr .SEC_TDI_cause f 0).wr .SEC_TDI_prt f 0)

/-- Answer by whether a request was accepted. -/
def tdispAnswer (r : Bool × State) : State := r.2.answer (if r.1 then spOK else spERR) []

/-- `LOCK_INTERFACE_REQUEST`. -/
def execLockInterfaceRequest (m : Mgmt) (f : Nat) (s : State) : Host.Outcome State Fault Refusal :=
  gate s (decide (f < 128)) (s.spdmIn m (fun s => tdispAnswer (s.lockTdi f)))

/-- `STOP_INTERFACE_REQUEST`. -/
def execStopInterfaceRequest (m : Mgmt) (f : Nat) (s : State) : Host.Outcome State Fault Refusal :=
  gate s (decide (f < 128)) (s.spdmIn m (fun s => tdispAnswer (s.stopTdi f)))

/-- The IDE slots that hold the key of a stream, sub-stream, direction and key set, numbered ((9 streams × 3) × 2) × 2. -/
def State.ideSlots (s : State) (k : Nat) : List Nat :=
  (s.slots.filter (fun e => slotClass e.1 == .ide && e.2.st == 1 && e.2.own == k)).map (·.1)

/-- IDE_KM: a key goes into a free slot, a switch to a key set retires the slots of the other, a stop retires those of the set
(R424, R425, R429). -/
def State.ideKm (s : State) (code k : Nat) : Bool × State :=
  if 108 ≤ k then (false, s)
  else match code with
    | 2 => match s.takeKey .ide k with
      | some (_, s) => (true, s)
      | none => (false, s)
    | 4 => (true, s.each (s.ideSlots (if k % 2 = 0 then k + 1 else k - 1)) State.retireKey)
    | 5 => (true, s.each (s.ideSlots k) State.retireKey)
    | 0 => (true, s)
    | _ => (false, s)

/-- `VENDOR_DEFINED_REQUEST`: protocol 0 IDE_KM, 1 TDISP, by the message codes of those protocols; 2 is Ohmair OEM, whose messages
have rows of their own. -/
def execVendorDefinedRequest (m : Mgmt) (proto code arg : Nat) (s : State) : Host.Outcome State Fault Refusal :=
  gate s true (s.spdmIn m (fun s =>
    match proto, code with
    | 0, c => tdispAnswer (s.ideKm c arg)
    | 1, 0x83 => tdispAnswer (s.lockTdi arg)
    | 1, 0x85 => s.emit (.reply [spOK, s.rd .SEC_TDI_state (arg % 128)] [])
    | 1, 0x86 => tdispAnswer (s.startTdi arg)
    | 1, 0x87 => tdispAnswer (s.stopTdi arg)
    | _, _ => s.answer spERR []))

-- Tamper --------------------------------------------------------------------------------------------------------------

/-- `TAMPER_CHECK` while the device runs (R440): a failure wipes the geodes, destroys every key, asserts FAULT_N and starts a chip
warm reset. -/
def execTamperCheck (ok : Bool) (s : State) : Host.Outcome State Fault Refusal :=
  gate s true
    (if ok || decide (s.rd .DEV_STAT_step 0 < 5) || s.flag .SEC_STAT_tamper_run 0 then s
     else
       let s := (s.each (List.range 32) State.geodeWipe).destroyKeys
       ((s.wr .SEC_STAT_tamper_run 0 1).emit (.mgmtEvent mgTAMPER 0)).chipDue)

end Sys2Proof.Machine
end

