-- ==== Sys2Proof/Machine/Boot.lean ====
section
/-! DEFINITION. The board: power-good, rails, PERST_N, the PCI Express link, the I3C address, the entropy source (R441 to R456,
R469). -/

namespace Sys2Proof.Machine

/-- What is left once power is gone: flash, fuses and what lies outside the part. -/
def State.unpowered (s : State) : State :=
  { State.reset with
    flash := s.flash,
    sec := { Sec.fresh with records := s.sec.records, udsFused := s.sec.udsFused, rootKill := s.sec.rootKill, svnK := s.sec.svnK,
                            svnR := s.sec.svnR },
    host := s.host, out := s.out, tick := s.tick, pending := s.pending }

/-- `POWER_GOOD`: a part in reset, or one whose clocks have stopped and whose power was taken away, starts up (R443, R445, R455). -/
def execPowerGood (b : Boot) (s : State) : Host.Outcome State Fault Refusal :=
  gatePower true (if s.pwr.stop != 0 || s.rd .DEV_STAT_step 0 == 1 then s.unpowered.startUp b else s)

/-- `RAIL_DROP_BEFORE_READY`: the part is held in reset until power-good (R443). -/
def execRailDropBeforeReady (s : State) : Host.Outcome State Fault Refusal :=
  gatePower true (if s.flag .DEV_STAT_ready 0 then s else s.unpowered.wr .RAS_STAT_fault 0 1)

/-- `RAIL_OUT_OF_RANGE` after fully ready: the clocks stop, FAULT_N and PWRCYC_REQ_N stay asserted (R469). -/
def execRailOutOfRange (s : State) : Host.Outcome State Fault Refusal :=
  gatePower true
    (if s.flag .DEV_STAT_ready 0 then
      { (s.wr .RAS_STAT_fault 0 1).wr .RAS_STAT_cycle 0 1 with pwr := { s.pwr with stop := 2 } }
     else s)

/-- Bring the link up (R444). -/
def State.pcieUp (s : State) : State :=
  if !s.board.perst && decide (5 ≤ s.rd .DEV_STAT_step 0) then { s with board := { s.board with pcie := true } } else s

/-- `PERST_N_DEASSERT`. -/
def execPerstNDeassert (s : State) : Host.Outcome State Fault Refusal :=
  gate s true ({ s with board := { s.board with perst := false } }.pcieUp)

/-- The PCI Express controller's part of a function returns to reset. -/
def Func.cold (x : Func) : Func := { x with d3 := false, held := [], msix := [] }

/-- The PCI Express controller is reset. -/
def State.perst (s : State) : State :=
  let s := s.pcieDown
  let s := { s with board := { s.board with perst := true } }
  s.each (s.funcs.map (·.1)) (fun s f => s.modFunc f Func.cold)

/-- `PERST_N_ASSERT` (R456): the controller alone is reset; IDE keys retire, every TDI enters ERROR with cause 3. -/
def execPerstNAssert (s : State) : Host.Outcome State Fault Refusal :=
  gate s true
    (if s.board.perst then s
     else
       let s := s.perst
       let s := s.each ((s.slots.filter (fun e => slotClass e.1 == .ide)).map (·.1)) State.retireKey
       s.each ((List.range 127).map (· + 1)) (fun s f => (s.wr .SEC_TDI_state f 3).wr .SEC_TDI_cause f 3))

/-- `PCI_EXPRESS_LINK_DOWN` (row 13 of *Single faults*). -/
def execPciExpressLinkDown (s : State) : Host.Outcome State Fault Refusal := gate s true s.pcieDown

/-- `PCI_EXPRESS_LINK_UP`. -/
def execPciExpressLinkUp (s : State) : Host.Outcome State Fault Refusal := gate s true s.pcieUp

/-- `ENTDAA`: the provisional ID is bytes 0 to 5 of the identity digest (R452). -/
def execEntdaa (dynAddr : Nat) (s : State) : Host.Outcome State Fault Refusal :=
  gate s true
    (if s.rd .DEV_STAT_step 0 < 5 then s
     else { s with board := { s.board with dyn := dynAddr % 128 } }.emit (.reply [dynAddr % 128] (s.idDigest.take 6)))

/-- `ENTROPY_HEALTH_TEST`: no key is generated until the source passes (R441); a staging that waits for keys goes on then. -/
def execEntropyHealthTest (ok : Bool) (s : State) : Host.Outcome State Fault Refusal :=
  gate s true ((s.wr .SEC_STAT_drbg_err 0 (b2n (!ok))).stageStep)

end Sys2Proof.Machine
end

