-- ==== Sys2Proof/Machine/HostFunc.lean ====
section
/-! DEFINITION. Functions: dirty logging swaps, the device memory aperture, Function Level Reset and power states (R253,
R273 to R275, R278). -/

namespace Sys2Proof.Machine

-- Dirty logging -------------------------------------------------------------------------------------------------------

/-- Whether a source may write the DLOG and MLOG registers: the physical function alone (R280). -/
def State.logSrc (s : State) (src : Src) : Bool := src.isPf && s.barOf 0

/-- `DLOG_SWAP`: NEXT becomes active; the swap is finished by SWAPPED (R275). -/
def execDlogSwap (src : Src) (f : Nat) (s : State) : Host.Outcome State Fault Refusal :=
  checked s (.dlogSwap src f)
    (if s.logSrc src then
      let old := s.rd .DSP_DLOG_BASE_addr f
      (s.wr .DSP_DLOG_BASE_addr f (s.rd .DSP_DLOG_NEXT_addr f)).modFunc f (fun x => { x with dlOld := some old })
     else s)

/-- `DLOG_ENABLE`: en is written 1; from 0, NEXT becomes active. -/
def execDlogEnable (src : Src) (f : Nat) (s : State) : Host.Outcome State Fault Refusal :=
  checked s (.dlogEnable src f)
    (if s.logSrc src && !s.flag .DSP_DLOG_CTRL_en f then
      (s.wr .DSP_DLOG_BASE_addr f (s.rd .DSP_DLOG_NEXT_addr f)).wr .DSP_DLOG_CTRL_en f 1
     else s)

/-- `MLOG_SWAP`. -/
def execMlogSwap (src : Src) (p : Nat) (s : State) : Host.Outcome State Fault Refusal :=
  checked s (.mlogSwap src p)
    (if s.logSrc src then
      let s := s.wr .DSP_MLOG_BASE_addr p (s.rd .DSP_MLOG_NEXT_addr p)
      { s with mlSwap := if s.mlSwap.contains p then s.mlSwap else s.mlSwap ++ [p] }
     else s)

/-- `MLOG_ENABLE`. -/
def execMlogEnable (src : Src) (p : Nat) (s : State) : Host.Outcome State Fault Refusal :=
  checked s (.mlogEnable src p)
    (if s.logSrc src && !s.flag .DSP_MLOG_BASE_en p then
      (s.wr .DSP_MLOG_BASE_addr p (s.rd .DSP_MLOG_NEXT_addr p)).wr .DSP_MLOG_BASE_en p 1
     else s)

/-- `SWAPPED`: every bit of writes before a swap is set, since a write sets its bit as it is made. -/
def execSwapped (mlog : Bool) (i : Nat) (s : State) : Host.Outcome State Fault Refusal :=
  checked s (.swapped mlog i)
    (if mlog then
      if s.mlSwap.contains i then { s with mlSwap := s.mlSwap.filter (· != i) }.wr .DSP_MLOG_CTRL_swapped i 1 else s
     else if (s.func i).dlOld.isSome then
      (s.modFunc i (fun x => { x with dlOld := none })).wr .DSP_DLOG_CTRL_swapped i 1
     else s)

-- Aperture ------------------------------------------------------------------------------------------------------------

/-- `DEVICE_MEMORY_APERTURE_ACCESS` (R253, R201): what is refused reads zero and discards writes. -/
def execDeviceMemoryApertureAccess (f off len : Nat) (wr : Option (List Byte)) (s : State) :
    Host.Outcome State Fault Refusal :=
  checked s (.deviceMemoryApertureAccess f off len wr)
    (if !s.barOf f then s
     else
      let p := s.rd .DSP_APR_prt f
      let ppa := s.rd .DSP_APR_base f * 2 ^ 30 + off
      let ok := s.serves f p && !(s.confidential p && f == 0)
      match wr with
      | none =>
        let zero := List.replicate len 0#8
        if !ok || !s.mapped p ppa len then s.emit (.reply [mOK] zero)
        else match s.memRead p ppa len 0 with
          | (.ok b, s) => s.emit (.reply [mOK] b)
          | (.refused, s) => s.emit (.reply [mOK] zero)
          | (.poison _, s) => s.emit (.reply [mPOISON] [])
      | some d => if !ok || !s.mapped p ppa d.length then s else (s.memWrite p ppa 0 d).2)

-- Resets and power states ---------------------------------------------------------------------------------------------

/-- Destroy the contexts created through a function, and disable the event rings it gave (R278, R272). -/
def State.flrCtxs (s : State) (f : Nat) : State :=
  let mine := (s.ctxs.filter (fun e => e.2.func == f && (e.2.st == 1 || e.2.st == 2))).map (·.1)
  let s := s.each mine State.destroyCtx
  s.each (s.ctxs.map (·.1)) (fun s c => if (s.ctx c).evFunc = f then s.modCtx c (fun x => { x with evEn := false }) else s)

/-- Fault records not yet posted to a function's ring are discarded (R278). -/
def State.dropRecords (s : State) (f : Nat) : State :=
  s.each (s.engs.map (·.1)) (fun s k =>
    match (s.eng k).cur, (s.eng k).parked with
    | some c, some p =>
      if (s.part (s.ctx c.2.1.ctx).prt).func = f then s.modEng k (fun y => { y with parked := some { p with posted := true } })
      else s
    | _, _ => s)

/-- The registers of a function that a Function Level Reset returns to their reset values. -/
def flrRegs : List Reg :=
  [.DSP_APR, .DSP_DLOG_BASE, .DSP_DLOG_NEXT, .DSP_DLOG_RANGE, .DSP_DLOG_LEN, .DSP_DLOG_CTRL, .XLT_IQ_BASE, .XLT_IQ_TAIL,
   .XLT_IQ_HEAD, .XLT_IQ_STAT, .XLT_FR_BASE, .XLT_FR_TAIL, .XLT_FR_HEAD, .XLT_FR_CTRL]

/-- Function Level Reset of a virtual function (R278). -/
def State.flrVf (s : State) (f : Nat) : State :=
  let s := (s.flrCtxs f).dropRecords f
  let s := s.each flrRegs (fun s r => s.resetReg r f)
  s.setFunc f .reset

/-- Reset every virtual function. -/
def State.flrVfs (s : State) : State := s.each ((List.range 127).map (· + 1)) State.flrVf

/-- `FUNCTION_LEVEL_RESET`: of the physical function it also disables the RAS ring. -/
def execFunctionLevelReset (f : Nat) (s : State) : Host.Outcome State Fault Refusal :=
  checked s (.functionLevelReset f)
    (if f = 0 then (s.flrVfs.flrCtxs 0).wr .RAS_EVQ_BASE_en 0 0 else s.flrVf f)

/-- `VF_ENABLE_CLEAR`. -/
def execVfEnableClear (s : State) : Host.Outcome State Fault Refusal := checked s .vfEnableClear s.flrVfs

/-- `D3HOT_ENTRY`. -/
def execD3hotEntry (f : Nat) (s : State) : Host.Outcome State Fault Refusal :=
  checked s (.d3hotEntry f) (s.modFunc f (fun x => { x with d3 := true }))

/-- Deliver a held message. -/
def State.deliverHeld (s : State) (f : Nat) (m : HostMsg) : State :=
  match m with
  | .write pasid a d => s.hostWr f pasid a d
  | .msix v => s.raise f v

/-- Copy commands held for a function go on. -/
def State.releaseCopies (s : State) (f : Nat) : State :=
  s.each (s.engs.map (·.1)) (fun s k =>
    match (s.eng k).cur, (s.eng k).parked with
    | some c, some p =>
      if p.cause = 2 ∧ (s.part (s.ctx c.2.1.ctx).prt).func = f then s.unpark (k / 16) (k % 16) else s
    | _, _ => s)

/-- `D0_RETURN`: what was held is delivered in order; every state is kept (R278). -/
def execD0Return (f : Nat) (s : State) : Host.Outcome State Fault Refusal :=
  checked s (.d0Return f)
    (if (s.func f).d3 then
      let l := (s.func f).held
      let s := s.modFunc f (fun x => { x with d3 := false, held := [] })
      (s.each l (fun s m => s.deliverHeld f m)).releaseCopies f
     else s)

end Sys2Proof.Machine
end

