-- ==== Sys2Proof/Machine/Mgmt.lean ====
section
/-! DEFINITION. Management: MCTP control, PLDM base, the Ohmair PLDM commands (R452, R453). A reply gives completion code and values;
the framing of MCTP and PLDM is left out, log entry 37. -/

namespace Sys2Proof.Machine

/-- A request over I3C that the part answers whether or not a power cycle is asked for: it changes nothing. -/
def State.ask (s : State) (vals : List Nat) (b : List Byte) : State := if s.mgmtUp then s.emit (.reply vals b) else s

-- MCTP control --------------------------------------------------------------------------------------------------------

/-- `SET_ENDPOINT_ID`: 8 to 254 are endpoints. -/
def execSetEndpointId (eid : Nat) (s : State) : Host.Outcome State Fault Refusal :=
  gate s true
    (if !s.mgmtUp then s
     else if 8 ≤ eid ∧ eid ≤ 254 then { s with board := { s.board with eid := eid } }.answer pcOK []
     else s.answer pcARG [])

/-- `GET_ENDPOINT_ID`. -/
def execGetEndpointId (s : State) : Host.Outcome State Fault Refusal := gate s true (s.ask [pcOK, s.board.eid] [])

/-- Message types of *Management messages*: PLDM, SPDM, secured messages, beside MCTP control. -/
def mctpTypes : List Nat := [1, 5, 6]

/-- `GET_VERSION_SUPPORT`: MCTP is version 1.3; that of another type is its standard's. -/
def execGetVersionSupport (ty : Nat) (s : State) : Host.Outcome State Fault Refusal :=
  gate s true
    (if ty = 0xFF ∨ ty = 0 then s.ask [pcOK, 1, 3] []
     else if mctpTypes.contains ty then s.ask [pcOK] ((List.range 4).map (Config.protocolByte ty))
     else s.ask [pcUNSUPPORTED] [])

/-- `GET_MESSAGE_TYPE_SUPPORT`. -/
def execGetMessageTypeSupport (s : State) : Host.Outcome State Fault Refusal := gate s true (s.ask (pcOK :: mctpTypes) [])

/-- `GET_VENDOR_DEFINED_MESSAGE_SUPPORT`: no vendor-defined MCTP type is listed. -/
def execGetVendorDefinedMessageSupport (s : State) : Host.Outcome State Fault Refusal := gate s true (s.ask [pcOK] [])

-- PLDM base -----------------------------------------------------------------------------------------------------------

/-- PLDM types: base, monitoring, FRU, firmware update, Ohmair OEM; recovery mode serves monitoring and update (R400). -/
def State.pldmTypes (s : State) : List Nat := if s.recovering then [0, 2, 5] else [0, 2, 4, 5, 0x3F]

/-- `GET_TID`. -/
def execGetTid (s : State) : Host.Outcome State Fault Refusal := gate s true (s.ask [pcOK, Config.pldmTid] [])

/-- `GET_PLDM_VERSION`. -/
def execGetPldmVersion (ty : Nat) (s : State) : Host.Outcome State Fault Refusal :=
  gate s true
    (if s.pldmTypes.contains ty then s.ask [pcOK] ((List.range 4).map (Config.protocolByte (256 + ty))) else s.ask [pcARG] [])

/-- `GET_PLDM_TYPES`. -/
def execGetPldmTypes (s : State) : Host.Outcome State Fault Refusal := gate s true (s.ask (pcOK :: s.pldmTypes) [])

/-- `GET_PLDM_COMMANDS`: the four of the base type, the nine of *Ohmair PLDM commands*; those of the other types are their
standards'. -/
def execGetPldmCommands (ty : Nat) (s : State) : Host.Outcome State Fault Refusal :=
  gate s true
    (if !s.pldmTypes.contains ty then s.ask [pcARG] []
     else match ty with
       | 0 => s.ask [pcOK, 2, 3, 4, 5] []
       | 0x3F => s.ask [pcOK, 1, 2, 3, 4, 5, 6, 7, 8, 9] []
       | _ => s.ask [pcOK] ((List.range 32).map (Config.protocolByte (512 + ty))))

-- Ohmair commands -----------------------------------------------------------------------------------------------------

/-- An Ohmair command that changes state: over MCTP, inside an open secured session, not in recovery mode (R400, R453). -/
def State.oem (s : State) (m : Mgmt) (k : State → State) : State :=
  if !s.mgmtUp || m.overDoe then s
  else if s.recovering then s.answer pcUNSUPPORTED []
  else if s.inSession m then k s
  else s.answer pcACCESS []

/-- An Ohmair command accepted anywhere. -/
def State.oemRead (s : State) (m : Mgmt) (k : State → State) : State :=
  if !s.mgmtUp || m.overDoe then s else if s.recovering then s.answer pcUNSUPPORTED [] else k s

/-- `SURVEY_BEGIN`. -/
def execSurveyBegin (m : Mgmt) (len : Nat) (s : State) : Host.Outcome State Fault Refusal :=
  gate s true (s.oem m (fun s =>
    if 328 ≤ len ∧ len ≤ 1048576 then
      { s with svy := { s.svy with bufLen := len, buf := [], bufOpen := true } }.answer pcOK []
    else s.answer pcARG []))

/-- Write bytes at an offset of a buffer; what has not been written reads zero, log entry 38. -/
def putAt (b : List Byte) (off : Nat) (l : List Byte) : List Byte :=
  let b := b ++ List.replicate (off + l.length - b.length) 0#8
  b.take off ++ l ++ b.drop (off + l.length)

/-- `SURVEY_DATA`. -/
def execSurveyData (m : Mgmt) (off : Nat) (bytes : List Byte) (s : State) : Host.Outcome State Fault Refusal :=
  gate s true (s.oem m (fun s =>
    if s.svy.bufOpen && decide (bytes.length ≤ 1024) && decide (off + bytes.length ≤ s.svy.bufLen) then
      { s with svy := { s.svy with buf := putAt s.svy.buf off bytes } }.answer pcOK []
    else s.answer pcARG []))

/-- The Survey in the buffer. -/
def State.buffered (s : State) : List Byte := putAt s.svy.buf s.svy.bufLen []

/-- `SURVEY_APPLY`. -/
def execSurveyApply (m : Mgmt) (hold : Bool) (s : State) : Host.Outcome State Fault Refusal :=
  gate s true (s.oem m (fun s =>
    if !s.svy.bufOpen then s.answer pcARG []
    else if s.svyFree then
      let b := s.buffered
      let s := s.svyStart true
      ({ s with svy := { s.svy with hold := hold } }.svyRun b).answer pcOK []
    else s.svyBusy.answer pcBUSY []))

/-- `SURVEY_COMMIT`. -/
def execSurveyCommit (m : Mgmt) (s : State) : Host.Outcome State Fault Refusal :=
  gate s true (s.oem m (fun s =>
    if s.rd .SVY_STAT_phase 0 = 4 then (s.wr .SVY_STAT_phase 0 5).answer pcOK [] else s.answer pcARG []))

/-- `SURVEY_ABORT`. -/
def execSurveyAbort (m : Mgmt) (s : State) : Host.Outcome State Fault Refusal :=
  gate s true (s.oem m (fun s => if s.abortable then s.svyAbort.answer pcOK [] else s.answer pcARG []))

/-- `SURVEY_STATUS`: SVY_STAT, SVY_GEN and SVY_PEND. -/
def execSurveyStatus (m : Mgmt) (s : State) : Host.Outcome State Fault Refusal :=
  gateRead s true (s.oemRead m (fun s =>
    s.emit (.reply [pcOK, s.word .SVY_STAT 0, s.word .SVY_GEN 0, s.word .SVY_PEND 0] [])))

/-- `DEFAULT_SURVEY_WRITE`: steps 1 to 6 of the validation, then the flash and the directory (R449, R451). -/
def execDefaultSurveyWrite (m : Mgmt) (s : State) : Host.Outcome State Fault Refusal :=
  gate s true (s.oem m (fun s =>
    if !s.svy.bufOpen then s.answer pcARG []
    else match s.svyRead s.buffered with
      | .error e => s.emit (.reply [pcVERIFY, e.code, e.off] [])
      | .ok _ =>
        { s with flash := { s.flash with survey := s.buffered, dirSeq := (s.flash.dirSeq + 1) % 2 ^ 32 } }.answer pcOK []))

/-- `DUMP_READ`: up to 1,024 bytes of the stored dump (R390). -/
def execDumpRead (m : Mgmt) (off len : Nat) (s : State) : Host.Outcome State Fault Refusal :=
  gateRead s true (s.oemRead m (fun s =>
    if 1024 < len ∨ s.ras.dump.isEmpty then s.answer pcARG []
    else { s with ras := { s.ras with dumpRead := true } }.answer pcOK ((s.ras.dump.drop off).take len)))

/-- `RESET_REQUEST`: 0 a partition reset, 1 a chip warm reset, 2 a power cycle. -/
def execResetRequest (m : Mgmt) (kind p : Nat) (t : Tests) (s : State) : Host.Outcome State Fault Refusal :=
  gateHeld s (decide (p < 32)) (s.oem m (fun s =>
    if s.flag .RAS_STAT_cycle 0 then s.answer pcBUSY []
    else match kind with
      | 0 => if s.pwr.stop != 0 then s.answer pcBUSY []
             else if (s.part p).defined then (s.answer pcOK []).resetPrt p 4 else s.answer pcARG []
      | 1 => (s.answer pcOK []).resetChip t
      | 2 => (s.answer pcOK []).askCycle
      | _ => s.answer pcARG []))

end Sys2Proof.Machine
end

