-- ==== Sys2Proof/Machine/Programs.lean ====
section
/-! DEFINITION. Programs (R300 to R302), deadlines (R314 to R317) and bandwidth regulation (R318 to R321). -/

namespace Sys2Proof.Machine

-- Program commands ----------------------------------------------------------------------------------------------------

/-- Key of a program slot. -/
def progKey (p slot : Nat) : Nat := p * 256 + slot

/-- Whether a source may issue a partition's program commands (R300). -/
def State.progSrc (s : State) (src : Src) (p : Nat) : Bool :=
  s.reachesPrt src p

/-- An image's header fields (*Program image header*), read from its first 128 bytes. -/
def imgSlot (h : List Byte) (image : Nat) (ymax gen : Nat) : Prog :=
  { gen := gen, reg := true, image := image, codeOff := fieldAt h 0x10 4, codeSize := fieldAt h 0x14 4,
    dataOff := fieldAt h 0x18 4, dataSize := fieldAt h 0x1C 4, span := fieldAt h 0x0C 1, base := fieldAt h 0x20 4,
    size := fieldAt h 0x24 4, entry := fieldAt h 0x28 4, save := fieldAt h 0x2C 4, ymax := ymax,
    replay := bit (fieldAt h 0x0D 1) 0, resident := [], loading := [] }

/-- The largest worst-case interval in the mark table (R301). -/
def imgYmax (img : List Byte) : Nat :=
  let off := fieldAt img 0x38 4
  (List.range (fieldAt img 0x0E 2)).foldl (fun m k => max m (fieldAt img (off + 8 * k + 4) 2)) 0

/-- The image with its digest field zero. -/
def imgBlank (img : List Byte) : List Byte := img.take 0x40 ++ List.replicate 64 0#8 ++ img.drop 0x80

/-- The checks of R301. -/
def imgOk (img : List Byte) (hum level : Nat) : Bool :=
  let base := fieldAt img 0x20 4
  let size := fieldAt img 0x24 4
  let save := fieldAt img 0x2C 4
  fieldAt img 0 4 == 0x315A4D43 && fieldAt img 4 2 == 1 && sha512 (imgBlank img) == (img.drop 0x40).take 64
    && fieldAt img 6 2 == level && fieldAt img 0x3C 1 == 8 && fieldAt img 0x3D 1 == 4 && fieldAt img 0x3E 1 == hum
    && decide (base ≤ save) && decide (save + 1024 ≤ base + size)
    && decide (imgYmax img + 8 * (fieldAt img 0x0C 1 - 1) + 9 ≤ 1024)

/-- Read an image from the partition's HBM, as the firmware's context 0 reads it: none when it does not lie there or cannot be
read. -/
def State.readImage (s : State) (p ppa : Nat) : Option (List Byte) × State :=
  let h := (s.part p).hbm
  if h < ppa + 128 then (none, s)
  else match s.memRead p ppa 128 0 with
    | (.ok hd, s) =>
      let n := fieldAt hd 8 4
      if n < 128 ∨ h < ppa + n then (none, s)
      else match s.memRead p ppa n 0 with
        | (.ok img, s) => (some img, s)
        | (_, s) => (none, s)
    | (_, s) => (none, s)

/-- `PROG_REG`: a slot that is registered already fails with STATE. -/
def State.progRegCmd (s : State) (p a0 a1 : Nat) : CmdRes :=
  s.checks [(zeroFrom a0 8 && a1 % 128 == 0 && zeroFrom a1 48, eBAD_OP)] (fun s =>
    match s.readImage p a1 with
    | (none, s) => s.fails eBAD_ARG
    | (some img, s) =>
      let k := progKey p a0
      if !imgOk img (s.part p).hum (s.rd .DEV_COMPAT_LEVEL_level 0) then s.fails eBAD_ARG
      else if (s.prog k).reg then s.fails eSTATE
      else
        let g := (s.prog k).gen
        let y := imgYmax img
        ⟨eOK, a0 + g * 2 ^ 16 + y % 2 ^ 16 * 2 ^ 32, 0, s.setProg k (imgSlot img a1 y g)⟩)

/-- `PROG_REG`. -/
def execProgReg (src : Src) (p : Nat) (a : Args) (s : State) : Host.Outcome State Fault Refusal :=
  gate s (src.ok && decide (p < 32))
    (if s.progSrc src p then s.command .prog p 0x01 a (fun s => s.progRegCmd p a.a0.toNat a.a1.toNat) else s)

/-- The galleries of a mask. -/
def galsOfMask (m : Nat) : List Nat := (List.range 32).filter (fun g => m.testBit g)

/-- The checks that a command naming a slot and a mask starts with: a free slot is BAD_HANDLE. -/
def State.progSlotCmd (s : State) (p a0 a2 : Nat) (arg : Bool) (k : Prog → State → CmdRes) : CmdRes :=
  let pr := s.prog (progKey p (a0 % 256))
  s.checks [(zeroFrom a0 8 && zeroFrom a2 32, eBAD_OP), (pr.reg, eBAD_HANDLE), (arg, eBAD_ARG)] (k pr)

/-- `PROG_LOAD`: the copies begin; a gallery of no partition, of another one or a spare is out of range (R302). -/
def State.progLoadCmd (s : State) (p a0 a2 : Nat) : CmdRes :=
  let gs := galsOfMask a2
  s.progSlotCmd p a0 a2 (gs.all (fun g => (s.part p).slices.contains g)) (fun pr s =>
    (s.setProg (progKey p a0) { pr with loading := pr.loading ++ gs.filter (fun g => !pr.loading.contains g) }).done)

/-- `PROG_LOAD`. -/
def execProgLoad (src : Src) (p : Nat) (a : Args) (s : State) : Host.Outcome State Fault Refusal :=
  gate s (src.ok && decide (p < 32))
    (if s.progSrc src p then s.command .prog p 0x02 a (fun s => s.progLoadCmd p a.a0.toNat a.a2.toNat) else s)

/-- Whether a loaded or suspended task of a gallery has a window that overlaps a program's (R302). -/
def State.windowTaken (s : State) (g : Nat) (pr : Prog) : Bool :=
  (s.subsOn g (fun st => st == .placed || st == .suspended)).any (fun t =>
    let q := s.subProg (s.sub t)
    overlap pr.base pr.size q.base q.size)

/-- `PROG_LOAD_COPY_DONE`: code and, right after it, data stand in the gallery's pool; the gallery is resident (R302). -/
def execProgLoadCopyDone (p slot g : Nat) (s : State) : Host.Outcome State Fault Refusal :=
  gate s (decide (p < 32) && decide (g < 32))
    (let k := progKey p (slot % 256)
     let pr := s.prog k
     if !pr.loading.contains g || s.windowTaken g pr then s
     else
       let s := s.setProg k { pr with loading := pr.loading.filter (· != g) }
       match s.memRead p (pr.image + pr.codeOff) pr.codeSize 0 with
       | (.ok code, s) => (match s.memRead p (pr.image + pr.dataOff) pr.dataSize 0 with
          | (.ok data, s) =>
            let s := (s.poolWrite g pr.base 7 0 (code ++ data)).2
            let x := s.prog k
            s.setProg k { x with resident := if x.resident.contains g then x.resident else x.resident ++ [g] }
          | (_, s) => s)
       | (_, s) => s)

/-- `PROG_UNLOAD`. -/
def State.progUnloadCmd (s : State) (p a0 a2 : Nat) : CmdRes :=
  s.progSlotCmd p a0 a2 true (fun pr s =>
    let keep := fun (g : Nat) => !a2.testBit g
    (s.setProg (progKey p a0) { pr with resident := pr.resident.filter keep, loading := pr.loading.filter keep }).done)

/-- `PROG_UNLOAD`. -/
def execProgUnload (src : Src) (p : Nat) (a : Args) (s : State) : Host.Outcome State Fault Refusal :=
  gate s (src.ok && decide (p < 32))
    (if s.progSrc src p then s.command .prog p 0x03 a (fun s => s.progUnloadCmd p a.a0.toNat a.a2.toNat) else s)

/-- Whether a submission that names a program is accepted and has not retired (R302). -/
def State.progInUse (s : State) (p slot : Nat) : Bool :=
  s.subs.any (fun e => e.2.stage != .rejected && e.2.isTask && e.2.prt == p && e.2.prog % 256 == slot)

/-- `PROG_UNREG`. -/
def State.progUnregCmd (s : State) (p a0 : Nat) : CmdRes :=
  s.progSlotCmd p a0 0 true (fun pr s =>
    if s.progInUse p a0 then s.fails eSTATE
    else (s.setProg (progKey p a0) { Prog.free with gen := (pr.gen + 1) % 2 ^ 16 }).done)

/-- `PROG_UNREG`. -/
def execProgUnreg (src : Src) (p : Nat) (a : Args) (s : State) : Host.Outcome State Fault Refusal :=
  gate s (src.ok && decide (p < 32))
    (if s.progSrc src p then s.command .prog p 0x04 a (fun s => s.progUnregCmd p a.a0.toNat) else s)

/-- `PROG_QUERY`. -/
def State.progQueryCmd (s : State) (p a0 : Nat) : CmdRes :=
  s.progSlotCmd p a0 0 true (fun pr s =>
    ⟨eOK, pr.resident.foldl (fun m g => m + 2 ^ g) 0 + pr.span * 2 ^ 32 + b2n pr.replay * 2 ^ 40, 0, s⟩)

/-- `PROG_QUERY`. -/
def execProgQuery (src : Src) (p : Nat) (a : Args) (s : State) : Host.Outcome State Fault Refusal :=
  gate s (src.ok && decide (p < 32))
    (if s.progSrc src p then s.command .prog p 0x05 a (fun s => s.progQueryCmd p a.a0.toNat) else s)

-- Deadlines -----------------------------------------------------------------------------------------------------------

/-- Whether a deadline has passed (R314). -/
def passed (now d : Nat) : Bool :=
  let x := (now + 2 ^ 48 - d % 2 ^ 48) % 2 ^ 48
  decide (1 ≤ x) && decide (x ≤ 2 ^ 47 - 1)

/-- Raise a vector of a partition's serving function. -/
def State.prtIrq (s : State) (p v : Nat) : State := s.raise (s.part p).func v

/-- Count and record a miss, interrupt, and report it to the context (R317, R370 to R372). -/
def State.recordMiss (s : State) (t : Nat) (fb fbEmpty : Bool) : State :=
  let u := s.sub t
  let p := u.prt
  let slot := (s.queue u.q).slot
  let s := s.count .DSP_DL_MISS_count .DSP_DL_MISS_ovf p 1
  let s := if s.flag .DSP_DL_LAST_valid p then s
    else
      let s := ((s.wr .DSP_DL_LAST_ctx p u.ctx).wr .DSP_DL_LAST_slot p slot).wr .DSP_DL_LAST_started p (b2n u.stage.started)
      ((s.wr .DSP_DL_LAST_fb p (b2n fb)).wr .DSP_DL_LAST_fb_empty p (b2n fbEmpty)).wr .DSP_DL_LAST_valid p 1
  let s := if s.flag .DSP_DL_CTRL_miss_ie p then s.prtIrq p (s.rd .DSP_DL_CTRL_vec p) else s
  let v := faultValue cfDEADLINE 0 (u.gals.headD 0) 0xFF slot
  let s := s.modCtx u.ctx (fun c => if c.st == 1 then { c with code := cfDEADLINE } else c)
  let s := s.event u.ctx 0 v u.ctx evCTX_FAULT eDEADLINE
  s.rasRecord ⟨1, cfDEADLINE, 0, uCONTEXT, u.ctx, p, domECHO, u.ctx, v⟩

/-- The submission that a fallback queue gives: the first that waits in it (R316). -/
def State.fallbackOf (s : State) (u : Sub) : Option Nat :=
  match s.queueOf u.fallback with
  | none => none
  | some q =>
    let x := s.queue q
    if x.halted then none else x.subs.find? (fun t => (s.sub t).stage == .accepted)

/-- Stop a missed submission whose fallback takes its place: one that runs is cancelled at its next mark (R316). -/
def State.cancelSub (s : State) (t : Nat) : State :=
  let u := s.sub t
  let gone := fun (s : State) => s.modSub t (fun u => { u with stage := .replaced, saved := [], gals := [], yielded := [] })
  match u.stage with
  | .placed =>
    if s.runs t then s.preempt (u.gals.headD 0)
    else
      let s := s.each u.gals (fun s g => if (s.gal g).task == some t then s.releaseGal g else s)
      s.each u.gals (fun s g => s.showSusp g) |> gone
  | .suspended => gone (s.unreserve t)
  | _ => gone s

/-- Dispatch a fallback at once as latency-critical, ahead of all others (R316). -/
def State.dispatchFallback (s : State) (t fb : Nat) : State :=
  let s := s.modSub t (fun u => { u with replacedBy := some fb, missed := true })
  let s := s.cancelSub t
  let v := s.sub fb
  let s := { s.setSub fb { v with stage := .ready, lc := true, replaces := some t, seq := s.nextSeq } with
             nextSeq := s.nextSeq + 1 }
  if v.isTask then s else s.modSub fb (fun u => { u with stage := .complete })

/-- A miss with no fallback to dispatch (R315). -/
def State.missPlain (s : State) (t : Nat) : State :=
  let u := s.sub t
  if u.stage.started then s.modSub t (fun u => { u with missed := true })
  else (s.discardSub t).haltQueue u.q eDEADLINE u.ring

/-- `DEADLINE_MISS`: a deadline that has not passed, or was missed before, is none. -/
def execDeadlineMiss (task : Nat) (s : State) : Host.Outcome State Fault Refusal :=
  gate s true
    (let u := s.sub task
     let due := match u.deadline with
       | some d => passed (s.rd .DSP_DLCNT_count u.prt) d
       | none => false
     if !due || u.missed || u.stage == .none || u.stage == .rejected || u.stage == .replaced then s
     else
       let wants := u.fallback != 0 && u.replaces.isNone
       match (if wants then s.fallbackOf u else none) with
       | some fb => (s.recordMiss task true false).dispatchFallback task fb
       | none => (s.recordMiss task false wants).missPlain task)

/-- The deadline counter of a partition wraps (R314). -/
def State.wrapDeadline (s : State) (p : Nat) : State :=
  let s := (s.wr .DSP_DLCNT_count p 0).wr .DSP_DLCNT_ovf p 1
  if s.flag .DSP_DL_CTRL_ovf_ie p then s.prtIrq p (s.rd .DSP_DL_CTRL_vec p) else s

/-- `DEADLINE_COUNTER_WRAP`. -/
def execDeadlineCounterWrap (p : Nat) (s : State) : Host.Outcome State Fault Refusal :=
  gate s (decide (p < 32)) (if (s.part p).defined then s.wrapDeadline p else s)

-- Regulation ----------------------------------------------------------------------------------------------------------

/-- Key of a port's measurements. -/
def regKey (p cls port : Nat) : Nat := p * 1024 + cls * 256 + port % 256

/-- Priority level of an average against a target (R319). -/
def regLevel (avg target : Nat) : Nat :=
  if target = 0 then 0
  else if 90 * target ≤ 100 * avg then 3
  else if 75 * target ≤ 100 * avg then 2
  else if 50 * target ≤ 100 * avg then 1
  else 0

/-- The highest average of a class among a partition's ports. -/
def State.regHigh (s : State) (p cls : Nat) : Nat :=
  (s.lats.filter (fun e => decide (e.1 / 256 = p * 4 + cls))).foldl (fun m e => max m e.2) 0

/-- `LATENCY_UPDATE`: a port's average of 64 responses, its class's level, and the target-miss flag (R319, R321). -/
def execLatencyUpdate (p cls port ns : Nat) (s : State) : Host.Outcome State Fault Refusal :=
  gate s (decide (p < 32))
    (if !(s.part p).defined || decide (4 ≤ cls) then s
     else
       let target := (s.part p).targets.getD cls 0
       let s := { s with lats := s.lats.set 0 (regKey p cls port) ns }
       let high := s.regHigh p cls
       let s := s.wr .DSP_REG_LAT_ns (4 * p + cls) (min high 65535)
       let s := s.wr .DSP_REG_STAT_lvl p (setBits (s.rd .DSP_REG_STAT_lvl p) (2 * cls) 2 (regLevel high target))
       if target ≠ 0 ∧ target < ns ∧ bit (s.rd .DSP_REG_STAT_miss p) cls = false then
         let s := s.wr .DSP_REG_STAT_miss p (setBits (s.rd .DSP_REG_STAT_miss p) cls 1 1)
         if bit (s.rd .DSP_REG_STAT_ie p) cls then s.prtIrq p (s.rd .DSP_REG_STAT_vec p) else s
       else s)

/-- `BUCKET_REFILL`: L × 1,000 bytes every 100 ns, at most four refills (R320). -/
def execBucketRefill (p cls port : Nat) (s : State) : Host.Outcome State Fault Refusal :=
  gate s (decide (p < 32))
    (let l := (s.part p).limits.getD cls 0
     if !(s.part p).defined || decide (4 ≤ cls) || l == 0 then s
     else
       let k := regKey p cls port
       { s with tokens := s.tokens.set 0 k (min (s.tokens.get 0 k + l * 1000) (4 * l * 1000)) })

end Sys2Proof.Machine
end

