-- ==== Sys2Proof/Machine/RegWrite.lean ====
section
/-! DEFINITION. REGISTER_WRITE: a write to one field of a register, by its access code (R5) and the rights of its block (R120, R164,
R184, R207, R224, R232, R236, R243, R252, R280, R299, R323, R350, R402, R431, R441). A write to a field that starts something has
the effect of the row that does it. -/

namespace Sys2Proof.Machine

-- Rights --------------------------------------------------------------------------------------------------------------

/-- Whether a write to the registers of a DDR5 channel takes effect: of a function that serves a partition with an extent there,
and of no other when that partition is confidential (R252, R431). -/
def State.reachesDdr (s : State) (src : Src) (d : Nat) : Bool :=
  let ps := (s.map.parts.filter (fun e => e.2.exts.any (fun x => x / 256 == d))).map (·.1)
  match src with
  | .mgmt => false
  | .func f => s.barOf f && (f == 0 || ps.any (s.serves f)) && ps.all (fun p => !s.confidential p || f == (s.part p).func)

/-- Whether a write to DSP_APR of a function takes effect: its own write, or that of the physical function, and not while its TDI is
locked or running (R280, R436). -/
def State.reachesApr (s : State) (src : Src) (f : Nat) : Bool :=
  (match src with
    | .mgmt => false
    | .func h => (h == f || h == 0) && s.barAll h)
  && !(s.rd .SEC_TDI_state f == 1 || s.rd .SEC_TDI_state f == 2)

/-- Whether a write to instance i of a register takes effect, by the block it lies in (*BAR0 block map*). -/
def State.mayWrite (s : State) (src : Src) (r : Reg) (i : Nat) : Bool :=
  let unit := i / r.place.n
  let at_ := r.place.base
  match at_ / 2 ^ 20 with
  | 0x1 | 0x3 => src == .func unit && s.barOf unit
  | 0x2 =>
    if r = .DSP_APR then s.reachesApr src i
    else if at_ < 0x204000 then src.isPf && s.barOf 0
    else s.reachesPrt src unit
  | 0x4 => if at_ < 0x490000 then src == .func unit && s.barAll unit else s.reachesPrt src unit
  | 0x5 => src.isPf && s.barOf 0
  | 0x6 => s.reachesPrt src unit
  | 0x7 => s.reachesSlice src unit
  | 0x8 => s.reachesSlice src (i / 8)
  | 0x9 => if at_ < 0x940000 then s.reachesDdr src i else s.reachesPrt src i
  | 0xA =>
    let off := at_ % 0x8000
    if off < 0x20 ∨ (0x100 ≤ off ∧ off < 0x2000) then s.phySrc src unit
    else if off < 0x2000 then s.reachesSlice src unit
    else (match src with
      | .mgmt => false
      | .func f => s.barOf f)
  | 0xB | 0xC | 0xE => s.pfOrMgmt src
  | 0xD => src.isPf && s.barOf 0
  | _ => src.isPf && if r = .EMU_LEASE then s.leaseUp else s.emuOf 0

-- Fields with rows of their own -----------------------------------------------------------------------------------------

/-- The state that an outcome leaves. -/
def stateOf (o : Host.Outcome State Fault Refusal) (s : State) : State :=
  match o with
  | .next t => t
  | _ => s

/-- The arguments that stand in a command window. -/
def State.args (s : State) (w : CmdWin) (i : Nat) : Args :=
  ⟨BitVec.ofNat 64 (s.argOf w i 0), BitVec.ofNat 64 (s.argOf w i 1), BitVec.ofNat 64 (s.argOf w i 2), BitVec.ofNat 64 (s.argOf w i 3)⟩

/-- An opcode that no table names (R476). -/
def State.badOp (s : State) (w : CmdWin) (i : Nat) : State := s.command w i (s.rd w.op i) (s.args w i) (fun s => s.fails eBAD_OP)

/-- CTX_CMD.go of function f. -/
def State.goCtx (s : State) (f : Nat) : State :=
  let a := s.args .ctx f
  match s.rd .CTX_CMD_op f with
  | 0x01 => stateOf (execCtxCreate f a s) s
  | 0x02 => stateOf (execCtxAbort f a s) s
  | 0x03 => stateOf (execCtxDestroy f a s) s
  | 0x04 => stateOf (execCtxSet f a s) s
  | 0x05 => stateOf (execCtxEvring f a s) s
  | 0x06 => stateOf (execCtxQuery f a s) s
  | 0x10 => stateOf (execQCreate f a s) s
  | 0x11 => stateOf (execQDestroy f a s) s
  | 0x12 => stateOf (execQResume f a s) s
  | 0x13 => stateOf (execQQuery f a s) s
  | 0x20 => stateOf (execMobjCreate f a s) s
  | 0x21 => stateOf (execMobjRetain f a s) s
  | 0x22 => stateOf (execMobjRelease f a s) s
  | 0x23 => stateOf (execMobjQuery f a s) s
  | _ => s.badOp .ctx f

/-- FEN_CMD.go of function f. -/
def State.goFen (s : State) (f : Nat) : State :=
  let a := s.args .fen f
  match s.rd .FEN_CMD_op f with
  | 0x01 => stateOf (execFenCreate f a s) s
  | 0x02 => stateOf (execFenSignal f a s) s
  | 0x03 => stateOf (execFenError f a s) s
  | 0x04 => stateOf (execFenArm f a s) s
  | 0x05 => stateOf (execFenQuery f a s) s
  | 0x06 => stateOf (execFenDestroy f a s) s
  | _ => s.badOp .fen f

/-- XLT_CMD.go of function f. -/
def State.goXlt (s : State) (f : Nat) : State :=
  let a := s.args .xlt f
  match s.rd .XLT_CMD_op f with
  | 0x01 => stateOf (execSetRoot f a s) s
  | 0x10 => stateOf (execWinExport f a s) s
  | 0x11 => stateOf (execWinImport f a s) s
  | 0x12 => stateOf (execWinClose f a s) s
  | 0x13 => stateOf (execWinQuery f a s) s
  | _ => s.badOp .xlt f

/-- HTN_CMD.go of port n, written by function f. -/
def State.goHtn (s : State) (f n : Nat) : State :=
  let a := s.args .htn n
  match s.rd .HTN_CMD_op n with
  | 0x01 => stateOf (execHtnSess f n a s) s
  | 0x02 => stateOf (execHtnFlink f n a s) s
  | 0x03 => stateOf (execHtnFunlink f n a s) s
  | 0x04 => stateOf (execHtnRekey f n a s) s
  | 0x05 => stateOf (execHtnAtomic f n a s) s
  | _ => if s.flag .HTN_CMD_busy n then s else s.badOp .htn n

/-- DSP_PROG_CMD.go of partition p. -/
def State.goProg (s : State) (src : Src) (p : Nat) : State :=
  let a := s.args .prog p
  match s.rd .DSP_PROG_CMD_op p with
  | 0x01 => stateOf (execProgReg src p a s) s
  | 0x02 => stateOf (execProgLoad src p a s) s
  | 0x03 => stateOf (execProgUnload src p a s) s
  | 0x04 => stateOf (execProgUnreg src p a s) s
  | 0x05 => stateOf (execProgQuery src p a s) s
  | _ => s.badOp .prog p

/-- PRT_SEQ_CMD.go of partition p. A reserved op is an invalid argument: DESIGN CHOICE, log entry 41. -/
def State.goSeq (s : State) (src : Src) (p : Nat) : State :=
  match s.rd .PRT_SEQ_CMD_op p with
  | 1 => stateOf (execSeqCreate src p s) s
  | 2 => stateOf (execSeqDestroy src p s) s
  | 3 => stateOf (execSeqSetClass src p s) s
  | 4 => stateOf (execSeqQuery src p s) s
  | _ => if s.seqCmdOk src p then s.seqErr p sqARG else s

/-- A write of one field of GAL_ENG_RING leaves the others as they are. -/
def State.ringField (s : State) (src : Src) (k base size en : Nat) : State :=
  stateOf (execGalEngRing src (k / 16) (k % 16) base size en s) s

/-- A write of one field of GAL_BANK_OWNER. -/
def State.ownerField (s : State) (src : Src) (k ctx valid : Nat) : State :=
  stateOf (execBankOwnerWrite src (k / 64) (k % 64) ctx valid s) s

/-- The word of an emulated register as it will stand when the queued writes are applied. -/
def State.emuNow (s : State) (r : Reg) (i : Nat) : Nat :=
  match s.fw.wq.reverse.find? (fun e => e.1 == r.addr i - 0x10000) with
  | some e => e.2
  | none => s.word r i

/-- A write of one field of an emulated register: the register's word, with that field changed, enters the queue (R402). -/
def State.emuField (s : State) (f : Fld) (i v : Nat) : State :=
  let r := f.desc.reg
  s.emuStore (r.addr i - 0x10000) (setBits (s.emuNow r i) f.desc.lo f.width v)

-- Values ----------------------------------------------------------------------------------------------------------------

/-- The value that a write of v leaves in a field that holds x, by its access code (R5). -/
def Access.after (a : Access) (x v : Nat) : Nat :=
  match a with
  | .rw | .rwl => v
  | .w1c => x - (x &&& v)
  | .w1s => x ||| v
  | .ro | .rc | .wo => x

/-- A field of which nothing but its access code is said. -/
def State.plain (s : State) (f : Fld) (i v : Nat) : State := s.wr f i (f.desc.acc.after (s.rd f i) (v % 2 ^ f.width))

/-- The partition by whose seal the RWL fields of a register keep their values. -/
def State.lockPrt (s : State) (r : Reg) (i : Nat) : Option Nat :=
  if r.place.base / 2 ^ 20 = 7 then s.prtOf (i / r.place.n) else some (i / r.place.n)

/-- A write by a source that may write: RWL fields of a sealed partition keep their values. -/
def State.unlocked (s : State) (f : Fld) (i v : Nat) : State :=
  if f.desc.acc = .rwl ∧ s.sealedPrt (s.lockPrt f.desc.reg i) then s else s.plain f i v

/-- What a write that a source may make does. A 0 written to a field that starts something does nothing. -/
def State.fieldWrite (s : State) (src : Src) (f : Fld) (i v : Nat) : State :=
  let v := v % 2 ^ f.width
  let on := v == 1
  match f with
  | .GAL_SEQ_CTRL_run => stateOf (execGalSeqCtrlRun src i v s) s
  | .GAL_SEQ_CTRL_step => if on then stateOf (execGalSeqCtrlStep src i s) s else s
  | .GAL_ENG_RING_base => s.ringField src i v (s.rd .GAL_ENG_RING_size i) (s.rd .GAL_ENG_RING_en i)
  | .GAL_ENG_RING_size => s.ringField src i (s.rd .GAL_ENG_RING_base i) v (s.rd .GAL_ENG_RING_en i)
  | .GAL_ENG_RING_en => s.ringField src i (s.rd .GAL_ENG_RING_base i) (s.rd .GAL_ENG_RING_size i) v
  | .GAL_ENG_RST_reset => if on then stateOf (execGalEngRst src (i / 16) (i % 16) s) s else s
  | .GAL_POOL_MARCH_start => if on then stateOf (execMarchStart src i s) s else s
  | .GAL_BANK_OWNER_ctx => s.ownerField src i v (s.rd .GAL_BANK_OWNER_valid i)
  | .GAL_BANK_OWNER_valid => s.ownerField src i (s.rd .GAL_BANK_OWNER_ctx i) v
  | .GAL_BANK_OWNER_clr =>
    if on then stateOf (execBankClear src (i / 64) (i % 64) (s.rd .GAL_BANK_OWNER_ctx i) (s.rd .GAL_BANK_OWNER_valid i) s) s
    else s
  | .GAL_BANK_OWNER_viol => if s.flag .GAL_POOL_CFG_geode (i / 64) && decide (60 ≤ i % 64) then s else s.unlocked f i v
  | .MEM_OWN_CMD_go => if on then stateOf (execMemOwnCmdGo src i s) s else s
  | .PRT_CTRL_seal => if on then stateOf (execSeal src i s) s else s
  | .PRT_CTRL_conf =>
    if !src.isPf || (v == 0 && (s.part i).conf != 0) then s else (s.unlocked f i v).showVis
  | .PRT_SEQ_CMD_go => if on then s.goSeq src i else s
  | .SVY_CTRL_load => if on then stateOf (execSurveyLoad src s) s else s
  | .SVY_CTRL_commit => if on then stateOf (execSvyCommit src s) s else s
  | .SVY_CTRL_abort => if on then stateOf (execSvyAbort src s) s else s
  | .CTX_CMD_go => if on then s.goCtx i else s
  | .FEN_CMD_go => if on then s.goFen i else s
  | .XLT_CMD_go => if on then s.goXlt i else s
  | .HTN_CMD_go =>
    (match src with
      | .func h => if on then s.goHtn h i else s
      | .mgmt => s)
  | .DSP_PROG_CMD_go => if on then s.goProg src i else s
  | .DSP_APR_prt => if src.isPf || s.serves i v then s.plain f i v else s
  | .DSP_DLOG_CTRL_en => if on then stateOf (execDlogEnable src i s) s else s.plain f i v
  | .DSP_DLOG_CTRL_swap => if on then stateOf (execDlogSwap src i s) s else s
  | .DSP_MLOG_BASE_en => if on then stateOf (execMlogEnable src i s) s else s.plain f i v
  | .DSP_MLOG_CTRL_swap => if on then stateOf (execMlogSwap src i s) s else s
  | .XLT_IQ_TAIL_idx => stateOf (execXltIqTail src i v s) s
  | .XLT_IQ_STAT_err => if on then stateOf (execXltIqStatErrClear src i s) s else s
  | .XLT_FR_HEAD_idx => stateOf (execXltFrHead src i v s) s
  | .HTN_PORT_CTRL_en =>
    if s.flag .HTN_PORT_CTRL_en i == on then s
    else if on then (s.wr f i 1).wr .HTN_PORT_STAT_state i 1
    else (s.wr f i 0).goDown i 0
  | .HTN_PORT_CTRL_renego => if on then stateOf (execRenego src i s) s else s
  | .TRC_SNAPSHOT_go => if on then stateOf (execTrcSnapshot src s) s else s
  | .RAS_RESET_prt_go => if on then stateOf (execPartitionReset src (s.rd .RAS_RESET_prt 0) s) s else s
  | .RAS_RESET_chip_go => if on then stateOf (execChipWarmReset src ⟨[], [], []⟩ s) s else s
  | .RAS_RESET_cycle_go => if on then stateOf (execPowerCycle src s) s else s
  | .RAS_DUMP_CTRL_go => if on then stateOf (execDump src s) s else s
  | .RAS_DUMP_CTRL_copy => if on then stateOf (execDumpCopy src s) s else s
  | .RAS_CTX_WDOG_ms => if v = 0 then s else s.plain f i v
  | .EMU_LEASE_id => s.leaseRenew v
  | .EMU_LEASE_claim => if on then s.leaseClaim 0 else s
  | .EMU_LEASE_rings => if on then s.ringsResume else s
  | .EMU_LEASE_CFG_ms => if v < 100 ∨ 60000 < v then s else s.plain f i v
  | .EMU_LOG_BASE_addr | .EMU_LOG_CFG_en | .EMU_LOG_CFG_size | .EMU_LOG_HEAD_idx | .EMU_TRACE_mask | .EMU_CMD_seq | .EMU_CMD_op =>
    s.emuField f i v
  | _ => s.unlocked f i v

/-- `REGISTER_WRITE`: a write to a register field; a source that may not write it is ignored. A word that a host or management
writes is one command for each of its fields, log entry 40. -/
def execRegisterWrite (src : Src) (f : Fld) (i v : Nat) (s : State) : Host.Outcome State Fault Refusal :=
  checked s (.registerWrite src f i v) (if s.mayWrite src f.desc.reg i then s.fieldWrite src f i v else s)

end Sys2Proof.Machine
end

