-- ==== Sys2Proof/Machine/Dispatch.lean ====
section
/-! DEFINITION. One arm per command. -/

namespace Sys2Proof.Machine

def exec (i : Instr) (s : State) : Host.Outcome State Fault Refusal :=
  match i with
  | .registerWrite src f ix v => Sys2Proof.Machine.execRegisterWrite src f ix v s
  | .pwrPkgPeakRead src => Sys2Proof.Machine.execPwrPkgPeakRead src s
  | .trcSnapshot src => Sys2Proof.Machine.execTrcSnapshot src s
  | .snapshotDone => Sys2Proof.Machine.execSnapshotDone s
  | .dispatchMessage g task => Sys2Proof.Machine.execDispatchMessage g task s
  | .readyReport head from_ => Sys2Proof.Machine.execReadyReport head from_ s
  | .startToken head => Sys2Proof.Machine.execStartToken head s
  | .startTokenReceive g => Sys2Proof.Machine.execStartTokenReceive g s
  | .aEntryArrival g e => Sys2Proof.Machine.execAEntryArrival g e s
  | .spanHoldFault g => Sys2Proof.Machine.execSpanHoldFault g s
  | .humEnd g grp => Sys2Proof.Machine.execHumEnd g grp s
  | .nop g sl p => Sys2Proof.Machine.execNop g sl p s
  | .add g o => Sys2Proof.Machine.execAdd g o s
  | .sub g o => Sys2Proof.Machine.execSub g o s
  | .mul g o => Sys2Proof.Machine.execMul g o s
  | .and g o => Sys2Proof.Machine.execAnd g o s
  | .or g o => Sys2Proof.Machine.execOr g o s
  | .xor g o => Sys2Proof.Machine.execXor g o s
  | .shl g o => Sys2Proof.Machine.execShl g o s
  | .shr g o => Sys2Proof.Machine.execShr g o s
  | .sar g o => Sys2Proof.Machine.execSar g o s
  | .min g o => Sys2Proof.Machine.execMin g o s
  | .max g o => Sys2Proof.Machine.execMax g o s
  | .addi g o => Sys2Proof.Machine.execAddi g o s
  | .li g o => Sys2Proof.Machine.execLi g o s
  | .lih g o => Sys2Proof.Machine.execLih g o s
  | .lit g o => Sys2Proof.Machine.execLit g o s
  | .aadd g o => Sys2Proof.Machine.execAadd g o s
  | .aaddi g o => Sys2Proof.Machine.execAaddi g o s
  | .amov g o => Sys2Proof.Machine.execAmov g o s
  | .smova g o => Sys2Proof.Machine.execSmova g o s
  | .cmpeq g o => Sys2Proof.Machine.execCmpeq g o s
  | .cmplt g o => Sys2Proof.Machine.execCmplt g o s
  | .cmpltu g o => Sys2Proof.Machine.execCmpltu g o s
  | .cmpeqi g o => Sys2Proof.Machine.execCmpeqi g o s
  | .cmplti g o => Sys2Proof.Machine.execCmplti g o s
  | .pand g o => Sys2Proof.Machine.execPand g o s
  | .por g o => Sys2Proof.Machine.execPor g o s
  | .pxor g o => Sys2Proof.Machine.execPxor g o s
  | .pnot g o => Sys2Proof.Machine.execPnot g o s
  | .rdctl g o => Sys2Proof.Machine.execRdctl g o s
  | .br g o => Sys2Proof.Machine.execBr g o s
  | .bri g o => Sys2Proof.Machine.execBri g o s
  | .call g o => Sys2Proof.Machine.execCall g o s
  | .ret g o => Sys2Proof.Machine.execRet g o s
  | .loop g o => Sys2Proof.Machine.execLoop g o s
  | .yield g p => Sys2Proof.Machine.execYield g p s
  | .endTask g p => Sys2Proof.Machine.execEndTask g p s
  | .trap g o => Sys2Proof.Machine.execTrap g o s
  | .yieldSpacing g => Sys2Proof.Machine.execYieldSpacing g s
  | .trapStop g => Sys2Proof.Machine.execTrapStop g s
  | .vadd g o => Sys2Proof.Machine.execVadd g o s
  | .vsub g o => Sys2Proof.Machine.execVsub g o s
  | .vmul g o => Sys2Proof.Machine.execVmul g o s
  | .vfma g o => Sys2Proof.Machine.execVfma g o s
  | .vmin g o => Sys2Proof.Machine.execVmin g o s
  | .vmax g o => Sys2Proof.Machine.execVmax g o s
  | .vabs g o => Sys2Proof.Machine.execVabs g o s
  | .vneg g o => Sys2Proof.Machine.execVneg g o s
  | .vadds g o => Sys2Proof.Machine.execVadds g o s
  | .vcvt g o => Sys2Proof.Machine.execVcvt g o s
  | .vrcp g o => Sys2Proof.Machine.execVrcp g o s
  | .vrsq g o => Sys2Proof.Machine.execVrsq g o s
  | .vsqrt g o => Sys2Proof.Machine.execVsqrt g o s
  | .vcmpeq g o => Sys2Proof.Machine.execVcmpeq g o s
  | .vcmplt g o => Sys2Proof.Machine.execVcmplt g o s
  | .vcmple g o => Sys2Proof.Machine.execVcmple g o s
  | .vsel g o => Sys2Proof.Machine.execVsel g o s
  | .vand g o => Sys2Proof.Machine.execVand g o s
  | .vor g o => Sys2Proof.Machine.execVor g o s
  | .vxor g o => Sys2Proof.Machine.execVxor g o s
  | .vhsum g o => Sys2Proof.Machine.execVhsum g o s
  | .vbcast g o => Sys2Proof.Machine.execVbcast g o s
  | .vext g o => Sys2Proof.Machine.execVext g o s
  | .vany g o => Sys2Proof.Machine.execVany g o s
  | .aop g o => Sys2Proof.Machine.execAop g o s
  | .aldb g o => Sys2Proof.Machine.execAldb g o s
  | .adrn g o => Sys2Proof.Machine.execAdrn g o s
  | .aclr g o => Sys2Proof.Machine.execAclr g o s
  | .aopComplete g => Sys2Proof.Machine.execAopComplete g s
  | .aldbComplete g => Sys2Proof.Machine.execAldbComplete g s
  | .adrnComplete g => Sys2Proof.Machine.execAdrnComplete g s
  | .aclrComplete g => Sys2Proof.Machine.execAclrComplete g s
  | .vld g o => Sys2Proof.Machine.execVld g o s
  | .vldb g o => Sys2Proof.Machine.execVldb g o s
  | .vst g o => Sys2Proof.Machine.execVst g o s
  | .sld g o => Sys2Proof.Machine.execSld g o s
  | .sst g o => Sys2Proof.Machine.execSst g o s
  | .ald g o => Sys2Proof.Machine.execAld g o s
  | .padd64 g o => Sys2Proof.Machine.execPadd64 g o s
  | .padd32 g o => Sys2Proof.Machine.execPadd32 g o s
  | .pswp64 g o => Sys2Proof.Machine.execPswp64 g o s
  | .pswp32 g o => Sys2Proof.Machine.execPswp32 g o s
  | .mget g o => Sys2Proof.Machine.execMget g o s
  | .mput g o => Sys2Proof.Machine.execMput g o s
  | .farMoveComplete g k => Sys2Proof.Machine.execFarMoveComplete g k s
  | .epost g o => Sys2Proof.Machine.execEpost g o s
  | .sinc g o => Sys2Proof.Machine.execSinc g o s
  | .sinc1 g o => Sys2Proof.Machine.execSinc1 g o s
  | .swait g o => Sys2Proof.Machine.execSwait g o s
  | .swaitEnd g => Sys2Proof.Machine.execSwaitEnd g s
  | .srd g o => Sys2Proof.Machine.execSrd g o s
  | .ssig g o => Sys2Proof.Machine.execSsig g o s
  | .ssigArrival g sem => Sys2Proof.Machine.execSsigArrival g sem s
  | .fetchLineArrival g line => Sys2Proof.Machine.execFetchLineArrival g line s
  | .requestPromotion g r bank => Sys2Proof.Machine.execRequestPromotion g r bank s
  | .preemptionRequest g => Sys2Proof.Machine.execPreemptionRequest g s
  | .yieldDecision g yes => Sys2Proof.Machine.execYieldDecision g yes s
  | .taskComplete g => Sys2Proof.Machine.execTaskComplete g s
  | .galSeqCtrlRun src g v => Sys2Proof.Machine.execGalSeqCtrlRun src g v s
  | .galSeqCtrlStep src g => Sys2Proof.Machine.execGalSeqCtrlStep src g s
  | .engineNop g e => Sys2Proof.Machine.execEngineNop g e s
  | .attend g => Sys2Proof.Machine.execAttend g s
  | .lnorm g => Sys2Proof.Machine.execLnorm g s
  | .rmsnorm g => Sys2Proof.Machine.execRmsnorm g s
  | .act g => Sys2Proof.Machine.execAct g s
  | .actGated g => Sys2Proof.Machine.execActGated g s
  | .actTable g => Sys2Proof.Machine.execActTable g s
  | .gather g => Sys2Proof.Machine.execGather g s
  | .dispatch g => Sys2Proof.Machine.execDispatch g s
  | .combine g => Sys2Proof.Machine.execCombine g s
  | .transpose g => Sys2Proof.Machine.execTranspose g s
  | .convert g => Sys2Proof.Machine.execConvert g s
  | .quant g => Sys2Proof.Machine.execQuant g s
  | .dequant g => Sys2Proof.Machine.execDequant g s
  | .reduce g => Sys2Proof.Machine.execReduce g s
  | .send g => Sys2Proof.Machine.execSend g s
  | .relay g => Sys2Proof.Machine.execRelay g s
  | .relayTimeout g slot => Sys2Proof.Machine.execRelayTimeout g slot s
  | .words g => Sys2Proof.Machine.execWords g s
  | .uniform g => Sys2Proof.Machine.execUniform g s
  | .dropMask g => Sys2Proof.Machine.execDropMask g s
  | .dropApply g => Sys2Proof.Machine.execDropApply g s
  | .copy g e => Sys2Proof.Machine.execCopy g e s
  | .copy2d g e => Sys2Proof.Machine.execCopy2d g e s
  | .fill g e => Sys2Proof.Machine.execFill g e s
  | .compress g => Sys2Proof.Machine.execCompress g s
  | .decompress g => Sys2Proof.Machine.execDecompress g s
  | .commandComplete g e => Sys2Proof.Machine.execCommandComplete g e s
  | .galEngRing src g e base size en => Sys2Proof.Machine.execGalEngRing src g e base size en s
  | .galEngRst src g e => Sys2Proof.Machine.execGalEngRst src g e s
  | .engineWatchdog g e => Sys2Proof.Machine.execEngineWatchdog g e s
  | .missedStopTime g e => Sys2Proof.Machine.execMissedStopTime g e s
  | .staleArrival g e => Sys2Proof.Machine.execStaleArrival g e s
  | .patrolScrub g => Sys2Proof.Machine.execPatrolScrub g s
  | .geodeWipe g => Sys2Proof.Machine.execGeodeWipe g s
  | .geodeWipeDone g => Sys2Proof.Machine.execGeodeWipeDone g s
  | .marchStart src g => Sys2Proof.Machine.execMarchStart src g s
  | .marchTestDone g fails verify => Sys2Proof.Machine.execMarchTestDone g fails verify s
  | .bankOwnerWrite src g bank ctx valid => Sys2Proof.Machine.execBankOwnerWrite src g bank ctx valid s
  | .bankClear src g bank ctx valid => Sys2Proof.Machine.execBankClear src g bank ctx valid s
  | .bankClearDone g bank => Sys2Proof.Machine.execBankClearDone g bank s
  | .hbmRead r => Sys2Proof.Machine.execHbmRead r s
  | .hbmWrite r data => Sys2Proof.Machine.execHbmWrite r data s
  | .parityWrite chan line => Sys2Proof.Machine.execParityWrite chan line s
  | .ddr5Read r => Sys2Proof.Machine.execDdr5Read r s
  | .ddr5Write r data => Sys2Proof.Machine.execDdr5Write r data s
  | .memoryAtomic r op operand => Sys2Proof.Machine.execMemoryAtomic r op operand s
  | .channelLoss ddr chan => Sys2Proof.Machine.execChannelLoss ddr chan s
  | .rebuildDone chan => Sys2Proof.Machine.execRebuildDone chan s
  | .recalibration ddr chan => Sys2Proof.Machine.execRecalibration ddr chan s
  | .refresh ddr chan => Sys2Proof.Machine.execRefresh ddr chan s
  | .memoryScrub ddr chan => Sys2Proof.Machine.execMemoryScrub ddr chan s
  | .memOwnCmdGo src p => Sys2Proof.Machine.execMemOwnCmdGo src p s
  | .ownerPropagationDone p => Sys2Proof.Machine.execOwnerPropagationDone p s
  | .zeroFillDone ddr unit => Sys2Proof.Machine.execZeroFillDone ddr unit s
  | .sequenceApertureAccess g ctx addr len wr => Sys2Proof.Machine.execSequenceApertureAccess g ctx addr len wr s
  | .controlLineWrite g ctx idx l => Sys2Proof.Machine.execControlLineWrite g ctx idx l s
  | .controlLineRead g ctx idx => Sys2Proof.Machine.execControlLineRead g ctx idx s
  | .pageMoveDone idx page => Sys2Proof.Machine.execPageMoveDone idx page s
  | .backgroundSpill p => Sys2Proof.Machine.execBackgroundSpill p s
  | .seqCreate src p => Sys2Proof.Machine.execSeqCreate src p s
  | .seqDestroy src p => Sys2Proof.Machine.execSeqDestroy src p s
  | .seqDestroyDone p => Sys2Proof.Machine.execSeqDestroyDone p s
  | .seqSetClass src p => Sys2Proof.Machine.execSeqSetClass src p s
  | .seqQuery src p => Sys2Proof.Machine.execSeqQuery src p s
  | .surveyLoad src => Sys2Proof.Machine.execSurveyLoad src s
  | .surveyFetchDone bytes => Sys2Proof.Machine.execSurveyFetchDone bytes s
  | .relayoutDone p => Sys2Proof.Machine.execRelayoutDone p s
  | .svyCommit src => Sys2Proof.Machine.execSvyCommit src s
  | .svyAbort src => Sys2Proof.Machine.execSvyAbort src s
  | .commitSequence => Sys2Proof.Machine.execCommitSequence s
  | .drainBound => Sys2Proof.Machine.execDrainBound s
  | .bind => Sys2Proof.Machine.execBind s
  | .windowClose => Sys2Proof.Machine.execWindowClose s
  | .nakMoved p => Sys2Proof.Machine.execNakMoved p s
  | .seal src p => Sys2Proof.Machine.execSeal src p s
  | .ctxCreate f a => Sys2Proof.Machine.execCtxCreate f a s
  | .ctxAbort f a => Sys2Proof.Machine.execCtxAbort f a s
  | .ctxDestroy f a => Sys2Proof.Machine.execCtxDestroy f a s
  | .ctxSet f a => Sys2Proof.Machine.execCtxSet f a s
  | .ctxEvring f a => Sys2Proof.Machine.execCtxEvring f a s
  | .ctxQuery f a => Sys2Proof.Machine.execCtxQuery f a s
  | .qCreate f a => Sys2Proof.Machine.execQCreate f a s
  | .qDestroy f a => Sys2Proof.Machine.execQDestroy f a s
  | .qResume f a => Sys2Proof.Machine.execQResume f a s
  | .qQuery f a => Sys2Proof.Machine.execQQuery f a s
  | .mobjCreate f a => Sys2Proof.Machine.execMobjCreate f a s
  | .mobjRetain f a => Sys2Proof.Machine.execMobjRetain f a s
  | .mobjRelease f a => Sys2Proof.Machine.execMobjRelease f a s
  | .mobjQuery f a => Sys2Proof.Machine.execMobjQuery f a s
  | .fenCreate f a => Sys2Proof.Machine.execFenCreate f a s
  | .fenSignal f a => Sys2Proof.Machine.execFenSignal f a s
  | .fenError f a => Sys2Proof.Machine.execFenError f a s
  | .fenArm f a => Sys2Proof.Machine.execFenArm f a s
  | .fenQuery f a => Sys2Proof.Machine.execFenQuery f a s
  | .fenDestroy f a => Sys2Proof.Machine.execFenDestroy f a s
  | .inlineDescriptor w => Sys2Proof.Machine.execInlineDescriptor w s
  | .extension w => Sys2Proof.Machine.execExtension w s
  | .tailDoorbell w => Sys2Proof.Machine.execTailDoorbell w s
  | .eventRingHead w => Sys2Proof.Machine.execEventRingHead w s
  | .ringFetch q entries => Sys2Proof.Machine.execRingFetch q entries s
  | .descriptorStart q => Sys2Proof.Machine.execDescriptorStart q s
  | .bestEffortPlacement p => Sys2Proof.Machine.execBestEffortPlacement p s
  | .latencyCriticalPlacement p => Sys2Proof.Machine.execLatencyCriticalPlacement p s
  | .resume task => Sys2Proof.Machine.execResume task s
  | .retire task => Sys2Proof.Machine.execRetire task s
  | .dlogSwap src f => Sys2Proof.Machine.execDlogSwap src f s
  | .dlogEnable src f => Sys2Proof.Machine.execDlogEnable src f s
  | .mlogSwap src p => Sys2Proof.Machine.execMlogSwap src p s
  | .mlogEnable src p => Sys2Proof.Machine.execMlogEnable src p s
  | .swapped mlog ix => Sys2Proof.Machine.execSwapped mlog ix s
  | .deviceMemoryApertureAccess f off len wr => Sys2Proof.Machine.execDeviceMemoryApertureAccess f off len wr s
  | .functionLevelReset f => Sys2Proof.Machine.execFunctionLevelReset f s
  | .vfEnableClear => Sys2Proof.Machine.execVfEnableClear s
  | .d3hotEntry f => Sys2Proof.Machine.execD3hotEntry f s
  | .d0Return f => Sys2Proof.Machine.execD0Return f s
  | .setRoot f a => Sys2Proof.Machine.execSetRoot f a s
  | .winExport f a => Sys2Proof.Machine.execWinExport f a s
  | .winImport f a => Sys2Proof.Machine.execWinImport f a s
  | .winClose f a => Sys2Proof.Machine.execWinClose f a s
  | .winQuery f a => Sys2Proof.Machine.execWinQuery f a s
  | .xltIqTail src f v => Sys2Proof.Machine.execXltIqTail src f v s
  | .invVa f c => Sys2Proof.Machine.execInvVa f c s
  | .invCtx f c => Sys2Proof.Machine.execInvCtx f c s
  | .invFunc f c => Sys2Proof.Machine.execInvFunc f c s
  | .wait f c => Sys2Proof.Machine.execWait f c s
  | .faultReply f c => Sys2Proof.Machine.execFaultReply f c s
  | .invalidationComplete f => Sys2Proof.Machine.execInvalidationComplete f s
  | .xltIqStatErrClear src f => Sys2Proof.Machine.execXltIqStatErrClear src f s
  | .atsInvalidation f addr len => Sys2Proof.Machine.execAtsInvalidation f addr len s
  | .faultRecordPost g e => Sys2Proof.Machine.execFaultRecordPost g e s
  | .xltFrHead src f v => Sys2Proof.Machine.execXltFrHead src f v s
  | .priResponse g e ok => Sys2Proof.Machine.execPriResponse g e ok s
  | .priTimeout g e => Sys2Proof.Machine.execPriTimeout g e s
  | .progReg src p a => Sys2Proof.Machine.execProgReg src p a s
  | .progLoad src p a => Sys2Proof.Machine.execProgLoad src p a s
  | .progLoadCopyDone p slot g => Sys2Proof.Machine.execProgLoadCopyDone p slot g s
  | .progUnload src p a => Sys2Proof.Machine.execProgUnload src p a s
  | .progUnreg src p a => Sys2Proof.Machine.execProgUnreg src p a s
  | .progQuery src p a => Sys2Proof.Machine.execProgQuery src p a s
  | .deadlineMiss task => Sys2Proof.Machine.execDeadlineMiss task s
  | .deadlineCounterWrap p => Sys2Proof.Machine.execDeadlineCounterWrap p s
  | .latencyUpdate p cls port ns => Sys2Proof.Machine.execLatencyUpdate p cls port ns s
  | .bucketRefill p cls port => Sys2Proof.Machine.execBucketRefill p cls port s
  | .renego src n => Sys2Proof.Machine.execRenego src n s
  | .autoNegotiation n lpAbility lpEth => Sys2Proof.Machine.execAutoNegotiation n lpAbility lpEth s
  | .linkUp n lanesTrained => Sys2Proof.Machine.execLinkUp n lanesTrained s
  | .laneLoss n lane => Sys2Proof.Machine.execLaneLoss n lane s
  | .payloadFlit n f => Sys2Proof.Machine.execPayloadFlit n f s
  | .controlFlit n ack credits => Sys2Proof.Machine.execControlFlit n ack credits s
  | .replayRequest n seq => Sys2Proof.Machine.execReplayRequest n seq s
  | .linkDown n => Sys2Proof.Machine.execLinkDown n s
  | .ack ses apsn bitmap => Sys2Proof.Machine.execAck ses apsn bitmap s
  | .nak ses first count => Sys2Proof.Machine.execNak ses first count s
  | .ackCoalescing ses => Sys2Proof.Machine.execAckCoalescing ses s
  | .nakDelay ses => Sys2Proof.Machine.execNakDelay ses s
  | .retransmissionTime ses psn => Sys2Proof.Machine.execRetransmissionTime ses psn s
  | .requestTime ses rid => Sys2Proof.Machine.execRequestTime ses rid s
  | .write n ses t => Sys2Proof.Machine.execWrite n ses t s
  | .read n ses t => Sys2Proof.Machine.execRead n ses t s
  | .atomic n ses t => Sys2Proof.Machine.execAtomic n ses t s
  | .reduceTransaction n ses t => Sys2Proof.Machine.execReduceTransaction n ses t s
  | .reduceHold p tag => Sys2Proof.Machine.execReduceHold p tag s
  | .message n ses t => Sys2Proof.Machine.execMessage n ses t s
  | .fenceSignal n ses t => Sys2Proof.Machine.execFenceSignal n ses t s
  | .revoke n ses t => Sys2Proof.Machine.execRevoke n ses t s
  | .response n ses t => Sys2Proof.Machine.execResponse n ses t s
  | .greetingOffer n gr => Sys2Proof.Machine.execGreetingOffer n gr s
  | .greetingConfirm n gr => Sys2Proof.Machine.execGreetingConfirm n gr s
  | .greetingLeave n ses ports => Sys2Proof.Machine.execGreetingLeave n ses ports s
  | .greetingUpdate n ses gen => Sys2Proof.Machine.execGreetingUpdate n ses gen s
  | .greetingStep n ses => Sys2Proof.Machine.execGreetingStep n ses s
  | .packetCountRekey ses => Sys2Proof.Machine.execPacketCountRekey ses s
  | .keyOverlap ses => Sys2Proof.Machine.execKeyOverlap ses s
  | .htnSess f n a => Sys2Proof.Machine.execHtnSess f n a s
  | .htnFlink f n a => Sys2Proof.Machine.execHtnFlink f n a s
  | .htnFunlink f n a => Sys2Proof.Machine.execHtnFunlink f n a s
  | .htnRekey f n a => Sys2Proof.Machine.execHtnRekey f n a s
  | .htnAtomic f n a => Sys2Proof.Machine.execHtnAtomic f n a s
  | .arpRequest n ip => Sys2Proof.Machine.execArpRequest n ip s
  | .neighbourSolicitation n ip => Sys2Proof.Machine.execNeighbourSolicitation n ip s
  | .refclkLoss ref => Sys2Proof.Machine.execRefclkLoss ref s
  | .phaseWindow g cls measured => Sys2Proof.Machine.execPhaseWindow g cls measured s
  | .redistribution avgW otherW leakW => Sys2Proof.Machine.execRedistribution avgW otherW leakW s
  | .voltageReport h => Sys2Proof.Machine.execVoltageReport h s
  | .voltageReportTimeout h => Sys2Proof.Machine.execVoltageReportTimeout h s
  | .avsbusTimeout h => Sys2Proof.Machine.execAvsbusTimeout h s
  | .fastThrottle => Sys2Proof.Machine.execFastThrottle s
  | .droopTrip g => Sys2Proof.Machine.execDroopTrip g s
  | .stretchEnd g => Sys2Proof.Machine.execStretchEnd g s
  | .deferralEnd h => Sys2Proof.Machine.execDeferralEnd h s
  | .regulatorAlert => Sys2Proof.Machine.execRegulatorAlert s
  | .alertRelease => Sys2Proof.Machine.execAlertRelease s
  | .thermalSample temps => Sys2Proof.Machine.execThermalSample temps s
  | .temperatureClamp h => Sys2Proof.Machine.execTemperatureClamp h s
  | .thermalTrip => Sys2Proof.Machine.execThermalTrip s
  | .contextWatchdog g => Sys2Proof.Machine.execContextWatchdog g s
  | .echoTimeout g => Sys2Proof.Machine.execEchoTimeout g s
  | .internalCheck g => Sys2Proof.Machine.execInternalCheck g s
  | .sharedStructureFault structure_ copy logic => Sys2Proof.Machine.execSharedStructureFault structure_ copy logic s
  | .meshStopFence g => Sys2Proof.Machine.execMeshStopFence g s
  | .escalation row unit => Sys2Proof.Machine.execEscalation row unit s
  | .partitionReset src p => Sys2Proof.Machine.execPartitionReset src p s
  | .chipWarmReset src t => Sys2Proof.Machine.execChipWarmReset src t s
  | .powerCycle src => Sys2Proof.Machine.execPowerCycle src s
  | .dump src => Sys2Proof.Machine.execDump src s
  | .dumpReadTimeout kind unit => Sys2Proof.Machine.execDumpReadTimeout kind unit s
  | .dumpBound => Sys2Proof.Machine.execDumpBound s
  | .dumpCopy src => Sys2Proof.Machine.execDumpCopy src s
  | .dumpCopyDone ok => Sys2Proof.Machine.execDumpCopyDone ok s
  | .emuRead f off => Sys2Proof.Machine.execEmuRead f off s
  | .emuBusy f off => Sys2Proof.Machine.execEmuBusy f off s
  | .emuWrite f off v => Sys2Proof.Machine.execEmuWrite f off v s
  | .clearLog f seq => Sys2Proof.Machine.execClearLog f seq s
  | .reportTelemetry f seq => Sys2Proof.Machine.execReportTelemetry f seq s
  | .coreCrash core => Sys2Proof.Machine.execCoreCrash core s
  | .leaseClaim f id => Sys2Proof.Machine.execLeaseClaim f id s
  | .leaseRenew f id => Sys2Proof.Machine.execLeaseRenew f id s
  | .rings f => Sys2Proof.Machine.execRings f s
  | .leaseExpiry => Sys2Proof.Machine.execLeaseExpiry s
  | .firmwareUpdate m comp image => Sys2Proof.Machine.execFirmwareUpdate m comp image s
  | .liveActivation => Sys2Proof.Machine.execLiveActivation s
  | .lifeCycleTransition m goal authorised keys cert => Sys2Proof.Machine.execLifeCycleTransition m goal authorised keys cert s
  | .keyStage m slot pub chainOk => Sys2Proof.Machine.execKeyStage m slot pub chainOk s
  | .keySwap m slot sigOk => Sys2Proof.Machine.execKeySwap m slot sigOk s
  | .drainFence slot => Sys2Proof.Machine.execDrainFence slot s
  | .slotFree slot => Sys2Proof.Machine.execSlotFree slot s
  | .drbgReseed => Sys2Proof.Machine.execDrbgReseed s
  | .getVersion m => Sys2Proof.Machine.execGetVersion m s
  | .getCapabilities m => Sys2Proof.Machine.execGetCapabilities m s
  | .negotiateAlgorithms m => Sys2Proof.Machine.execNegotiateAlgorithms m s
  | .getDigests m => Sys2Proof.Machine.execGetDigests m s
  | .getCertificate m slot => Sys2Proof.Machine.execGetCertificate m slot s
  | .challenge m => Sys2Proof.Machine.execChallenge m s
  | .getMeasurements m index => Sys2Proof.Machine.execGetMeasurements m index s
  | .keyExchange m => Sys2Proof.Machine.execKeyExchange m s
  | .finish m => Sys2Proof.Machine.execFinish m s
  | .heartbeat m => Sys2Proof.Machine.execHeartbeat m s
  | .heartbeatTimeout m => Sys2Proof.Machine.execHeartbeatTimeout m s
  | .keyUpdate m => Sys2Proof.Machine.execKeyUpdate m s
  | .endSession m => Sys2Proof.Machine.execEndSession m s
  | .vendorDefinedRequest m proto code arg => Sys2Proof.Machine.execVendorDefinedRequest m proto code arg s
  | .lockInterfaceRequest m f => Sys2Proof.Machine.execLockInterfaceRequest m f s
  | .stopInterfaceRequest m f => Sys2Proof.Machine.execStopInterfaceRequest m f s
  | .tamperCheck ok => Sys2Proof.Machine.execTamperCheck ok s
  | .setEndpointId eid => Sys2Proof.Machine.execSetEndpointId eid s
  | .getEndpointId => Sys2Proof.Machine.execGetEndpointId s
  | .getVersionSupport ty => Sys2Proof.Machine.execGetVersionSupport ty s
  | .getMessageTypeSupport => Sys2Proof.Machine.execGetMessageTypeSupport s
  | .getVendorDefinedMessageSupport => Sys2Proof.Machine.execGetVendorDefinedMessageSupport s
  | .getTid => Sys2Proof.Machine.execGetTid s
  | .getPldmVersion ty => Sys2Proof.Machine.execGetPldmVersion ty s
  | .getPldmTypes => Sys2Proof.Machine.execGetPldmTypes s
  | .getPldmCommands ty => Sys2Proof.Machine.execGetPldmCommands ty s
  | .surveyBegin m len => Sys2Proof.Machine.execSurveyBegin m len s
  | .surveyData m off bytes => Sys2Proof.Machine.execSurveyData m off bytes s
  | .surveyApply m hold => Sys2Proof.Machine.execSurveyApply m hold s
  | .surveyCommit m => Sys2Proof.Machine.execSurveyCommit m s
  | .surveyAbort m => Sys2Proof.Machine.execSurveyAbort m s
  | .surveyStatus m => Sys2Proof.Machine.execSurveyStatus m s
  | .defaultSurveyWrite m => Sys2Proof.Machine.execDefaultSurveyWrite m s
  | .dumpRead m off len => Sys2Proof.Machine.execDumpRead m off len s
  | .resetRequest m kind p t => Sys2Proof.Machine.execResetRequest m kind p t s
  | .powerGood b => Sys2Proof.Machine.execPowerGood b s
  | .railDropBeforeReady => Sys2Proof.Machine.execRailDropBeforeReady s
  | .railOutOfRange => Sys2Proof.Machine.execRailOutOfRange s
  | .perstNDeassert => Sys2Proof.Machine.execPerstNDeassert s
  | .perstNAssert => Sys2Proof.Machine.execPerstNAssert s
  | .pciExpressLinkDown => Sys2Proof.Machine.execPciExpressLinkDown s
  | .entdaa dynAddr => Sys2Proof.Machine.execEntdaa dynAddr s
  | .entropyHealthTest ok => Sys2Proof.Machine.execEntropyHealthTest ok s
  | .pciExpressLinkUp => Sys2Proof.Machine.execPciExpressLinkUp s

end Sys2Proof.Machine
end

