-- ==== Sys2Proof/Machine/Tick.lean ====
section
/-! DEFINITION. Time: what one idle step of 20 ns adds to the domain counters, the deadline counters and the counters of withheld
credits (R23, R24, R349), and the end of a dump that captures (R390). The length of the step is the model's choice, log entry 2. -/

namespace Sys2Proof.Machine

/-- Cycles of a domain in 20 ns (*Clock domains*); the hall clocks by their current step (R351). -/
def State.cyclesOf (s : State) (dom : Nat) : Nat :=
  match dom with
  | 1 | 2 => 8 + 2 * s.rd .PWR_HALL_STAT_cur (dom - 1)
  | 3 => 24
  | 4 | 5 | 7 | 8 => 25
  | 6 | 11 => 20
  | 9 | 10 => 32
  | 12 => 5
  | _ => 0

/-- The reference of a domain, by its bit of PWR_REF_STAT (*Clock domains*, R352). -/
def domRef (dom : Nat) : Nat :=
  match dom with
  | 6 => 0
  | 4 => 2
  | 5 => 3
  | _ => 1

/-- Whether PWR_REF_STAT shows the loss of a reference. -/
def State.refLost (s : State) (ref : Nat) : Bool := bit (s.rd .PWR_REF_STAT_lost 0) ref

/-- Advance one domain counter, which is 64 bits wide; the domains of a lost reference stand still. -/
def State.tickDom (s : State) (dom : Nat) : State :=
  if s.refLost (domRef dom) then s
  else { s with clocks := s.clocks.set 0 dom ((s.clocks.get 0 dom + s.cyclesOf dom) % 2 ^ 64) }

/-- Advance the deadline counter of a partition by two reference periods (R24, R314). -/
def State.tickDeadline (s : State) (p : Nat) : State :=
  let v := s.rd .DSP_DLCNT_count p + 2
  if !(s.part p).defined || s.refLost 1 then s
  else (if 2 ^ 48 ≤ v then s.wrapDeadline p else s).wr .DSP_DLCNT_count p (v % 2 ^ 48)

/-- Count the link cycles in which a port withholds elastic credits (HTN_RX_BP). -/
def State.tickPort (s : State) (n : Nat) : State :=
  if s.flag .HTN_RX_STAT_bp n && !s.refLost (domRef (portDom n)) then s.count .HTN_RX_BP_count .HTN_RX_BP_ovf n 25 else s

/-- Time passes. -/
def State.passTime (s : State) : State :=
  let s := s.each ((List.range 12).map (· + 1)) State.tickDom
  (s.each (List.range 32) State.tickDeadline).each (List.range 32) State.tickPort

/-- One idle step: a dump that captures ends; while nothing is stopped, time passes. -/
def State.idle (s : State) : State :=
  let s := if s.pwr.stop ≤ 1 then s.finishDump else s
  if s.pwr.stop = 0 then s.passTime else s

end Sys2Proof.Machine
end

