-- ==== Sys2Proof/Safety.lean ====
section
/-! DEFINITION. What a safe run is, and the terms that the statements are written in. -/

namespace Sys2Proof.Machine

/-- Whether the step at a state leads to a next state. -/
def State.steps (s : State) : Bool :=
  match step s with
  | .next _ => true
  | _ => false

/-- Whether every command that waits is one the part has: a run from such a state is refused nowhere. -/
def State.queueOk (s : State) : Bool := s.pending.all Instr.wf

-- Bundles ---------------------------------------------------------------------------------------------------------------

/-- A gallery issues the bundle that is due: a task runs and is not held, halted or waiting, no empty loop owes a bundle, the mark is not
overdue and the bundle lies in the window. Earlier results that are due have arrived. -/
def State.bundleDue (s : State) (g : Nat) : Prop :=
  g < 32 ∧ s.pwr.stop = 0 ∧ (s.gal g).ended = false ∧ s.running g = true ∧ (s.gal g).wait = .none
    ∧ s.flag .GAL_SEQ_CTRL_run g = true ∧ s.holds g = false ∧ (s.gal g).nops = 0
    ∧ ((s.deliver g).gal g).sinceMark < 1024
    ∧ inWindow ((s.deliver g).gal g).pc 32 ((s.deliver g).winBase g) ((s.deliver g).winLimit g) = true

/-- It issues, and the predicate of the slot in use holds. -/
def State.canIssue (s : State) (g : Nat) (p : Pred) : Prop := s.bundleDue g ∧ (s.deliver g).predTrue g p = true

/-- The state after the issue of the bundle that is due, when its slot has left t: the bundle's PC is shown, an issue cycle is counted,
and the next bundle is due. -/
def State.bundleDone (s : State) (g : Nat) (t : State) : State := t.advance g ((s.deliver g).gal g).pc

/-- Lane l of a vector word of type ty (R83). -/
def laneOf (ty : Nat) (w : VWord) (l : Nat) : Nat := (w.toNat >>> (laneW ty * l)) % 2 ^ laneW ty

/-- An instruction issues alone and leaves, lat local cycles later, the value f c l in lane l of core c of vector register vd. -/
def State.givesLanes (s : State) (g : Nat) (i : Instr) (vd lat ty : Nat) (f : Nat → Nat → Nat) : Prop :=
  ∃ (fl : Nat) (w : Nat → VWord),
    exec i s = .next (s.bundleDone g ((s.deliver g).pendRes g 2 lat fl (.v vd (w 0) (w 1) (w 2) (w 3))))
      ∧ ∀ c < 4, ∀ l < laneN ty, laneOf ty (w c) l = f c l % 2 ^ laneW ty

-- Pool accesses of a program --------------------------------------------------------------------------------------------

/-- A gallery's pool as a program meets it while nothing disturbs it: no codeword in error, no wipe, no promoted request, no array work. -/
def State.poolPlain (s : State) (g : Nat) : Prop :=
  s.poolErr = [] ∧ s.flag .GAL_POOL_CFG_wipe g = false ∧ (s.gal g).promoted = [] ∧ (s.gal g).aops = [] ∧ (s.gal g).aldb = none
    ∧ (s.gal g).adrns = []

/-- No bank of a range is being cleared. -/
def State.banksReady (s : State) (g off len : Nat) : Prop :=
  (s.banksOf g off len).any (fun b => s.flag .GAL_BANK_OWNER_busy (64 * g + b)) = false

/-- The region a program may access (R98): inside its window, outside the semaphore and pager regions. -/
def State.regionFree (s : State) (g off len : Nat) : Bool :=
  inWindow off len (s.winBase g) (s.winLimit g) && !s.inSems g off len && !s.inPager g off len

/-- A range whose access passes every check. -/
def State.rangeOk (s : State) (g off len al : Nat) : Prop :=
  s.regionFree g off len = true ∧ s.bankViols g off len (s.taskCtx g) = [] ∧ off % al = 0 ∧ s.banksReady g off len

-- Engine commands -------------------------------------------------------------------------------------------------------

/-- A gallery's pool as an engine meets it while nothing disturbs it: no codeword in error, no wipe, no bank owned or being cleared. -/
def State.poolQuiet (s : State) (g : Nat) : Prop :=
  s.poolErr = [] ∧ s.flag .GAL_POOL_CFG_wipe g = false
    ∧ ∀ b < 64, s.flag .GAL_BANK_OWNER_busy (64 * g + b) = false ∧ s.flag .GAL_BANK_OWNER_valid (64 * g + b) = false

/-- An idle engine meets command x of opcode op at its ring's head (R123 to R126, R132): its context has not moved on, its header is in
order, and the semaphore it names, if it names one, has reached its value. -/
def State.engineReady (s : State) (g e op : Nat) (x : Env) : Prop :=
  g < 32 ∧ s.pwr.stop = 0 ∧ s.heldGal g = false ∧ (s.eng (engKey g e)).cur = none ∧ s.ringHead g e = some x
    ∧ s.capStale x.cap = false ∧ x.f 0 1 = op ∧ (x.f 1 1 = 0 ∨ (x.f 1 1 = 1 ∧ x.f 8 4 ≤ s.sem g (x.f 4 2)))
    ∧ x.zero 6 2 = true ∧ x.statusOk = true ∧ s.poolQuiet g

/-- The state in which a command runs: the ring's head has advanced past it, the engine holds it and shows that it runs. -/
def State.taken (s : State) (x : Env) : State :=
  (((s.popRing x.k).modEng x.k (fun y => { y with cur := some (x.b, x.cap, x.idx), phase := .waiting 0 })).wr
    .GAL_ENG_STAT_state x.k 1).wr .GAL_ENG_STAT_ctx x.k x.cap.ctx

/-- A command has made its writes and waits for its completion, with its code and the count it reports. -/
def State.finished (s : State) (x : Env) (code count : Nat) : State :=
  s.modEng x.k (fun y => { y with phase := .finished code 0 count, parked := none })

/-- Every range of a list is aligned, inside the captured window and clear of the pager region (R129). -/
def Env.allOk (x : Env) (s : State) (l : List (Nat × Nat × Nat)) : Bool := l.all (fun r => x.poolOk s r.1 r.2.1 r.2.2)

-- Device memory ---------------------------------------------------------------------------------------------------------

/-- Every line of a range lies in a channel, and it delivers its data or the range covers it whole. -/
def State.linesGood (s : State) (p ppa len : Nat) (wr : Bool) : Prop :=
  ∀ a ∈ linesOf ppa len, (s.locOf p a).line < 2 ^ 32
    ∧ ((wr = true ∧ wholeLine a ppa len = true) ∨ (s.chanState (s.locOf p a).chan ≠ 3 ∧ s.lineBad (s.locOf p a) = 0))

/-- The controllers let n bytes of a request through: its key tag opens the partition's memory, its source may reach it, the range is
mapped and its context passes the owner entry of every frame (R191, R200, R201, R397, R426). -/
def State.reqPasses (s : State) (r : MemReq) (n : Nat) (wr : Bool) : Prop :=
  r.prt < 32 ∧ s.tagOk r.prt r.keySlot r.keyGen = true ∧ s.cpcRefused r = false ∧ s.mapped r.prt r.ppa n = true
    ∧ (s.flag .MEM_PRT_OWN_en r.prt = true → ∀ fr ∈ pagesOf r.ppa n 65536,
        ownerPasses (s.ownEntry r.prt (s.frameIdx r.prt (fr * 65536))).1 (reqCtx r) wr = true)

-- Command windows -------------------------------------------------------------------------------------------------------

/-- The state in which a command of a window runs: its arguments and its opcode stand in the window's registers (R255). -/
def State.asked (s : State) (w : CmdWin) (i op : Nat) (a : Args) : State :=
  ((((s.wr w.arg (4 * i) a.a0.toNat).wr w.arg (4 * i + 1) a.a1.toNat).wr w.arg (4 * i + 2) a.a2.toNat).wr w.arg (4 * i + 3)
    a.a3.toNat).wr w.op i op

/-- The window shows how a command ended: its error code and its result words. -/
def State.answers (s : State) (w : CmdWin) (i err r0 r1 : Nat) : State := w.results i r0 r1 (s.wr w.err i err)

/-- The state in which a command leaves a window when it answers as shown. -/
abbrev State.nextIn (t : State) (w : CmdWin) (i err r0 r1 : Nat) : Host.Outcome State Fault Refusal := .next (t.answers w i err r0 r1)

end Sys2Proof.Machine
end

