-- ==== Sys2Proof/Certificates/Slice0/Obligations.lean ====
section
/-! DEFINITION. The statements for the provers. -/

open Sys2Proof
open Sys2Proof.Machine

-- Slots S0 and S1 ---------------------------------------------------------------------------------------------------------

/-- The scalar operations of format RR (R89): what the bundle leaves in flight for register d, after how many local cycles.
The immediate forms of S0 and S1 and the control values (R89): ADDI and LI in both slots, LIH and LIT in S0, which replace a field of
the old value, RDCTL for the four control values. -/
def Obligations.ScalarOperations : Prop :=
  (∀ (s : State) (g : Nat) (o : RR), s.canIssue g o.p →
    let d := s.deliver g
    let x := d.sreg g o.x
    let y := d.sreg g o.y
    let res := fun (lat : Nat) (v : Word) => Host.Outcome.next (s.bundleDone g (d.pendRes g (sslotNo o.sl) lat 0 (.s o.d v)))
    exec (.add g o) s = res 1 (x + y)
      ∧ exec (.sub g o) s = res 1 (x - y)
      ∧ exec (.mul g o) s = res 3 (x * y)
      ∧ exec (.and g o) s = res 1 (x &&& y)
      ∧ exec (.or g o) s = res 1 (x ||| y)
      ∧ exec (.xor g o) s = res 1 (x ^^^ y)
      ∧ exec (.shl g o) s = res 1 (x <<< (y.toNat % 64))
      ∧ exec (.shr g o) s = res 1 (x >>> (y.toNat % 64))
      ∧ exec (.sar g o) s = res 1 (x.sshiftRight (y.toNat % 64))
      ∧ exec (.min g o) s = res 1 (if x.toInt < y.toInt then x else y)
      ∧ exec (.max g o) s = res 1 (if x.toInt < y.toInt then y else x)
      ∧ (o.y = 0 → exec (.smova g o) s = res 1 ((d.areg g o.x).setWidth 64)))
    ∧ (∀ (s : State) (g : Nat) (o : RI), o.ok = true → s.canIssue g o.p →
    let d := s.deliver g
    let old := d.sreg g o.d
    let res := fun (v : Word) => Host.Outcome.next (s.bundleDone g (d.pendRes g (sslotNo o.sl) 1 0 (.s o.d v)))
    exec (.addi g o) s = res (d.sreg g o.x + BitVec.ofInt 64 o.imm)
      ∧ (o.x = 0 → exec (.li g o) s = res (BitVec.ofInt 64 o.imm))
      ∧ (o.x = 0 → o.sl = .s0 → ∃ v, exec (.lih g o) s = res v ∧ v.extractLsb' 22 22 = BitVec.ofInt 22 o.imm
          ∧ v.extractLsb' 0 22 = old.extractLsb' 0 22 ∧ v.extractLsb' 44 20 = old.extractLsb' 44 20)
      ∧ (o.x = 0 → o.sl = .s0 → 0 ≤ o.imm → o.imm < 2 ^ 20 → ∃ v, exec (.lit g o) s = res v
          ∧ v.extractLsb' 44 20 = BitVec.ofInt 20 o.imm ∧ v.extractLsb' 0 44 = old.extractLsb' 0 44)
      ∧ (o.x = 0 → o.imm = 0 → exec (.rdctl g o) s = res (BitVec.ofNat 64 (d.gal g).lcycle))
      ∧ (o.x = 0 → o.imm = 1 → exec (.rdctl g o) s = res (BitVec.ofNat 64 (d.rd .GAL_SPAN_pos g)))
      ∧ (o.x = 0 → o.imm = 2 → exec (.rdctl g o) s = res (BitVec.ofNat 64 (d.rd .GAL_SPAN_len g)))
      ∧ (o.x = 0 → o.imm = 3 → exec (.rdctl g o) s = res (BitVec.ofNat 64 (d.gal g).marks)))

/-- Addresses (R89): AADD, AADDI and AMOV compute modulo 2^48. Compares and predicate logic (R89). -/
def Obligations.AddressesAndPredicates : Prop :=
  (∀ (s : State) (g : Nat),
      let d := s.deliver g
      let res := fun (sl : SSlot) (r : Nat) (v : Addr) => Host.Outcome.next (s.bundleDone g (d.pendRes g (sslotNo sl) 1 0 (.a r v)))
      (∀ o : RR, s.canIssue g o.p →
          exec (.aadd g o) s = res o.sl o.d (d.areg g o.x + (d.sreg g o.y).setWidth 48)
            ∧ (o.y = 0 → exec (.amov g o) s = res o.sl o.d ((d.sreg g o.x).setWidth 48)))
        ∧ ∀ o : RI, o.ok = true → s.canIssue g o.p → exec (.aaddi g o) s = res o.sl o.d (d.areg g o.x + BitVec.ofInt 48 o.imm))
    ∧ ∀ (s : State) (g : Nat),
      let d := s.deliver g
      let res := fun (sl : SSlot) (r : Nat) (v : Bool) => Host.Outcome.next (s.bundleDone g (d.pendRes g (sslotNo sl) 1 0 (.p r v)))
      (∀ o : RRP, s.canIssue g o.p →
          exec (.cmpeq g o) s = res o.sl o.d (decide (d.sreg g o.x = d.sreg g o.y))
            ∧ exec (.cmplt g o) s = res o.sl o.d (decide ((d.sreg g o.x).toInt < (d.sreg g o.y).toInt))
            ∧ exec (.cmpltu g o) s = res o.sl o.d (decide ((d.sreg g o.x).toNat < (d.sreg g o.y).toNat)))
        ∧ (∀ o : RIP, o.ok = true → s.canIssue g o.p →
          exec (.cmpeqi g o) s = res o.sl o.d (decide (d.sreg g o.x = BitVec.ofInt 64 o.imm))
            ∧ exec (.cmplti g o) s = res o.sl o.d (decide ((d.sreg g o.x).toInt < (BitVec.ofInt 64 o.imm).toInt)))
        ∧ ∀ o : PPP, s.canIssue g o.p →
          exec (.pand g o) s = res o.sl o.d (d.preg g o.x && d.preg g o.y)
            ∧ exec (.por g o) s = res o.sl o.d (d.preg g o.x || d.preg g o.y)
            ∧ exec (.pxor g o) s = res o.sl o.d (xor (d.preg g o.x) (d.preg g o.y))
            ∧ (o.y = 0 → exec (.pnot g o) s = res o.sl o.d (!d.preg g o.x))

/-- Branches, calls, returns and loops (R89 to R92), outside delay bundles and loop bodies: the target and the bundles until it is
taken, the return stack, the loop frame; an empty loop passes its body in three NOP bundles. NOP does nothing.
Marks, END and TRAP (R110, R112, R115, R116): a YIELD at the head with no request pending goes on with one mark more; END ends the
issue of bundles; TRAP stops the gallery with its code. -/
def Obligations.ControlAndMarks : Prop :=
  (∀ (s : State) (g : Nat) (o : CT), o.ok = true → s.canIssue g o.p →
    let d := s.deliver g
    let x := d.gal g
    let go := fun (y : Gal) => Host.Outcome.next (s.bundleDone g (d.setGal g y))
    let tgt := (((x.pc : Int) + 32 * o.imm) % (2 ^ 48 : Nat)).toNat
    let ptr := (d.areg g o.x).toNat
    let n := (d.sreg g o.x).toNat
    (∀ sl, exec (.nop g sl o.p) s = .next (s.bundleDone g d))
      ∧ (x.delay = none → x.loops = [] →
        (o.x = 0 → exec (.br g o) s = go { x with delay := some (tgt, 4) })
          ∧ (o.imm = 0 → ptr % 32 = 0 → inWindow ptr 32 (d.winBase g) (d.winLimit g) = true →
              exec (.bri g o) s = go { x with delay := some (ptr, 4) })
          ∧ (o.x = 0 → x.rets.length < 8 →
              ∃ y, exec (.call g o) s = .next (s.bundleDone g y) ∧ (y.gal g).rets = (x.pc + 128) :: x.rets
                ∧ (y.gal g).delay = some (tgt, 4) ∧ (y.gal g).s = x.s)
          ∧ (∀ r rest, x.rets = r :: rest → o.x = 0 → o.imm = 0 →
              ∃ y, exec (.ret g o) s = .next (s.bundleDone g y) ∧ (y.gal g).rets = rest ∧ (y.gal g).delay = some (r, 4)))
      ∧ (x.delay = none → x.loops = [] → 1 ≤ o.imm → o.imm ≤ 256 →
        exec (.loop g o) s = if n = 0 then go { x with nops := 3, pc := x.pc + 32 * o.imm.toNat }
          else go { x with loops := [⟨x.pc + 32, x.pc + 32 * o.imm.toNat, n, false⟩] }))
    ∧ (∀ (s : State) (g : Nat) (o : CT), o.ok = true → s.canIssue g o.p →
    let d := s.deliver g
    ((d.gal g).delay = none → d.markOk g = true → exec (.yield g o.p) s = .next ((s.bundleDone g d).markYield g))
      ∧ ((d.gal g).delay = none → exec (.endTask g o.p) s = .next ((s.bundleDone g d).markEnd g)
          ∧ (((s.bundleDone g d).markEnd g).gal g).ended = true)
      ∧ (o.x = 0 → 0 ≤ o.imm → o.imm < 2 ^ 16 →
          ∃ t, exec (.trap g o) s = .next t ∧ (t.gal g).trapped = some (0x0A, (d.gal g).pc)
            ∧ (d.flag .GAL_SEQ_TRAP_valid g = false → t.rd .GAL_SEQ_TRAP_code g = 0x0A
                ∧ t.rd .GAL_SEQ_TRAP_info g = o.imm.toNat)))

/-- What a slot may do (R86, R88, R116), for every instruction of a bundle: an illegal encoding traps whatever its predicate; with its
predicate false a legal one does nothing; with it true its effect stands, or its trap is raised and nothing else is done. -/
def Obligations.SlotOutcomes : Prop :=
  ∀ (s : State) (i : Instr) (a : SlotAct), slotAct i = some a → i.wf = true → s.bundleDue (instrGal i) →
    let g := instrGal i
    let d := s.deliver g
    let pc := (d.gal g).pc
    (a.legal = false → exec i s = .next (d.raiseTrap g a.n 0x01 0 pc))
      ∧ (a.legal = true → d.predTrue g a.p = false → exec i s = .next (s.bundleDone g d))
      ∧ (a.legal = true → d.predTrue g a.p = true → ∀ t m, a.act d = .ok t m → exec i s = .next ((s.bundleDone g t).afterIssue g m))
      ∧ (a.legal = true → d.predTrue g a.p = true → ∀ c n side, a.act d = .trap c n side →
          exec i s = .next ((side d).raiseTrap g a.n c n pc))

/-- Results arrive (R82): an operation issued with latency lat delivers its result to the bundles that issue lat local cycles later or more,
and until then its register reads its previous value; whatever else is in flight goes to other registers. A result of latency 1 that is the
only one in flight stands in its register when the next bundle issues, and no other register of its kind has changed; predicate 0 reads 1
whatever is written to it. -/
def Obligations.ResultsArrive : Prop :=
  (∀ (s : State) (g : Nat) (p : Pred) (sl : Nat), s.canIssue g p → ((s.deliver g).gal g).pend = [] →
      let d := s.deliver g
      let at_ := fun (r : Result) => (s.bundleDone g (d.pendRes g sl 1 0 r)).deliver g
      (∀ r v n, (at_ (.s r v)).sreg g n = if n = r then v else d.sreg g n)
        ∧ (∀ r v n, (at_ (.a r v)).areg g n = if n = r then v else d.areg g n)
        ∧ (∀ r v n, (at_ (.p r v)).preg g n = if n = 0 then true else if n = r then v else d.preg g n))
    ∧ ∀ (s : State) (g sl lat fl k : Nat),
      let others := fun (r : Result) => ∀ e ∈ (s.gal g).pend, e.res.target ≠ r.target
      let at_ := fun (r : Result) => ((s.pendRes g sl lat fl r).modGal g (fun x => { x with lcycle := x.lcycle + k })).deliver g
      (∀ r v, others (.s r v) → (at_ (.s r v)).sreg g r = if lat ≤ k then v else s.sreg g r)
        ∧ (∀ r v, others (.a r v) → (at_ (.a r v)).areg g r = if lat ≤ k then v else s.areg g r)
        ∧ (∀ r v, r ≠ 0 → others (.p r v) → (at_ (.p r v)).preg g r = if lat ≤ k then v else s.preg g r)
        ∧ (∀ r c0 c1 c2 c3, (s.gal g).pend = [] → ((at_ (.v r c0 c1 c2 c3)).gal g).v.getMany 0 (4 * r) 4
          = if lat ≤ k then [c0, c1, c2, c3] else (s.gal g).v.getMany 0 (4 * r) 4)

/-- The return stack (R91). A CALL pushes the PC of the bundle after its delay bundles, PC + 128; on a full stack of eight it traps, and so
does a RET on an empty one. -/
def Obligations.CallStack : Prop :=
  ∀ (s : State) (g : Nat) (o : CT), o.ok = true → o.x = 0 → s.canIssue g o.p →
    let d := s.deliver g
    let x := d.gal g
    x.delay = none → x.loops = [] →
      (x.rets.length < 8 → ∃ t : State, exec (.call g o) s = .next (s.bundleDone g t) ∧ (t.gal g).rets = (x.pc + 128) :: x.rets)
        ∧ (8 ≤ x.rets.length → exec (.call g o) s = .next (d.raiseTrap g 0 0x07 0 x.pc))
        ∧ (o.imm = 0 → x.rets = [] → exec (.ret g o) s = .next (d.raiseTrap g 0 0x07 0 x.pc))
        ∧ (o.imm = 0 → ∀ r rest, x.rets = r :: rest →
          ∃ t : State, exec (.ret g o) s = .next (s.bundleDone g t) ∧ (t.gal g).rets = rest)

-- Slot V ------------------------------------------------------------------------------------------------------------------

/-- The vector operations of two and three sources (R69, R70, R93, R95), lane by lane in every core: integers exactly modulo 2^32,
floating-point types rounded once in the mode of rm; in mode SR lane l of core c draws at index s N + 128c + l (256c + l for BF16).
The vector operations of one source (R70, R93, R106): sign operations, and reciprocal, reciprocal square root and square root with
their latencies of 10, 10 and 14; the scalar sum, and every lane the scalar. -/
def Obligations.VectorOperations : Prop :=
  (∀ (s : State) (g : Nat) (o : VOp), s.canIssue g o.p →
    let d := s.deliver g
    let ty := o.ty.val
    let f := laneFmt ty
    let x := fun (c l : Nat) => laneOf ty (d.vreg g o.vx c) l
    let y := fun (c l : Nat) => laneOf ty (d.vreg g o.vy c) l
    let z := fun (c l : Nat) => laneOf ty (d.vreg g o.vz c) l
    let rnd := fun (c l : Nat) => d.vRnd g o.rm (d.vIndex g o.s) (d.vStream g o.s) (laneN ty * c + l)
    let two := fun (i : Instr) (fi : Int → Int → Int) (ff : Rnd → Val → Val → FpRes) =>
      s.givesLanes g i o.vd 4 ty (fun c l => if ty = 2 then wrapInt 32 (fi (sInt 32 (x c l)) (sInt 32 (y c l)))
        else (ff (rnd c l) (f.decode (x c l)) (f.decode (y c l))).bits)
    (vArith o = true → o.vz = 0 →
        two (.vadd g o) (· + ·) (fpAdd f) ∧ two (.vsub g o) (· - ·) (fun r a b => fpAdd f r a b.flip)
          ∧ two (.vmul g o) (· * ·) (fpMul f))
      ∧ (vArith o = true → s.givesLanes g (.vfma g o) o.vd 5 ty (fun c l =>
          if ty = 2 then wrapInt 32 (sInt 32 (x c l) * sInt 32 (y c l) + sInt 32 (z c l))
          else (fpFma f (rnd c l) (f.decode (x c l)) (f.decode (y c l)) (f.decode (z c l))).bits))
      ∧ (vTwo o = true →
        s.givesLanes g (.vmin g o) o.vd 4 ty (fun c l =>
            if ty = 2 then (if sInt 32 (x c l) < sInt 32 (y c l) then x c l else y c l) else (fpMinMax f false (x c l) (y c l)).bits)
          ∧ s.givesLanes g (.vmax g o) o.vd 4 ty (fun c l =>
            if ty = 2 then (if sInt 32 (x c l) < sInt 32 (y c l) then y c l else x c l) else (fpMinMax f true (x c l) (y c l)).bits)))
    ∧ (∀ (s : State) (g : Nat) (o : VOp), s.canIssue g o.p →
    let d := s.deliver g
    let ty := o.ty.val
    let f := laneFmt ty
    let x := fun (c l : Nat) => laneOf ty (d.vreg g o.vx c) l
    let sc := (d.sreg g o.s).toNat % 2 ^ laneW ty
    let rnd := fun (n c l : Nat) => d.vRnd g o.rm (d.vIndex g n) (d.vStream g n) (laneN ty * c + l)
    let one := fun (i : Instr) (lat : Nat) (ff : Rnd → Val → FpRes) =>
      s.givesLanes g i o.vd lat ty (fun c l => (ff (rnd o.s c l) (f.decode (x c l))).bits)
    (vOne o = true → s.givesLanes g (.vabs g o) o.vd 4 ty (fun c l => (signLane ty false (x c l)).bits)
        ∧ s.givesLanes g (.vneg g o) o.vd 4 ty (fun c l => (signLane ty true (x c l)).bits))
      ∧ (vFpOne o = true → one (.vrcp g o) 10 (fpRcp f) ∧ one (.vrsq g o) 10 (fpRsqrt f) ∧ one (.vsqrt g o) 14 (fpSqrt f))
      ∧ (o.ty ≠ 3 → o.rm ≠ 3 → (o.ty = 2 → o.rm = 0) → o.vy = 0 → o.vz = 0 → o.cv = 0 →
        s.givesLanes g (.vadds g o) o.vd 4 ty (fun c l =>
          if ty = 2 then wrapInt 32 (sInt 32 (x c l) + sInt 32 sc)
          else (fpAdd f (rnd ((o.s.val + 1) % 32) c l) (f.decode (x c l)) (f.decode sc)).bits))
      ∧ (o.ty ≠ 3 → o.rm = 0 → o.vx = 0 → o.vy = 0 → o.vz = 0 → o.cv = 0 →
        s.givesLanes g (.vbcast g o) o.vd 4 ty (fun _ _ => sc)))

/-- Comparisons, selection and bitwise operations (R93): a mask of ones where the relation holds, a NaN giving zero.
What crosses lanes (R79, R93): the horizontal sum stands in lane 0 of its core and the other lanes are zero; VEXT takes one lane of
one core into a scalar, VANY whether any bit is set. -/
def Obligations.VectorMasksAndAcross : Prop :=
  (∀ (s : State) (g : Nat) (o : VOp), s.canIssue g o.p →
    let d := s.deliver g
    let ty := o.ty.val
    let f := laneFmt ty
    let x := fun (c l : Nat) => laneOf ty (d.vreg g o.vx c) l
    let y := fun (c l : Nat) => laneOf ty (d.vreg g o.vy c) l
    let z := fun (c l : Nat) => laneOf ty (d.vreg g o.vz c) l
    let cmp := fun (i : Instr) (rel : Int → Bool) => s.givesLanes g i o.vd 4 ty (fun c l =>
      if ty = 2 then (if rel (sInt 32 (x c l) - sInt 32 (y c l)) then 2 ^ 32 - 1 else 0)
      else if (f.decode (x c l)).isNan || (f.decode (y c l)).isNan then 0
      else if rel (cmpVal (f.decode (x c l)) (f.decode (y c l))) then 2 ^ laneW ty - 1 else 0)
    let whole := fun (i : Instr) (op : VWord → VWord → VWord) =>
      exec i s = .next (s.bundleDone g (d.pendRes g 2 4 0 (.v o.vd (op (d.vreg g o.vx 0) (d.vreg g o.vy 0))
        (op (d.vreg g o.vx 1) (d.vreg g o.vy 1)) (op (d.vreg g o.vx 2) (d.vreg g o.vy 2)) (op (d.vreg g o.vx 3) (d.vreg g o.vy 3)))))
    (vTwo o = true → cmp (.vcmpeq g o) (· == 0) ∧ cmp (.vcmplt g o) (decide <| · < 0) ∧ cmp (.vcmple g o) (decide <| · ≤ 0))
      ∧ (o.ty ≠ 3 → vNoRm o = true → o.cv = 0 →
        s.givesLanes g (.vsel g o) o.vd 4 ty (fun c l => if z c l ≠ 0 then x c l else y c l))
      ∧ (vWhole o = true → whole (.vand g o) (· &&& ·) ∧ whole (.vor g o) (· ||| ·) ∧ whole (.vxor g o) (· ^^^ ·)))
    ∧ (∀ (s : State) (g : Nat) (o : VOp), s.canIssue g o.p →
    let d := s.deliver g
    let ty := o.ty.val
    let n := laneN ty
    let lane := o.vy.val + 64 * (o.vz.val % 16)
    (vArith o = true → o.vy = 0 → o.vz = 0 → s.givesLanes g (.vhsum g o) o.vd 8 ty (fun c l => if l ≠ 0 then 0
        else if ty = 2 then ((d.vlanes g o.vx c ty).foldl (· + ·) 0) % 2 ^ 32
        else (exactSum (laneFmt ty) (d.vRnd g o.rm (d.vIndex g o.s) (d.vStream g o.s) (n * c))
          ((d.vlanes g o.vx c ty).map (laneFmt ty).decode)).bits))
      ∧ (o.ty ≠ 3 → o.vd = 0 → o.rm = 0 → o.cv = 0 → lane < 4 * n → o.vz.val < 16 →
        exec (.vext g o) s = .next (s.bundleDone g (d.pendRes g 2 6 0
          (.s o.s (BitVec.ofNat 64 (laneOf ty (d.vreg g o.vx (lane / n)) (lane % n)))))))
      ∧ (o.vd.val < 16 → o.ty = 0 → vOne o = true →
        ∃ b, exec (.vany g o) s = .next (s.bundleDone g (d.pendRes g 2 6 0 (.p o.vd b)))
          ∧ (b = true ↔ ∃ c < 4, d.vreg g o.vx c ≠ 0)))

/-- Conversions (R77, R94): FP32 to BF16 and FP16 from both sources, back to FP32, to and from INT32, and FP8 through one byte quarter. -/
def Obligations.VectorConversions : Prop :=
  ∀ (s : State) (g : Nat) (o : VOp), s.canIssue g o.p → vCvtOk o = true →
    let d := s.deliver g
    let x32 := fun (c l : Nat) => laneOf 0 (d.vreg g o.vx c) l
    let y32 := fun (c l : Nat) => laneOf 0 (d.vreg g o.vy c) l
    let x16 := fun (c l : Nat) => laneOf 1 (d.vreg g o.vx c) l
    let x8 := fun (c l : Nat) => ((d.vreg g o.vx c).toNat >>> (8 * (128 * o.ty.val + l))) % 256
    let rnd := fun (k : Nat) => d.vRnd g o.rm (d.vIndex g o.s) (d.vStream g o.s) k
    let narrow := fun (f : Fmt) => s.givesLanes g (.vcvt g o) o.vd 4 1 (fun c l =>
      (f.encode (rnd (256 * c + l)) false (Fmt.fp32.decode (if l < 128 then x32 c l else y32 c (l - 128)))).bits)
    let widen := fun (f : Fmt) (v : Nat → Nat → Nat) => s.givesLanes g (.vcvt g o) o.vd 4 0 (fun c l =>
      (Fmt.fp32.encode .rne false (f.decode (v c l))).bits)
    let byte := fun (f : Fmt) => ∃ (fl : Nat) (q : Nat → BitVec 1024),
      exec (.vcvt g o) s = .next (s.bundleDone g (d.pendRes g 2 4 fl (.vq o.vd o.ty (q 0) (q 1) (q 2) (q 3))))
        ∧ ∀ c < 4, ∀ l < 128, ((q c).toNat >>> (8 * l)) % 256
            = (f.encode (rnd (128 * c + l)) false (Fmt.fp32.decode (x32 c l))).bits % 256
    (o.cv = 0 → narrow .bf16) ∧ (o.cv = 1 → narrow .fp16) ∧ (o.cv = 2 → widen .bf16 x16)
      ∧ (o.cv = 3 → widen .bf16 (fun c l => x16 c (l + 128))) ∧ (o.cv = 4 → widen .fp16 x16)
      ∧ (o.cv = 5 → widen .fp16 (fun c l => x16 c (l + 128)))
      ∧ (o.cv = 6 → s.givesLanes g (.vcvt g o) o.vd 4 0 (fun c l =>
          (encodePlain 32 (rnd (128 * c + l)) (Fmt.fp32.decode (x32 c l))).bits))
      ∧ (o.cv = 7 → s.givesLanes g (.vcvt g o) o.vd 4 0 (fun c l => (intToFp (rnd (128 * c + l)) (x32 c l)).bits))
      ∧ (o.cv = 8 → byte .e4m3) ∧ (o.cv = 9 → byte .e5m2) ∧ (o.cv = 10 → widen .e4m3 x8) ∧ (o.cv = 11 → widen .e5m2 x8)
-- Slot M --------------------------------------------------------------------------------------------------------------------

/-- Loads and stores (R97, R106): the address is base + imm modulo 2^48; core c loads or stores the 512 bytes at 512c beyond it, VLDB
gives every core the same 512 bytes; words are little-endian; loads arrive after six local cycles, scalar ones after five. Atomics at the
bank (R97, R106, R170): the word is replaced, its old value arrives zero-extended after seven local cycles.
The checks of a range in their order (R98, R177): window, semaphore and pager regions first, then the bank owners, which record
the banks violated, then the alignment. -/
def Obligations.PoolAccesses : Prop :=
  ((∀ (s : State) (g : Nat) (o : MemOp), o.ok = true → s.canIssue g o.p →
      let d := s.deliver g
      let off := (d.areg g o.base + BitVec.ofInt 48 o.imm).toNat
      let core := fun (k : Nat) => BitVec.ofNat 4096 (leNat (d.poolRd g (off + 512 * k) 512))
      let word := leNat (d.poolRd g off 8)
      let ld := fun (lat : Nat) (r : Result) => Host.Outcome.next (s.bundleDone g (d.pendRes g 4 lat 0 r))
      d.poolPlain g →
      (d.rangeOk g off 2048 128 → exec (.vld g o) s = ld 6 (.v o.r (core 0) (core 1) (core 2) (core 3))
          ∧ exec (.vst g o) s = .next (s.bundleDone g
              (d.poolWr g off ((List.range 4).flatMap (fun c => natLe 512 (d.vreg g o.r c).toNat)))))
        ∧ (d.rangeOk g off 512 128 → exec (.vldb g o) s = ld 6 (.v o.r (core 0) (core 0) (core 0) (core 0)))
        ∧ (d.rangeOk g off 8 8 → o.r.val < 32 → exec (.sld g o) s = ld 5 (.s o.r (BitVec.ofNat 64 word))
          ∧ exec (.ald g o) s = ld 5 (.a o.r (BitVec.ofNat 48 word))
          ∧ exec (.sst g o) s = .next (s.bundleDone g (d.poolWr g off (natLe 8 (d.sreg g o.r).toNat)))))
    ∧ ∀ (s : State) (g : Nat) (o : AtmOp), o.ok = true → s.canIssue g o.p →
      let d := s.deliver g
      let off := (d.areg g o.base + BitVec.ofInt 48 o.imm).toNat
      let y := (d.sreg g o.y).toNat
      let old := fun (n : Nat) => leNat (d.poolRd g off n)
      let res := fun (n v : Nat) => Host.Outcome.next (s.bundleDone g ((d.poolWr g off (natLe n v)).pendRes g 4 7 0
        (.s o.d (BitVec.ofNat 64 (old n)))))
      d.poolPlain g →
      (d.rangeOk g off 8 8 → exec (.padd64 g o) s = res 8 ((old 8 + y) % 2 ^ 64) ∧ exec (.pswp64 g o) s = res 8 y)
        ∧ (d.rangeOk g off 4 4 → exec (.padd32 g o) s = res 4 ((old 4 + y) % 2 ^ 32) ∧ exec (.pswp32 g o) s = res 4 (y % 2 ^ 32)))
    ∧ (∀ (s : State) (g : Nat) (o : MemOp) (a : AtmOp), o.ok = true → a.ok = true → o.r.val < 32 → s.canIssue g o.p → s.canIssue g a.p →
    let d := s.deliver g
    let pc := (d.gal g).pc
    let off := (d.areg g o.base + BitVec.ofInt 48 o.imm).toNat
    let offA := (d.areg g a.base + BitVec.ofInt 48 a.imm).toNat
    ∀ e ∈ [(Instr.vld g o, off, 2048, 128), (.vldb g o, off, 512, 128), (.vst g o, off, 2048, 128), (.sld g o, off, 8, 8),
        (.sst g o, off, 8, 8), (.ald g o, off, 8, 8), (.padd64 g a, offA, 8, 8), (.pswp64 g a, offA, 8, 8), (.padd32 g a, offA, 4, 4),
        (.pswp32 g a, offA, 4, 4)],
      let viols := d.bankViols g e.2.1 e.2.2.1 (d.taskCtx g)
      (d.regionFree g e.2.1 e.2.2.1 = false → exec e.1 s = .next (d.raiseTrap g 4 0x02 0 pc))
        ∧ (d.regionFree g e.2.1 e.2.2.1 = true → viols ≠ [] →
            exec e.1 s = .next ((d.setViols g viols).raiseTrap g 4 0x02 0 pc)
              ∧ ∀ b ∈ viols, (d.setViols g viols).flag .GAL_BANK_OWNER_viol (64 * g + b) = true)
        ∧ (d.regionFree g e.2.1 e.2.2.1 = true → viols = [] → e.2.1 % e.2.2.2 ≠ 0 → exec e.1 s = .next (d.raiseTrap g 4 0x03 0 pc)))

/-- Far moves (R97, R98, R100, R101, R104, R296). A length that is no multiple of 128 from 128 to 2^20 traps first; then the pool range,
the alignment of both addresses and the far address are checked; with every check passed the move is outstanding, and one through a window
sends its requests; with 16 outstanding the bundle does not issue in this cycle. A move whose data has come ends: the bytes are in the
pool or in device memory, then its semaphore increments; a window move ends with its responses. -/
def Obligations.FarMoves : Prop :=
  (∀ (s : State) (g : Nat) (o : FarOp) (get : Bool), s.canIssue g o.p →
      let i := if get then Instr.mget g o else .mput g o
      let d := s.deliver g
      let x := d.gal g
      let pa := (d.areg g o.pa).toNat
      let fa := (d.areg g o.fa).toNat
      let len := (d.sreg g o.len).toNat
      let out := fun (w : Option Nat) => { d with nextSeq := d.nextSeq + 1 }.setGal g
        { x with fars := x.fars ++ [(⟨get, pa, fa, len, o.sem, d.nextSeq, w, 0⟩ : FarMove)] }
      (16 ≤ x.fars.length → exec i s = .next (d.waitCycle g))
        ∧ (x.fars.length < 16 →
          (¬ (len % 128 = 0 ∧ 128 ≤ len ∧ len ≤ 2 ^ 20) → exec i s = .next (d.raiseTrap g 4 0x0C 0 x.pc))
            ∧ (len % 128 = 0 → 128 ≤ len → len ≤ 2 ^ 20 → d.rangeOk g pa len 128 →
              (fa % 128 ≠ 0 → exec i s = .next (d.raiseTrap g 4 0x03 0 x.pc))
                ∧ (fa % 128 = 0 → fa < 0xF00000000000 →
                  (d.farOk (d.taskCtx g) fa len (!get) = true → exec i s = .next (s.bundleDone g (out none)))
                    ∧ (d.farOk (d.taskCtx g) fa len (!get) = false →
                      exec i s = .next ((d.farRefuse (d.taskCtx g) fa len (!get)).raiseTrap g 4 0x04 0 x.pc)))
                ∧ (fa % 128 = 0 → 0xF00000000000 ≤ fa →
                  let w := fa / 2 ^ 32 % 4096
                  (d.winOk (d.taskCtx g) w (fa % 2 ^ 32) len (if get then 0 else 1) = false → exec i s = .next (d.raiseTrap g 4 0x05 0 x.pc))
                    ∧ (d.winOk (d.taskCtx g) w (fa % 2 ^ 32) len (if get then 0 else 1) = true → d.poolPlain g →
                      exec i s = .next (s.bundleDone g (if get then
                          (out (some w)).winRead (d.taskCtx g) w (fa % 2 ^ 32) len (.far g d.nextSeq)
                        else (out (some w)).winWrite (d.taskCtx g) w 1 (fa % 2 ^ 32) 0 (d.poolRd g pa len) (.far g d.nextSeq))))))))
    ∧ ∀ (s : State) (g k : Nat) (f : FarMove) (b : List Byte) (u v : State), g < 32 → s.pwr.stop = 0 → s.running g = true →
      (s.gal g).fars[k]? = some f → f.err = 0 → s.reqsDone (.far g f.id) = true → s.reqsBad (.far g f.id) = false →
      let c := s.taskCtx g
      let w := (s.dropReqs (.far g f.id)).modGal g (fun x => { x with fars := x.fars.eraseIdx k })
      (f.win = none → f.get = true → s.hostHeld c f.fa f.len = false → w.farRead g c f.fa f.len = (.ok b, u) →
          u.poolWrite g f.pa 7 c b = (.ok [], v) → exec (.farMoveComplete g k) s = .next (v.farDone g f.sem))
        ∧ (f.win = none → f.get = false → w.poolRead g f.pa f.len 7 c = (.ok b, u) → u.farWrite g c f.fa b = (.ok [], v) →
          exec (.farMoveComplete g k) s = .next (v.farDone g f.sem))
        ∧ (f.win ≠ none → f.get = true → w.poolWrite g f.pa 7 c (s.reqsData (.far g f.id)) = (.ok [], v) →
          exec (.farMoveComplete g k) s = .next (v.farDone g f.sem))
        ∧ (f.win ≠ none → f.get = false → exec (.farMoveComplete g k) s = .next (w.farDone g f.sem))
        ∧ (v.farDone g f.sem).sem g f.sem = (v.sem g f.sem + 1) % 2 ^ 64

-- Slot E --------------------------------------------------------------------------------------------------------------------

/-- Semaphores (R102, R104 to R106): an increment adds modulo 2^64 to one semaphore and to no other; SRD reads one after seven local
cycles; an increment that arrives from another gallery of the span is applied as SINC1 is. SWAIT (R110, R113) at the head with no request
pending passes its mark, and the gallery goes on when the semaphore has reached the value, else it waits; each hall cycle looks again and
is a wait cycle until then. -/
def Obligations.Semaphores : Prop :=
  (∀ (s : State) (g : Nat) (o : SemOp), s.canIssue g o.p →
      let d := s.deliver g
      let by_ := fun (n : Nat) => Host.Outcome.next (s.bundleDone g (d.semAdd g o.sem n (d.markNo g)))
      (d.poolPlain g → d.banksReady g (d.semOff g o.sem) 8 →
        exec (.sinc g o) s = by_ (d.sreg g o.s).toNat
          ∧ (o.s = 0 → exec (.sinc1 g o) s = by_ 1)
          ∧ exec (.srd g o) s = .next (s.bundleDone g (d.pendRes g 5 7 0 (.s o.s (BitVec.ofNat 64 (d.sem g o.sem))))))
        ∧ exec (.ssigArrival g o.sem) s = .next (s.semAdd g o.sem 1 (s.markNo g))
        ∧ (∀ n mark, (s.semAdd g o.sem n mark).sem g o.sem = (s.sem g o.sem + n) % 2 ^ 64)
        ∧ (∀ n mark h m, h < 32 → m < 65536 → (h ≠ g ∨ m ≠ o.sem) → s.semOff g o.sem < 2 ^ 25 → s.semOff h m < 2 ^ 25 →
            (s.semAdd g o.sem n mark).sem h m = s.sem h m)
        ∧ (∀ t, (d.gal g).task = some t → (d.sreg g o.s).toNat % 32 < d.rd .GAL_SPAN_len g →
            exec (.ssig g o) s = .next (s.bundleDone g
              (d.emit (.echo .ssig g ((d.sub t).gals.getD ((d.sreg g o.s).toNat % 32) g) o.sem))))
        ∧ (d.rd .GAL_SPAN_len g ≤ (d.sreg g o.s).toNat % 32 → exec (.ssig g o) s = .next (d.raiseTrap g 5 0x0D 0 (d.gal g).pc)))
    ∧ ∀ (s : State) (g : Nat),
      (∀ o : SemOp, s.canIssue g o.p → (s.deliver g).markOk g = true → s.rd .GAL_SPAN_pos g = 0 →
          s.flag .GAL_SEQ_STAT_yreq g = false →
          let v := ((s.deliver g).sreg g o.s).toNat
          ∃ t, exec (.swait g o) s = .next t ∧ (t.gal g).marks = (s.gal g).marks + 1 ∧ (t.gal g).sinceMark = 0
            ∧ (t.gal g).half0.full = false ∧ (t.gal g).half1.full = false
            ∧ (t.gal g).wait = if v ≤ s.sem g o.sem then .none else .swait o.sem v true)
        ∧ (g < 32 → s.pwr.stop = 0 → s.running g = true → ∀ m v, (s.gal g).wait = .swait m v true → s.rd .GAL_SPAN_pos g ≠ 0 →
          exec (.swaitEnd g) s = .next (if v ≤ s.sem g m then s.setGal g { s.gal g with wait := .none }
            else (s.setGal g { s.gal g with wait := .swait m v true }).waitCycle g))

/-- EPOST (R102, R103, R122, R123): the 64 bytes go to the ring's tail entry and are captured with the task's window, context and
epoch; an engine that is absent, disabled by ENGINES or whose ring is off traps; a full ring makes the bundle wait. -/
def Obligations.EnginePost : Prop :=
  ∀ (s : State) (g : Nat) (o : PostOp), s.canIssue g o.p →
    let d := s.deliver g
    let k := 16 * g + o.eng.val
    let a := (d.areg g o.a).toNat
    let tail := d.rd .GAL_ENG_PTR_tail k
    let next := (tail + 1) % 2 ^ d.rd .GAL_ENG_RING_size k
    let live := decide (o.eng.val < 9) && d.engEnabled g o.eng.val && d.flag .GAL_ENG_RING_en k
    (live = false → exec (.epost g o) s = .next (d.raiseTrap g 5 0x0B 0 (d.gal g).pc))
      ∧ (live = true → d.rangeOk g a 64 64 → next = d.rd .GAL_ENG_PTR_head k → exec (.epost g o) s = .next (d.waitCycle g))
      ∧ (live = true → d.rd .GAL_ENG_RING_size k ≤ 12 → d.rangeOk g a 64 64 → next ≠ d.rd .GAL_ENG_PTR_head k → d.poolPlain g →
        d.banksReady g (d.ringOff k tail) 64 →
        ∃ t, exec (.epost g o) s = .next (s.bundleDone g t)
          ∧ t.pool = (d.poolWr g (d.rd .GAL_ENG_RING_base k * 64 + 64 * tail) (d.poolRd g a 64)).pool
          ∧ t.rd .GAL_ENG_PTR_tail k = next ∧ (tail, d.capture g) ∈ (t.eng k).caps
          ∧ (∀ f i, (f ≠ .GAL_ENG_PTR_tail ∨ i ≠ k) → t.rd f i = d.rd f i))
-- Slot A --------------------------------------------------------------------------------------------------------------------

/-- Starting array work (R35, R36, R43, R44, R46, R96, R474): a descriptor that breaks a check of a field or a region, and an operation
that breaks a rule of sequence, record their fault and trap; otherwise the operation is under way, an AOP keeping the bands of its active
rows, an ALDB emptying the half it loads. -/
def Obligations.ArrayIssue : Prop :=
  ∀ (s : State) (g : Nat) (o : AOpd), s.canIssue g o.p →
    let d := s.deliver g
    let x := d.gal g
    let addr := (d.areg g o.a).toNat
    let ds := parseDesc (d.poolRd g addr 64)
    let head := d.rd .GAL_SPAN_pos g == 0
    let fault := fun (f : Fld) (a : Nat) => Host.Outcome.next ((d.arrayFault f g a).raiseTrap g 3 0x10 0 x.pc)
    let aopOk := ds.fieldsOk (d.rd .GAL_SPAN_len g) && !(ds.bsrc && decide (2 ≤ ds.bHalf)) && (ds.regions head).all (fun r => regionOk r.1 r.2)
    let aldbOk := ds.fieldsOk (d.rd .GAL_SPAN_len g) && decide (ds.bHalf < 2) && ds.bRegions.all (fun r => regionOk r.1 r.2)
      && decide (ds.kLen ≤ ds.capacity)
    d.poolErr = [] → d.flag .GAL_POOL_CFG_wipe g = false → d.banksReady g addr 64 →
    (o.mask = 0 → o.sem = 0 → (addr % 64 ≠ 0 ∨ 0x2000000 < addr + 64) →
        exec (.aop g o) s = fault .GAL_ARRAY_FAULT_desc addr ∧ exec (.aldb g o) s = fault .GAL_ARRAY_FAULT_desc addr)
      ∧ (o.mask = 0 → o.sem = 0 → addr % 64 = 0 → addr + 64 ≤ 0x2000000 →
        (aopOk = false → exec (.aop g o) s = fault .GAL_ARRAY_FAULT_desc addr)
          ∧ (aopOk = true → d.aopSeqBad g ds = true → exec (.aop g o) s = fault .GAL_ARRAY_FAULT_seq addr)
          ∧ (aopOk = true → d.aopSeqBad g ds = false → x.ingress = [] →
            ∃ t, exec (.aop g o) s = .next (s.bundleDone g t) ∧ t.pool = d.pool ∧ t.rd .GAL_ARRAY_STAT_op g = 1
              ∧ (t.gal g).aops = x.aops ++ [⟨x.opno, addr, ds, x.lcycle, ds.tk, d.galCells g, [], [], head, 0⟩]
              ∧ (∀ b < 8, 16 * b < ds.mActive → (t.rd .GAL_ARRAY_STAT_bands g).testBit b = true)
              ∧ (t.gal g).hum = x.hum.filter (fun h => decide (ds.groupsAt (d.rd .GAL_SPAN_pos g) ≤ h)))
          ∧ (aldbOk = false → exec (.aldb g o) s = fault .GAL_ARRAY_FAULT_desc addr)
          ∧ (aldbOk = true → d.aldbSeqBad g ds = true → exec (.aldb g o) s = fault .GAL_ARRAY_FAULT_seq addr)
          ∧ (aldbOk = true → d.aldbSeqBad g ds = false →
            ∃ t l, exec (.aldb g o) s = .next (s.bundleDone g t) ∧ t.pool = d.pool ∧ (t.gal g).aldb = some l ∧ l.d = ds
              ∧ l.t0 = x.lcycle ∧ ((t.gal g).half ds.bHalf).full = false ∧ t.rd .GAL_ARRAY_STAT_bload g = 1))
      ∧ (regionOk addr 393216 = false → exec (.adrn g o) s = fault .GAL_ARRAY_FAULT_desc x.pc)
      ∧ (regionOk addr 393216 = true → x.spaced x.lcycle = false → exec (.adrn g o) s = fault .GAL_ARRAY_FAULT_seq x.pc)
      ∧ (regionOk addr 393216 = true → x.spaced x.lcycle = true →
        ∃ t b, exec (.adrn g o) s = .next (s.bundleDone g t) ∧ t.pool = d.pool ∧ (t.gal g).adrns = x.adrns ++ [b] ∧ b.addr = addr
          ∧ b.mask = o.mask.val ∧ b.sem = o.sem.val ∧ b.t0 = x.lcycle ∧ t.rd .GAL_ARRAY_STAT_drain g = 1)
      ∧ (o.a = 0 → o.sem = 0 → x.spaced x.lcycle = false → exec (.aclr g o) s = fault .GAL_ARRAY_FAULT_seq x.pc)
      ∧ (o.a = 0 → o.sem = 0 → x.spaced x.lcycle = true →
        exec (.aclr g o) s = .next (s.bundleDone g (d.setGal g { x with aclrs := x.aclrs ++ [⟨0, o.mask, 0, x.lcycle, 0, 0⟩] })))

/-- The end of an AOP (R28, R36, R44, R63, R474) at local cycle 80 + T_k: row i, column j holds the fold of its products over the sum it
started from, zero, the tile's or the kept one; the semaphore increments. An AOP that drains leaves no band kept.
A drain writes each sum of its bands as FP32 to its place in the tile (R40), and no byte outside the tile. -/
def Obligations.ArrayResults : Prop :=
  (∀ (s : State) (g : Nat) (o : ArrOp) (rest : List ArrOp), g < 32 → s.pwr.stop = 0 → s.running g = true → (s.gal g).aops = o :: rest →
    (s.gal g).ingress = [] → o.started = true → (s.rd .GAL_SPAN_pos g = 0 ∨ o.tk ≤ o.got) → o.t0 + 80 + o.tk ≤ (s.gal g).lcycle →
    s.aopMetaBad g o = false →
    let n := o.d.groupsAt (s.rd .GAL_SPAN_pos g)
    ∃ t, exec (.aopComplete g) s = .next t ∧ (t.gal g).aops = rest ∧ t.rd .GAL_ARRAY_STAT_op g = (if rest = [] then 0 else 1)
      ∧ (o.d.drain = false → t.sem g o.d.sem = (s.sem g o.d.sem + 1) % 2 ^ 64
          ∧ ∀ i < o.d.mActive, ∀ j < 12 * n,
            let run := if o.d.init = 0 then 0
              else if o.d.init = 1 then leNat ((List.range 4).map (fun b => s.fedByte g o.snap (o.d.cAddr + tileOff i j + b)))
              else (s.gal g).sums.get 0 (768 * i + j)
            (t.gal g).sums.get 0 (768 * i + j) = ((s.source g o).cell run i j).1)
      ∧ (o.d.drain = true → t.rd .GAL_ARRAY_STAT_bands g = 0))
    ∧ (∀ (s : State) (g off mask m n rank ctx : Nat), g < 32 → m ≤ 128 → n ≤ 64 → off % 128 = 0 → off + 393216 ≤ 2 ^ 25 → s.poolErr = [] →
    s.flag .GAL_POOL_CFG_wipe g = false → (∀ b < 64, s.flag .GAL_BANK_OWNER_busy (64 * g + b) = false) →
    let t := s.drainTo g off mask m n rank ctx
    (∀ i < m, ∀ j < 12 * n, mask.testBit (i / 16) = true →
        t.poolRd g (off + ((((4 * (j % 192 / 12) + i / 32) * 4 + j / 192) * 32 + i % 32) * 48 + 4 * (j % 12))) 4
          = natLe 4 ((s.gal g).sums.get 0 (768 * i + j)))
      ∧ (∀ h a, (h ≠ g ∨ a < off ∨ off + 393216 ≤ a) → h < 32 → a < 2 ^ 25 → t.poolRd h a 1 = s.poolRd h a 1))

/-- The other array completions (R43, R96, R474), each once its local cycle has come: an ALDB fills its half and increments its
semaphore, an ADRN drains and clears its bands, then increments, an ACLR clears its bands. The A stream and holds (R30, R37, R51, R52,
R54): an entry joins the operation it belongs to, or waits in the ingress queue; the first entry of one whose descriptor differs in a
field of the span raises the array trap; a hold of 65,536 cycles faults; a group that has not engaged stops humming. -/
def Obligations.ArrayEvents : Prop :=
  (∀ (s : State) (g : Nat), g < 32 → s.pwr.stop = 0 → s.running g = true →
      let x := s.gal g
      let now := x.lcycle
      (∀ o, x.aldb = some o → o.t0 + 6 + o.tk ≤ now →
          ∃ t, exec (.aldbComplete g) s = .next t ∧ (t.gal g).aldb = none ∧ ((t.gal g).half o.d.bHalf).full = true
            ∧ ((t.gal g).half o.d.bHalf).kLen = o.d.kLen ∧ t.sem g o.d.sem = (s.sem g o.d.sem + 1) % 2 ^ 64
            ∧ t.rd .GAL_ARRAY_STAT_bload g = 0)
        ∧ (∀ b rest, x.adrns = b :: rest → b.t0 + 68 ≤ now →
          exec (.adrnComplete g) s = .next ((((((s.setGal g { x with adrns := rest }).drainTo g b.addr b.mask b.m b.n 1 (s.taskCtx g)).clearBands
            g b.mask).semAdd g b.sem 1 (s.markNo g)).arrayStat g).endWait g))
        ∧ (∀ b rest, x.aclrs = b :: rest → b.t0 + 61 ≤ now →
          exec (.aclrComplete g) s = .next (((s.setGal g { x with aclrs := rest }).clearBands g b.mask).endWait g))
        ∧ ∀ mask, (s.clearBands g mask).rd .GAL_ARRAY_STAT_bands g = (s.rd .GAL_ARRAY_STAT_bands g &&& (255 - mask % 256)) % 256
            ∧ ∀ i j, j < 768 → mask.testBit (i / 16) = true → ((s.clearBands g mask).gal g).sums.get 0 (768 * i + j) = 0)
    ∧ ∀ (s : State) (g : Nat), g < 32 → s.pwr.stop = 0 →
      let x := s.gal g
      (∀ e : AEntry, x.trapped = none → x.task ≠ none → x.ingress = [] →
          (x.aops = [] → ∃ t, exec (.aEntryArrival g e) s = .next t ∧ (t.gal g).ingress = [e] ∧ t.pool = s.pool)
            ∧ (∀ o, x.aops = [o] → o.opno = e.opno → (e.first = true → o.started = true ∨ (parseDesc e.desc).spanWide = o.d.spanWide) →
              ∃ t, exec (.aEntryArrival g e) s = .next t ∧ (t.gal g).ingress = []
                ∧ (t.gal g).aops = [{ o with started := o.started || e.first, got := o.got + 1, aData := o.aData ++ e.data,
                                             aScale := o.aScale ++ e.scale }])
            ∧ (∀ o, x.aops = [o] → o.opno = e.opno → e.first = true → o.started = false → (parseDesc e.desc).spanWide ≠ o.d.spanWide →
              ∃ t, exec (.aEntryArrival g e) s = .next t ∧ t.flag .GAL_ARRAY_FAULT_mismatch g = true
                ∧ (t.gal g).trapped = some (0x10, x.pc)))
        ∧ (s.running g = true → x.wait = .none → s.holds g = true →
          ∃ t, exec (.spanHoldFault g) s = .next t ∧ t.flag .GAL_ARRAY_FAULT_hold g = true ∧ (t.gal g).trapped = some (0x10, x.pc)
            ∧ t.rd .GAL_ARRAY_HOLD_count g = (s.rd .GAL_ARRAY_HOLD_count g + (65536 - x.holdRun)) % 2 ^ 48)
        ∧ ∀ grp < 64, ∃ t, exec (.humEnd g grp) s = .next t ∧ (t.gal g).hum = x.hum.filter (· ≠ grp) ∧ t.pool = s.pool
            ∧ t.rd .GAL_ARRAY_STAT_hum g = (if x.hum.filter (· ≠ grp) = [] then 0 else 1)
-- Spans, marks and the end of tasks -------------------------------------------------------------------------------------

/-- Loading a task into a gallery of its run (R32, R57, R84, R114): it arms in the entry state and reports ready to the head; the window,
the place in the span and the context are shown. A gallery that still has a task waits.
The start of a span (R31, R32, R33): the head counts each report once; when every gallery of the run has reported it starts in local
cycle 0, and each gallery passes the token on; one that resumes at an SWAIT waits there. Fetching and promotion (R108, R166, R168): a line
brings its four bundles into the queue of 32; a request that has lost its number of cycles is promoted and its losses are counted. -/
def Obligations.SpanDispatch : Prop :=
  (∀ (s : State) (g t : Nat), g < 32 → s.pwr.stop = 0 →
    let u := s.sub t
    let pr := s.progOf t
    let pos := (u.gals.findIdx? (fun x => x == g)).getD 0
    ((s.gal g).task ≠ none → exec (.dispatchMessage g t) s = .next s)
      ∧ (u.stage = .placed → g ∈ u.gals → (s.gal g).task = none → s.windowBusy g t = false → u.saved = [] → u.parkedMem = [] →
        pr.base + pr.size ≤ 0x2000000 → pr.base < 0x2000000 → u.gals.length ≤ 32 → u.span ≤ 32 →
        ∃ v, exec (.dispatchMessage g t) s = .next v ∧ (v.gal g).task = some t ∧ (v.gal g).started = false ∧ (v.gal g).lcycle = 0
          ∧ (v.gal g).pc = pr.base + 32 * pr.entry ∧ (v.gal g).wait = .none
          ∧ (∀ n, v.areg g n = if n = 0 then BitVec.ofNat 48 pr.base else 0)
          ∧ (∀ n < 32, v.sreg g n = if n < 28 then 0 else u.args.getD (n - 28) 0)
          ∧ (∀ n, n ≠ 0 → v.preg g n = false) ∧ (∀ n c, v.vreg g n c = 0)
          ∧ (v.gal g).sums = [] ∧ (v.gal g).half0 = .empty ∧ (v.gal g).half1 = .empty
          ∧ v.winBase g = pr.base ∧ v.winLimit g = pr.base + pr.size ∧ v.rd .GAL_SPAN_pos g = pos ∧ v.rd .GAL_SPAN_len g = u.span
          ∧ v.flag .GAL_ARRAY_STAT_armed g = true ∧ v.flag .GAL_DISP_STAT_loaded g = true
          ∧ v.out = s.out ++ [.echo .ready g (u.gals.headD 0) pos] ∧ v.pool = s.pool))
    ∧ ((∀ (s : State) (h g t : Nat), h < 32 → g < 32 → s.pwr.stop = 0 → (s.gal h).task = some t → (s.gal h).started = false →
      (g ∈ (s.sub t).gals → (s.gal g).task = some t → g ∉ (s.gal h).ready →
          exec (.readyReport h g) s = .next (s.setGal h { s.gal h with ready := (s.gal h).ready ++ [g] }))
        ∧ (s.rd .GAL_SPAN_pos h = 0 → (∀ k ∈ (s.sub t).gals, k = h ∨ k ∈ (s.gal h).ready) →
          exec (.startToken h) s
            = .next ((s.setSub t { s.sub t with started := true, saved := [], yielded := [] }).startGal h))
        ∧ (s.rd .GAL_SPAN_pos h ≠ 0 → exec (.startTokenReceive h) s = .next (s.startGal h))
        ∧ (∀ m v b n, (s.gal h).wait = .swait m v b → s.spanNext h = some n →
          (s.startGal h).out = s.out ++ [.echo .startToken h n 0] ∧ ((s.startGal h).gal h).started = true
            ∧ (s.startGal h).flag .GAL_ARRAY_STAT_armed h = false ∧ (s.startGal h).rd .GAL_SEQ_STAT_state h = 2))
    ∧ ∀ (s : State) (g : Nat), g < 32 → s.pwr.stop = 0 →
      let x := s.gal g
      (∀ line, x.task ≠ none → line < 2 ^ 18 → s.poolErr = [] → s.flag .GAL_POOL_CFG_wipe g = false → s.banksReady g (line * 128) 128 →
          x.fetchq = [] →
          let b := fun k => (⟨line * 128 + 32 * k, s.poolRd g (line * 128 + 32 * k) 32⟩ : Line)
          exec (.fetchLineArrival g line) s = .next (s.setGal g { x with fetchq := [b 0, b 1, b 2, b 3] }))
        ∧ (∀ r bank n, bank < 64 → (n = match r with
            | .fetch => 3
            | .engine _ | .farMove | .pager => 16
            | .echo => 64
            | .scrub => 0) →
          ∃ t, exec (.requestPromotion g r bank) s = .next t ∧ (r, bank) ∈ (t.gal g).promoted
            ∧ t.rd .GAL_POOL_LOSS_count g = (s.rd .GAL_POOL_LOSS_count g + n) % 2 ^ 48 ∧ t.pool = s.pool))

/-- Whole bundles from the pool (R85, R86, R108, R120): with run 0, a step issues exactly one bundle: its 32 bytes are decoded and its
slots evaluated over the registers as they stood at issue; the first slot that traps decides.
What the issue of a bundle leaves as it was: every part of the state but the gallery that issues, the register fields of its sequencer and
array counters, and the interrupts they raise. -/
def Obligations.BundleStepAndFrame : Prop :=
  (∀ (s : State) (src : Src) (g : Nat), src.ok = true → g < 32 → s.pwr.stop = 0 → s.seqCtrlOk src g = true →
    (∀ v, exec (.galSeqCtrlRun src g v) s = .next (s.wr .GAL_SEQ_CTRL_run g (v % 2)))
      ∧ (s.flag .GAL_SEQ_CTRL_run g = false → s.running g = true → (s.gal g).ended = false → (s.gal g).wait = .none →
        s.holds g = false → (s.gal g).nops = 0 → (s.gal g).sinceMark < 1024 → (s.gal g).fetchq = [] → (s.gal g).loops = [] →
        s.poolPlain g →
        let pc := (s.gal g).pc
        inWindow pc 32 (s.winBase g) (s.winLimit g) = true → s.banksReady g pc 32 →
        let b := s.poolRd g pc 32
        let d := (s.keepLoop g pc b).deliver g
        let acts := bundleActs g (leNat b)
        (∀ t m, evalSlots g d acts d none = .ok t m → exec (.galSeqCtrlStep src g) s = .next ((t.advance g pc).afterIssue g m))
          ∧ (∀ n c i u, evalSlots g d acts d none = .trap n c i u → exec (.galSeqCtrlStep src g) s = .next (u.raiseTrap g n c i pc))
          ∧ ∀ h, (s.keepLoop g pc b).gal h = s.gal h))
    ∧ (∀ (s t : State) (g : Nat), let u := s.bundleDone g t
    u.pool = t.pool ∧ u.pmem = t.pmem ∧ u.host = t.host ∧ u.engs = t.engs ∧ u.ctxs = t.ctxs ∧ u.queues = t.queues
      ∧ u.mobjs = t.mobjs ∧ u.fences = t.fences ∧ u.subs = t.subs ∧ u.pending = t.pending ∧ u.pwr = t.pwr ∧ u.ras = t.ras
      ∧ (∀ h, h ≠ g → u.gal h = t.gal h)
      ∧ (u.gal g).s = (t.gal g).s ∧ (u.gal g).a = (t.gal g).a ∧ (u.gal g).p = (t.gal g).p ∧ (u.gal g).v = (t.gal g).v
      ∧ (∀ (f : Fld) (i : Nat), i ≠ g ∨ f ∉ [Fld.GAL_SEQ_PC_pc, .GAL_SEQ_ISSUE_count, .GAL_SEQ_ISSUE_ovf, .GAL_SEQ_STAT_state,
            .GAL_ARRAY_STAT_hold, .GAL_SEQ_STAT_loops, .GAL_SEQ_STAT_calls] → u.rd f i = t.rd f i))

/-- Traps (R111, R116, R371): 1,024 local cycles without a mark trap with code 0x08; the first trap is recorded; the stop ends the task
with a context fault of the trap's code and PC.
Pre-emption (R112, R113, R309): a request is pending until the head's next mark; the head's decision reaches each gallery at its mark or is
kept for it, and goes on down the span; a gallery that yields saves its state under its position, counts, and is free.
The end of a task (R80, R115, R306): a gallery reports when its array work and far moves are over; when all have, the task is complete,
its flags go to the context and its galleries are free. -/
def Obligations.TaskEnds : Prop :=
  (∀ (s : State) (g : Nat), g < 32 → s.pwr.stop = 0 →
    let pc := (s.gal g).pc
    (s.running g = true → 1024 ≤ (s.gal g).sinceMark → exec (.yieldSpacing g) s = .next (s.raiseTrap g 7 0x08 0 pc))
      ∧ (∀ slot code info p, code < 256 → slot < 8 → info < 2 ^ 16 → p < 2 ^ 25 → (s.gal g).pend = [] →
        let t := s.raiseTrap g slot code info p
        (t.gal g).trapped = some (code, p) ∧ t.rd .GAL_SEQ_STAT_state g = 3 ∧ t.pool = s.pool
          ∧ t.out = s.out ++ [.echo .trapStop g (s.rd .GAL_SPAN_head g) code]
          ∧ (s.flag .GAL_SEQ_TRAP_valid g = false → t.rd .GAL_SEQ_TRAP_code g = code ∧ t.rd .GAL_SEQ_TRAP_slot g = slot
              ∧ t.rd .GAL_SEQ_TRAP_info g = info ∧ t.rd .GAL_SEQ_TRAP_PC_pc g = p ∧ t.flag .GAL_SEQ_TRAP_valid g = true)
          ∧ (s.flag .GAL_SEQ_TRAP_valid g = true → t.rd .GAL_SEQ_TRAP_code g = s.rd .GAL_SEQ_TRAP_code g
              ∧ t.rd .GAL_SEQ_TRAP_PC_pc g = s.rd .GAL_SEQ_TRAP_PC_pc g))
      ∧ (∀ code p t, (s.gal g).trapped = some (code, p) → (s.gal g).task = some t →
        exec (.trapStop g) s = .next (s.ctxFault (s.sub t).ctx 1 code g 0xFF p)))
    ∧ ((∀ (s : State) (g t : Nat), g < 32 → s.pwr.stop = 0 → (s.gal g).task = some t →
    let x := s.gal g
    (s.rd .GAL_SPAN_pos g = 0 → x.ended = false → x.trapped = none → x.wait = .none →
        exec (.preemptionRequest g) s = .next (s.wr .GAL_SEQ_STAT_yreq g 1))
      ∧ (∀ m v b, s.rd .GAL_SPAN_pos g = 0 → x.ended = false → x.trapped = none → x.started = true → x.wait = .swait m v b →
        exec (.preemptionRequest g) s
          = .next (((s.wr .GAL_SEQ_STAT_yreq g 1).sendDecision g true).yieldGal g (some (m, v))))
      ∧ (s.rd .GAL_SPAN_pos g ≠ 0 → ∀ yes,
        (x.wait = .none → exec (.yieldDecision g yes) s = .next (s.setGal g { x with decisions := x.decisions ++ [yes] }))
          ∧ (x.wait = .decision → exec (.yieldDecision g false) s = .next ((s.sendDecision g false).setGal g { x with wait := .none })
            ∧ exec (.yieldDecision g true) s = .next ((s.sendDecision g true).yieldGal g none)))
      ∧ (∀ sw, x.pend = [] → (s.sub t).gals = [g] → (s.sub t).replacedBy = none → g ∉ s.svy.leaving →
        let v := s.yieldGal g sw
        (v.gal g).task = none ∧ (v.sub t).stage = .suspended ∧ v.flag .GAL_DISP_STAT_susp g = true
          ∧ v.rd .GAL_DISP_PRE_count g = (s.rd .GAL_DISP_PRE_count g + 1) % 2 ^ 48
          ∧ (s.rd .GAL_SPAN_pos g, x.save (s.numFlags g) sw) ∈ (v.sub t).saved))
    ∧ (∀ (s : State) (g t : Nat), g < 32 → s.pwr.stop = 0 → (s.gal g).task = some t → (s.gal g).ended = true →
    (s.gal g).arrayIdle = true → (s.gal g).fars = [] → (s.gal g).trapped = none → (s.gal g).pend = [] → (s.sub t).endedGals = [] →
    let c := (s.sub t).ctx
    ((s.sub t).gals = [g] → (s.sub t).replacedBy = none →
        ∃ v, exec (.taskComplete g) s = .next v ∧ (v.sub t).stage = .complete ∧ (v.sub t).gals = [] ∧ (v.gal g).task = none
          ∧ (v.ctx c).flags = ((s.ctx c).flags ||| s.numFlags g) ∧ v.numFlags g = 0 ∧ v.rd .GAL_SEQ_STAT_state g = 0
          ∧ (v.ctx c).acct = min ((s.ctx c).acct + (s.gal g).used) (2 ^ 64 - 1) ∧ v.pool = s.pool)
      ∧ (∀ h, h ≠ g → (s.sub t).gals = [g, h] →
        exec (.taskComplete g) s = .next (s.setSub t { s.sub t with endedGals := [g] }))))
-- Engines -------------------------------------------------------------------------------------------------------------------

/-- The norm and activation engine (R125, R129, R139 to R142): a command in range makes its rows one after the other and is finished with
code OK; a field out of range ends it with BAD_CMD, a range outside the captured window with POOL_BOUNDS, and neither writes anything. -/
def Obligations.NormCommands : Prop :=
  ∀ (s : State) (g op : Nat) (x : Env), s.engineReady g 1 op x →
    let n := x.norm
    let w := s.taken x
    let row := fun (u : State) (base r : Nat) => toFp32s n.fin (u.poolRd g (base + r * n.stride n.fin) (n.cols * elBytes n.fin))
    let vec := fun (off : Nat) => toFp32s 0 (s.poolRd g off (4 * n.cols))
    let rows := fun (f : State → Nat → List Nat) => Host.Outcome.next (((List.range n.rows).foldl (fun u r =>
      u.poolWr g (n.dst + r * n.stride n.fout) (fromFp32s n.fout (f u r))) w).finished x 0 0)
    let k := if n.nseg = 0 then 256 else n.nseg
    let tb := fun (i j : Nat) => fieldAt (s.poolRd g n.aux0 (32 * k)) (32 * i + 4 * j) 4
    let segs := (List.range k).map (fun i => (⟨tb i 0, tb i 1, tb i 2, tb i 3, tb i 4⟩ : Segment))
    let aux := if op = 1 then [(n.aux0, 4 * n.cols, 128), (n.aux1, 4 * n.cols, 128)] else if op = 2 then [(n.aux0, 4 * n.cols, 128)]
      else if op = 4 then [(n.aux0, n.span n.fin, 128)] else if op = 5 then [(n.aux0, 32 * k, 128)] else []
    let i := if op = 1 then Instr.lnorm g else if op = 2 then .rmsnorm g else if op = 3 then .act g else if op = 4 then .actGated g
      else .actTable g
    1 ≤ op → op ≤ 5 →
    (n.ok x (op == 1) = false → exec i s = .next (w.finished x 1 0))
      ∧ (n.ok x (op == 1) = true → x.allOk s (n.ranges aux) = false → exec i s = .next (w.finished x 2 0))
      ∧ (n.ok x (op == 1) = true → x.allOk s (n.ranges aux) = true →
        (op = 1 → exec (.lnorm g) s = rows (fun u r => lnormRow n.eps (row u n.src r) (vec n.aux0) (vec n.aux1)))
          ∧ (op = 2 → exec (.rmsnorm g) s = rows (fun u r => rmsRow n.eps (row u n.src r) (vec n.aux0)))
          ∧ (op = 3 → exec (.act g) s = rows (fun u r => (row u n.src r).map (actFn n.func)))
          ∧ (op = 4 → exec (.actGated g) s
              = rows (fun u r => List.zipWith (fun a b => mul32 (actFn n.func a) b) (row u n.src r) (row u n.aux0 r)))
          ∧ (op = 5 → exec (.actTable g) s
              = if ascending segs then rows (fun u r => (row u n.src r).map (tableFn segs)) else .next (w.finished x 1 0)))

/-- The transpose/convert engine (R77, R78, R148, R149): TRANSPOSE reads every row, then writes the columns; CONVERT, QUANT and DEQUANT go
row by row, with the scales that they read or write. The random engine (R155, R156): element i draws the word of tensor index tidx + i; 4
KiB of output are a progress unit. A drop keeps the elements whose word lies below the threshold, and the mask keeps the bits beyond the
last element. -/
def Obligations.ConvertAndRandomCommands : Prop :=
  (∀ (s : State) (g op : Nat) (x : Env), s.engineReady g 3 op x →
      let c := x.xcv
      let w := s.taken x
      let wi := xbits c.fin
      let row := fun (u : State) (r : Nat) => rowElems wi c.cols (u.poolRd g (c.src + r * xStride c.cols wi) (ceilDiv (c.cols * wi) 8))
      let scs := fun (u : State) (r : Nat) => if c.inScale then (u.poolRd g (c.sscale + r * scStride c.cols) (c.cols / 32)).map (·.toNat)
        else []
      let rows := fun (f : Nat → List Nat → List Nat → RowOut) => Host.Outcome.next (((List.range c.rows).foldl (fun u r =>
        let o := f r (row u r) (scs u r)
        let u := u.poolWr g (c.dst + r * xStride c.cols (xbits c.fout)) (packRow (xbits c.fout) o.elems)
        let u := if c.outScale then u.poolWr g (c.dscale + r * scStride c.cols) (o.scales.map (BitVec.ofNat 8)) else u
        u.cmdFlags x (o.flags &&& fSAT)) w.ticked).finished x 0 0)
      c.ok x = true → x.allOk s c.ranges = true →
      (op = 1 → exec (.transpose g) s = .next (((List.range c.cols).foldl (fun u j =>
            u.poolWr g (c.dst + j * xStride c.rows wi) (packRow wi ((List.range c.rows).map (fun r => (row s r).getD j 0)))) w).finished x 0 0))
        ∧ (op = 2 → exec (.convert g) s = rows (convertRow c x.cap.seed s.tick))
        ∧ (op = 3 → exec (.quant g) s = rows (convertRow c x.cap.seed s.tick))
        ∧ (op = 4 → exec (.dequant g) s = rows (dequantRow c x.cap.seed)))
    ∧ ∀ (s : State) (g op : Nat) (x : Env), s.engineReady g 5 op x →
      let c := x.rand
      let word := fun (p i : Nat) => randWord x.cap.seed (c.tidx + i) c.stream p
      let frac := fun (v : Nat) => if c.fmt = 0 then roundVal .fp32 (.fin false (v / 2 ^ 8) (-24)) else roundVal .bf16 (.fin false (v / 2 ^ 24) (-8))
      c.ok x = true →
      (op = 1 → x.allOk s [(c.dst, 4 * c.n, 128)] = true → ∃ u : State, exec (.words g) s = .next (u.finished x 0 0)
          ∧ (∀ i < c.n, u.poolRd g (c.dst + 4 * i) 4 = natLe 4 (word purposeRNG i))
          ∧ ∀ a, (a < c.dst ∨ c.dst + 4 * c.n ≤ a) → u.poolRd g a 1 = s.poolRd g a 1)
        ∧ (op = 2 → x.allOk s [(c.dst, c.eb * c.n, 128)] = true → ∃ u : State, exec (.uniform g) s = .next (u.finished x 0 0)
          ∧ (∀ i < c.n, u.poolRd g (c.dst + c.eb * i) c.eb = natLe c.eb (frac (word purposeRNG i)))
          ∧ ∀ a, (a < c.dst ∨ c.dst + c.eb * c.n ≤ a) → u.poolRd g a 1 = s.poolRd g a 1)
        ∧ (op = 3 → c.mask ≠ 0xFFFFFFFF → x.allOk s [(c.mask, ceilDiv c.n 8, 128)] = true →
          ∃ u : State, exec (.dropMask g) s = .next (u.finished x 0 0)
            ∧ (∀ i < c.n, (leNat (u.poolRd g (c.mask + i / 8) 1)).testBit (i % 8) = decide (word purposeDROP i < c.keep))
            ∧ (∀ i, c.n ≤ i → (leNat (u.poolRd g (c.mask + i / 8) 1)).testBit (i % 8)
                = (leNat (s.poolRd g (c.mask + i / 8) 1)).testBit (i % 8)))
        ∧ (op = 4 → c.mask = 0xFFFFFFFF → x.allOk s [(c.src, c.eb * c.n, 128), (c.dst, c.eb * c.n, 128)] = true →
          c.src + c.eb * c.n ≤ c.dst →
          ∃ u : State, exec (.dropApply g) s = .next (u.finished x 0 0)
            ∧ ∀ i < c.n, u.poolRd g (c.dst + c.eb * i) c.eb = natLe c.eb (if word purposeDROP i < c.keep then
                (fpMul (if c.fmt = 0 then .fp32 else .bf16) .rne ((if c.fmt = 0 then Fmt.fp32 else .bf16).decode
                  (leNat (s.poolRd g (c.src + c.eb * i) c.eb))) (Fmt.fp32.decode c.scale)).bits else 0))

/-- Moving rows and bytes inside a pool (R143 to R147, R157 to R162). COPY, COPY2D and FILL with places that do not overlap: every byte of
every row arrives. COMPRESS and DECOMPRESS write their records or chunks one after the other and count the bytes. GATHER (R143): an index that
names no row gives a row of zeros, one that names a row of device memory that row. DISPATCH and COMBINE (R144 to R147) with every place in the
pool: the assignments are in token order, numbered per expert, the lost ones are counted; a combined row is the weighted exact sum of its
experts' rows, rounded once. ATTEND (R135 to R138): once the rows of the keys and values it sees have been read, every query row is attended
and written, with its maximum and sum where they are asked for. -/
def Obligations.MoveCommands : Prop :=
  ∀ (s : State) (g e op : Nat) (x : Env), s.engineReady g e op x →
    let c := x.copy
    let w := s.taken x
    (∀ src dst, e = 6 ∨ e = 7 → 1 ≤ op → op ≤ 3 → c.len ≠ 0 → 1 ≤ c.nrow → c.nrow ≤ 65536 → (op = 1 → c.nrow = 1) →
        (op = 3 → c.len % 8 = 0) → c.dst = .pool dst → (op ≠ 3 → c.src = .pool src) → c.len ≤ c.ds →
        (op ≠ 3 → src + extent c.len c.nrow c.ss ≤ dst ∨ dst + extent c.len c.nrow c.ds ≤ src) →
        (∀ r < c.nrow, x.poolOk s (dst + r * c.ds) c.len 1 = true ∧ (op ≠ 3 → x.poolOk s (src + r * c.ss) c.len 1 = true)) →
        ∃ u : State, exec (if op = 1 then .copy g e else if op = 2 then .copy2d g e else .fill g e) s
            = .next (u.finished x 0 (c.len * c.nrow % 2 ^ 32))
          ∧ (∀ r < c.nrow, ∀ k < c.len, u.poolRd g (dst + r * c.ds + k) 1
              = if op = 3 then [c.fill.getD (k % 8) 0#8] else s.poolRd g (src + r * c.ss + k) 1)
          ∧ ∀ a, (∀ r < c.nrow, a < dst + r * c.ds ∨ dst + r * c.ds + c.len ≤ a) → u.poolRd g a 1 = s.poolRd g a 1)
      ∧ (∀ src dst, e = 8 → op = 1 ∨ op = 2 → x.zero 0x29 23 = true → eAddr (x.f 0x10 8) = .pool src → eAddr (x.f 0x18 8) = .pool dst →
        let n := x.f 0x20 4
        let b := s.poolRd g src n
        let out := if op = 1 then (chunksOf b).map (encodeChunk (x.f 0x28 1)) else (decodeChunks n b).1
        (op = 1 → n % 128 = 0 ∧ (x.f 0x28 1 = 1 ∨ x.f 0x28 1 = 2 ∨ x.f 0x28 1 = 4)) → (op = 2 → (decodeChunks n b).2 = true) →
        n ≠ 0 → x.poolOk s src n 1 = true → x.poolOk s dst out.flatten.length 1 = true → out.flatten.length ≤ x.f 0x24 4 →
        ∃ u : State, exec (if op = 1 then .compress g else .decompress g) s = .next (u.finished x 0 out.flatten.length)
          ∧ u.poolRd g dst out.flatten.length = out.flatten)
      ∧ (e = 2 → op = 1 →
        let n := x.f 0x20 4
        let rb := x.f 0x28 4
        let tbl := x.f 0x18 8
        let ib := s.poolRd g (x.f 0x10 4) (4 * n)
        let v := fun i => sInt 32 (fieldAt ib (4 * i) 4)
        1 ≤ n → n ≤ 65536 → rowOk rb = true → tbl < 2 ^ 48 → tbl % 128 = 0 → x.zero 0x2C 20 = true →
        x.allOk s [(x.f 0x10 4, 4 * n, 128), (x.f 0x14 4, n * rb, 128)] = true →
        ((∀ i < n, v i < 0 ∨ (x.f 0x24 4 : Int) ≤ v i) → ∃ u : State, exec (.gather g) s = .next (u.finished x 0 (gatherCount ib n (x.f 0x24 4)))
            ∧ ∀ k < n * rb, u.poolRd g (x.f 0x14 4 + k) 1 = [0#8])
          ∧ (∀ d u, n = 1 → 0 ≤ v 0 → v 0 < (x.f 0x24 4 : Int) → isWindow (tbl + (v 0).toNat * rb) = false →
            w.farRead g x.cap.ctx (tbl + (v 0).toNat * rb) rb = (.ok d, u) → u.poolQuiet g → u.reqsOf x.own = [] →
            exec (.gather g) s = .next ((u.poolWr g (x.f 0x14 4) d).finished x 0 0)))
      ∧ (e = 2 → op = 2 ∨ op = 3 →
        let m := x.moe
        let rt := s.poolRd g m.route (2 * m.n * m.k)
        let tb := s.poolRd g m.dest (16 * m.nexp)
        let mb := s.poolRd g m.map (4 * m.n * m.k)
        let wb := s.poolRd g x.wts (4 * m.n * m.k)
        let as := assigns rt m.n m.k
        let lost := (as.filter (fun a => decide (m.cap ≤ a.j))).length
        let clear := fun (o l : Nat) => (o + l ≤ m.route ∨ m.route + 2 * m.n * m.k ≤ o) ∧ (o + l ≤ m.dest ∨ m.dest + 16 * m.nexp ≤ o)
        m.ok = true → s.reqsOf x.own = [] →
        (op = 2 → x.zero 0x2F 17 = true → x.allOk s ((m.tok, m.n * m.rb, 128) :: m.ranges) = true → clear m.map (4 * m.n * m.k) →
          (∀ a ∈ as, a.e < m.nexp) →
          (∀ i < m.nexp, ∃ o c, expert tb i = (.pool o, .pool c) ∧ x.poolOk s (c + 4 * m.rank) 4 1 = true
            ∧ ∀ a ∈ as, a.e = i → a.j < m.cap → x.poolOk s (o + (m.rank * m.cap + a.j) * m.rb) m.rb 1 = true
                ∧ clear (o + (m.rank * m.cap + a.j) * m.rb) m.rb) →
          ∃ u : State, exec (.dispatch g) s = .next (u.finished x (if lost = 0 then 0 else 8) lost))
          ∧ (op = 3 → x.f 0x33 1 ≤ 1 → x.zero 0x34 12 = true →
            x.allOk s ([(m.tok, m.n * m.rb, 128), (x.wts, 4 * m.n * m.k, 128)] ++ m.ranges) = true →
            (∀ i < m.n * m.k, fieldAt mb (4 * i) 4 = 0xFFFFFFFF ∨ (fieldAt rt (2 * i) 2 < m.nexp
              ∧ ∃ o, (expert tb (fieldAt rt (2 * i) 2)).1 = .pool o ∧ x.poolOk s (o + fieldAt mb (4 * i) 4 * m.rb) m.rb 1 = true)) →
            ∃ u : State, exec (.combine g) s = .next (u.finished x 0 0)
              ∧ (m.n = 1 →
                let rows := (List.range m.k).filterMap (fun r => match combineRow m rt mb tb 0 r with
                  | some (.pool o) => some (fieldAt wb (4 * r) 4, s.poolRd g o m.rb)
                  | _ => none)
                let eb := x.rowFmt.bits / 8
                u.poolRd g m.tok m.rb = (List.range (m.rb / eb)).flatMap (fun j => natLe eb (roundVal x.rowFmt (sumVal (rows.map (fun r =>
                  mulVal (Fmt.fp32.decode r.1) (x.rowFmt.decode (fieldAt r.2 (eb * j) eb))))))))))
      ∧ (∀ sq kv u, e = 0 → op = 1 →
        let nq := x.f 0x34 1
        let fl := x.f 0x37 1
        let lo := x.f 0x1C 4
        let hi := x.f 0x20 4
        let hd := headDim (x.f 0x35 1)
        let ob := if fl.testBit 1 then 2 else 4
        let ml := x.f 0x30 4
        let q := s.poolRd g (x.f 0x10 4) (nq * 2 * hd)
        let sees := fun r j => visible lo hi (fl.testBit 0) (x.f 0x2C 4) (x.f 0x24 4 + if fl.testBit 2 then r else 0) j
        let need := ((List.range (hi - lo)).map (· + lo)).filter (fun j => (List.range nq).any (fun r => sees r j))
        let att := fun r => attendRow (x.f 0x28 4) hd ((List.range hd).map (fun d => Fmt.bf16.decode (fieldAt q (2 * (r * hd + d)) 2))) kv
          (sees r) lo hi
        let out := (List.range nq).flatMap (fun r => (att r).o.flatMap (fun od => natLe ob (if (dec32 (att r).l).isZero then 0
          else (fpDiv (if ob = 2 then .bf16 else .fp32) .rne (dec32 od) (dec32 (att r).l)).bits)))
        1 ≤ nq → nq ≤ 128 → x.f 0x35 1 ≤ 2 → fl < 8 → x.zero 0x38 8 = true → lo < hi →
        x.allOk s ([(x.f 0x10 4, nq * 2 * hd, 128), (x.f 0x14 4, nq * hd * ob, 128)] ++ if ml = 0xFFFFFFFF then [] else [(ml, 8 * nq, 128)]) = true →
        s.seqOf (s.ctx x.cap.ctx).prt (x.f 0x18 4) = some sq → hi ≤ (s.seq sq).len → x.f 0x36 1 < (s.seq sq).nkvh → (s.seq sq).hd = x.f 0x35 1 →
        engFold need ([] : List KV) ((w.seqStamp sq).takeSlot g true sq) (fun acc j s =>
          (x.kvRow sq j (x.f 0x36 1) false s).bind fun k s => (x.kvRow sq j (x.f 0x36 1) true s).bind fun v s =>
            .ok (acc ++ [(⟨j, k, v⟩ : KV)]) s) = .ok kv u →
        u.poolQuiet g →
        let t := u.poolWr g (x.f 0x14 4) out
        exec (.attend g) s = .next ((if ml = 0xFFFFFFFF then t
          else t.poolWr g ml ((List.range nq).flatMap (fun r => natLe 4 (att r).m ++ natLe 4 (att r).l))).finished x 0 0))
      ∧ ∀ (rb : List Byte) (n k i : Nat), i < n * k → (assigns rb n k)[i]? = some ⟨i / k, i % k, fieldAt rb (2 * i) 2,
          ((List.range i).filter (fun j => fieldAt rb (2 * j) 2 == fieldAt rb (2 * i) 2)).length⟩

/-- The collective engine (R150 to R154): REDUCE of floating-point elements adds the sources exactly block by block and rounds once;
RELAY arms its slot and leaves the ring; SEND asks for one REDUCE of each block and waits; a slot whose time is up ends with TIMEOUT. -/
def Obligations.CollectiveCommands : Prop :=
  ∀ (s : State) (g op : Nat) (x : Env), s.engineReady g 4 op x →
    let w := s.taken x
    let n := x.f 0x18 4
    let k := x.f 0x1C 1
    let fin := x.f 0x1D 1
    let fout := x.f 0x1E 1
    let src := fun i => fieldAt (s.poolRd g (x.f 0x14 4) (4 * k)) (4 * i) 4
    let block := fun (u : State) (f base b : Nat) => encodeXBlock f (collElems f (u.poolRd g (base + 32 * collBytes f * b) (32 * collBytes f)))
    let va := x.f 0x28 8
    (op = 1 → collN n = true → 1 ≤ k → k ≤ 16 → fin < 3 → fout < 3 → x.zero 0x1F 33 = true → x.cap.relaxed = false →
        x.allOk s ((x.f 0x14 4, 4 * k, 128) :: collRange fout (x.f 0x10 4) n) = true →
        (∀ i < k, x.allOk s (collRange fin (src i) n) = true) →
        exec (.reduce g) s = .next (((List.range (n / 32)).foldl (fun u b =>
          u.poolWr g (x.f 0x10 4 + 32 * collBytes fout * b) (((List.range (k - 1)).foldl (fun a i => a.merge (block u fin (src (i + 1)) b))
            (block u fin (src 0) b)).final fout)) w).finished x 0 0))
      ∧ (op = 2 → ∀ ses, collN n = true → fin < 4 → x.zero 0x14 4 = true → x.zero 0x1C 1 = true → x.zero 0x1E 2 = true →
        x.zero 0x24 4 = true → x.zero 0x30 16 = true → x.allOk s (collRange fin (x.f 0x10 4) n) = true → x.reduceWin s va n = true →
        s.sessOf (s.ctx x.cap.ctx).prt (s.win (winOf va)).peer (s.win (winOf va)).peerPrt = some ses → s.reqsOf x.own = [] →
        ∃ t, exec (.send g) s = .next t ∧ (t.eng x.k).phase = .waiting 1 ∧ (t.reqsOf x.own).map (fun r => (r.op, r.win, r.offset, r.arg, r.data))
          = (List.range (n / 32)).map (fun b => (4, winOf va, winOff va + 128 * b, x.f 0x20 4, x.wire fin (block s fin (x.f 0x10 4) b))))
      ∧ (op = 3 → collN n = true → 1 ≤ k → k ≤ 15 → collPair fin fout = true → x.f 0x1F 1 ≤ 15 → x.zero 0x24 4 = true →
        x.zero 0x30 16 = true → s.relaySlot g (x.f 0x1F 1) = none → s.tagSlot (s.ctx x.cap.ctx).prt (x.f 0x20 4) = none → va = 0 →
        x.allOk s (collRange fin (x.f 0x10 4) n ++ collRange fout (x.f 0x14 4) n) = true → s.heldReduce = [] →
        ∃ t, exec (.relay g) s = .next t ∧ (t.eng x.k).relays = (s.eng x.k).relays ++ [⟨x.f 0x1F 1, x.b, x.cap, x.idx, [], []⟩]
          ∧ (t.eng x.k).cur = none ∧ t.pool = s.pool ∧ t.flag .GAL_ENG_STAT_relays x.k = true)
      ∧ ∀ slot r, s.relaySlot g slot = some r → s.relayDone g r = false →
        exec (.relayTimeout g slot) s = .next (s.endRelay g slot 9 r.done.length)

/-- What happens to an engine beside its commands (R122, R124, R126, R128, R132, R134, R164, R475). Opcode 0 completes at once; a finished
command writes its status word, increments its semaphore and is counted, and one whose context has moved on is discarded; a new ring
configuration empties the ring, and takes hold when it is good; a reset ends whatever the engine holds. -/
def Obligations.EngineEvents : Prop :=
  ∀ (s : State) (g e : Nat), g < 32 → e < 9 → s.pwr.stop = 0 →
    let k := 16 * g + e
    (∀ x, s.engineReady g e 0 x → exec (.engineNop g e) s
          = .next ((((s.taken x).finished x 0 0).freeEng g e).completeCmd x 0 0 0))
      ∧ (∀ x c i n, s.curEnv g e = some x → (s.eng k).phase = .finished c i n → (s.eng k).relays = [] →
        exec (.commandComplete g e) s = .next (if s.capStale x.cap then (s.freeEng g e).unpost x.cap.task
          else (s.freeEng g e).completeCmd x c i n))
      ∧ (∀ x c i n, x.g = g → x.e = e → codeFaults c = false → s.poolQuiet g →
        let t := s.completeCmd x c i n
        t.rd .GAL_ENG_DONE_count k = (s.rd .GAL_ENG_DONE_count k + 1) % 2 ^ 48
          ∧ (x.f 0x0C 4 = 0xFFFFFFFF → t.sem g (x.f 2 2) = (s.sem g (x.f 2 2) + 1) % 2 ^ 64)
          ∧ (x.f 0x0C 4 ≠ 0xFFFFFFFF → x.statusOk = true →
            (x.f 0x0C 4 + 8 ≤ s.semOff g (x.f 2 2) ∨ s.semOff g (x.f 2 2) + 8 ≤ x.f 0x0C 4) →
            t.poolRd g (x.f 0x0C 4) 8 = natLe 2 c ++ natLe 2 i ++ natLe 4 (n % 2 ^ 32)
              ∧ t.sem g (x.f 2 2) = (s.sem g (x.f 2 2) + 1) % 2 ^ 64))
      ∧ (∀ src base size, src.ok = true → base < 2 ^ 19 → size < 16 → s.reachesSlice src g = true → s.sealedPrt (s.prtOf g) = false →
        ¬ (s.rd .GAL_ENG_RING_base k = base ∧ s.rd .GAL_ENG_RING_size k = size ∧ s.rd .GAL_ENG_RING_en k = 1) → s.engEnabled g e = true →
        ∃ t, exec (.galEngRing src g e base size 1) s = .next t ∧ t.rd .GAL_ENG_PTR_head k = 0 ∧ t.rd .GAL_ENG_PTR_tail k = 0
          ∧ t.rd .GAL_ENG_RING_base k = base ∧ t.rd .GAL_ENG_RING_size k = size
          ∧ t.flag .GAL_ENG_RING_en k = !t.ringBad g e base size ∧ t.flag .GAL_ENG_STAT_cfg_err k = t.ringBad g e base size)
      ∧ (s.reachesSlice (.func 0) g = true → exec (.galEngRst (.func 0) g e) s = .next (s.resetEngine g e false))
      ∧ (∀ f, f ≠ 0 → f < 128 → exec (.galEngRst (.func f) g e) s = .next s)
      ∧ exec (.missedStopTime g e) s = .next (s.resetEngine g e false)
      ∧ (((s.resetEngine g e false).eng k).cur = none ∧ ((s.resetEngine g e false).eng k).relays = [])
      ∧ ∃ t, exec (.staleArrival g e) s = .next t ∧ t.rd .GAL_ENG_STALE_count k = (s.rd .GAL_ENG_STALE_count k + 1) % 2 ^ 48
          ∧ t.engs = s.engs ∧ t.pool = s.pool

/-- The code of the compression engine and the pager loses nothing (R160 to R162): a record of any chunk at any width decodes to the chunk,
and what follows the record is left over. -/
def Obligations.CompressionRoundTrip : Prop :=
  ∀ (w : Nat) (c rest : List Byte), w = 1 ∨ w = 2 ∨ w = 4 → 128 ≤ c.length → c.length ≤ 4096 →
    decodeChunk (encodeChunk w c ++ rest) = some (c, rest) ∧ (encodeChunk w c).length % 16 = 0
      ∧ (encodeChunk w c).length ≤ 16 + (c.length + 15) / 16 * 16
-- Pools and device memory ---------------------------------------------------------------------------------------------------

/-- The pool's own steps. A wipe of a geode leaves its banks reading zero and touches nothing else of any pool, and shows that it runs;
with the last row it shows that it is done; a preserving march test stops
(R173 to R175). An owner write sets the bank's owner; with clr the bank reads zero and is busy
until the clear ends; a write that its source may not make, to a geode bank or to a busy bank is ignored (R177, R179, R184). Patrol scrub
moves on by one row of every bank, corrects a codeword with at most two bad symbols and reports one beyond correction (R172, R173).
March test and repair (R181 to R183). The physical function starts a run when the mode allows it, else refused is set. The end of a
run shows the banks that stay bad; a destructive run leaves the pool reading zero; with repair a lane that fails in three or more rows
takes a spare lane and other failing rows take spare rows, up to two lanes and eight rows in a bank. -/
def Obligations.PoolMaintenance : Prop :=
  (∀ (s : State) (g : Nat), g < 32 → s.pwr.stop = 0 →
    (s.flag .GAL_POOL_CFG_geode g = true →
        let stops := s.rd .GAL_POOL_MARCH_state g == 1 && s.flag .GAL_POOL_MARCH_mode g
        ∃ t : State, exec (.geodeWipe g) s = .next (if stops then (t.wr .GAL_POOL_MARCH_state g 0).wr .GAL_POOL_MARCH_aborted g 1 else t)
          ∧ t.flag .GAL_POOL_CFG_wipe g = true
          ∧ (∀ off < 2 ^ 25, 0x1E00000 ≤ off → t.poolRd g off 1 = [0#8])
          ∧ (∀ h off, off < 2 ^ 25 → h ≠ g ∨ off < 0x1E00000 → t.poolRd h off 1 = s.poolRd h off 1)
          ∧ (∀ f i, (f ≠ .GAL_POOL_CFG_wipe ∨ i ≠ g) → t.rd f i = s.rd f i)
          ∧ { t with pool := s.pool, poolErr := s.poolErr, regs := s.regs } = s)
      ∧ (s.flag .GAL_POOL_CFG_geode g = false → exec (.geodeWipe g) s = .next s)
      ∧ (s.sec.goal = none → s.flag .GAL_POOL_CFG_wipe g = true →
        exec (.geodeWipeDone g) s = .next ((s.wr .GAL_POOL_CFG_wipe g 0).wr .GAL_POOL_CFG_wiped g 1))
      ∧ (∀ (src : Src) (bank ctx valid : Nat), src.ok = true → bank < 64 →
        let k := 64 * g + bank
        let own := (s.wr .GAL_BANK_OWNER_ctx k ctx).wr .GAL_BANK_OWNER_valid k valid
        let may := s.reachesSlice src g = true ∧ ¬ (s.flag .GAL_POOL_CFG_geode g = true ∧ 60 ≤ bank)
          ∧ s.flag .GAL_BANK_OWNER_busy k = false
        (may → exec (.bankOwnerWrite src g bank ctx valid) s = .next own
            ∧ ∃ t : State, exec (.bankClear src g bank ctx valid) s = .next t ∧ t.regs = (own.wr .GAL_BANK_OWNER_busy k 1).regs
              ∧ (∀ h off, off < 2 ^ 25 → t.poolRd h off 1 = if h = g ∧ s.bankOf g off = bank then [0#8] else s.poolRd h off 1)
              ∧ { t with pool := s.pool, poolErr := s.poolErr, regs := s.regs } = s)
          ∧ (¬ may → exec (.bankOwnerWrite src g bank ctx valid) s = .next s ∧ exec (.bankClear src g bank ctx valid) s = .next s)
          ∧ exec (.bankClearDone g bank) s = .next (s.wr .GAL_BANK_OWNER_busy k 0))
      ∧ (let row := (s.gal g).scrubRow
        let on := fun (t : State) => Host.Outcome.next (t.modGal g (fun x => { x with scrubRow := (row + 1) % 4096 }))
        (s.poolErr = [] → exec (.patrolScrub g) s = on s)
          ∧ ∀ b q n, b < 64 → q < 4 → n ≠ 0 → row < 4096 →
            (∀ c < 64, s.bankDead g c = false) → s.flag .GAL_POOL_CFG_wipe g = false →
            let off := s.offOfRow g b row + 32 * q
            s.poolErr = [(s.cwKey g off, n)] →
              (n ≤ 2 → exec (.patrolScrub g) s = on ({ s with poolErr := [] }.poolCE g off))
                ∧ (2 < n → ∃ u : State, u = { s with poolErr := [(s.cwKey g off, 255)] }.poolUE g off 10 0
                  ∧ exec (.patrolScrub g) s =
                    on (u.rasRecord ⟨3, 2, 0, 2, g, (u.prtOf g).getD 0xFF, hallDom g, 0, u.word .GAL_POOL_UE g⟩))))
    ∧ (∀ (s : State) (g : Nat), g < 32 → s.pwr.stop = 0 →
    (∀ src : Src, src.ok = true → s.reachesSlice src g = true →
        let may := src = .func 0 ∧ s.rd .GAL_POOL_MARCH_state g ≠ 1
          ∧ (if s.flag .GAL_POOL_MARCH_mode g then (s.gal g).task = none ∧ s.enginesIdle g = true else s.prtOf g = none)
        (may → exec (.marchStart src g) s = .next (s.wr .GAL_POOL_MARCH_state g 1))
          ∧ (¬ may → exec (.marchStart src g) s = .next (s.wr .GAL_POOL_MARCH_refused g 1)))
      ∧ ∀ (fails verify : List MarchFail), s.rd .GAL_POOL_MARCH_state g = 1 →
        (s.flag .GAL_POOL_MARCH_mode g = true ∨ s.flag .GAL_POOL_MARCH_repair g = false →
          ∃ t : State, exec (.marchTestDone g fails verify) s = .next t
            ∧ t.rd .GAL_POOL_MARCH_state g = (if fails = [] then 2 else 3)
            ∧ (∀ b < 64, bit (t.rd .GAL_POOL_MFAIL_bank g) b = fails.any (fun x => x.bank == b))
            ∧ (if s.flag .GAL_POOL_MARCH_mode g then t.pool = s.pool
              else ∀ h off, off < 2 ^ 25 → t.poolRd h off 1 = if h = g then [0#8] else s.poolRd h off 1)
            ∧ t.softRows = s.softRows ∧ t.softLanes = s.softLanes)
          ∧ (s.flag .GAL_POOL_MARCH_mode g = false → s.flag .GAL_POOL_MARCH_repair g = true → ∀ b < 64, fails ≠ [] →
            (∀ x ∈ fails, x.bank = b ∧ x.lane < 128) →
            let k := 64 * g + b
            let rows := (fails.map (·.row)).eraseDups.length
            ∃ t : State, exec (.marchTestDone g fails []) s = .next t
              ∧ (∀ off < 2 ^ 25, t.poolRd g off 1 = [0#8])
              ∧ ((∀ n, ((fails.filter (fun x => x.lane == n)).map (·.row)).eraseDups.length < 3) → s.softRows.get 0 k ≤ 8 →
                t.softLanes.get 0 k = s.softLanes.get 0 k ∧ t.softRows.get 0 k = min (s.softRows.get 0 k + rows) 8
                  ∧ t.rd .GAL_POOL_MARCH_state g = if s.softRows.get 0 k + rows ≤ 8 then 2 else 3)
              ∧ (∀ n, (∀ x ∈ fails, x.lane = n) → 3 ≤ rows → s.softLanes.get 0 k < 2 →
                t.softLanes.get 0 k = s.softLanes.get 0 k + 1 ∧ t.softRows.get 0 k = s.softRows.get 0 k
                  ∧ t.rd .GAL_POOL_MARCH_state g = 2)))
/-- Requests at the memory controllers (R188, R191, R194, R195, R201, R397, R426). A request that passes its checks and whose lines
deliver reads the bytes, writes them and nothing else, or does its atomic and answers the old value. One whose tag opens nothing is
dropped and counted; one that the owner check refuses answers so, a read with zeros; a poisoned line answers so and keeps its bytes.
The codes of replies and events that it uses are the model's (log entry 42). -/
def Obligations.MemoryRequests : Prop :=
  ∀ (s : State) (r : MemReq) (data : List Byte) (op : AtomicOp) (y : Word), s.pwr.stop = 0 → r.prt < 32 →
    let rd := if reqDdr r then Instr.ddr5Read r else .hbmRead r
    let wr := if reqDdr r then Instr.ddr5Write r data else .hbmWrite r data
    let w := atomicSize op
    let old := leNat (s.pmemRd r.prt r.ppa w)
    let put := fun (t : State) (n : Nat) (b : List Byte) => t.pmemRd r.prt r.ppa n = b
      ∧ (∀ a, a < pmemKey r.prt r.ppa ∨ pmemKey r.prt r.ppa + n ≤ a → memGet t.pmem a = memGet s.pmem a)
      ∧ (s.flag .DSP_MLOG_BASE_en r.prt = false →
          { t with pmem := s.pmem, out := s.out, ownCache := s.ownCache, lineErr := s.lineErr } = s)
    (s.reqPasses r r.len false → s.linesGood r.prt r.ppa r.len false →
        ∃ t : State, exec rd s = .next t ∧ t.out = s.out ++ [.reply [0] (s.pmemRd r.prt r.ppa r.len)]
          ∧ { t with out := s.out, ownCache := s.ownCache } = s)
      ∧ (s.reqPasses r data.length true → s.linesGood r.prt r.ppa data.length true →
        ∃ t : State, exec wr s = .next t ∧ t.out = s.out ++ [.reply [0] []] ∧ put t data.length data
          ∧ ∀ a ∈ linesOf r.ppa data.length, t.lineBad (s.locOf r.prt a) = 0)
      ∧ (s.reqPasses r w true → s.linesGood r.prt r.ppa w false →
        ∃ t : State, exec (.memoryAtomic r op y) s = .next t ∧ t.out = s.out ++ [.reply [0] (natLe w old)]
          ∧ put t w (natLe w (match op with
              | .add32 => (old + y.toNat) % 2 ^ 32
              | .add64 => (old + y.toNat) % 2 ^ 64
              | .swp32 => y.toNat % 2 ^ 32
              | .swp64 => y.toNat)))
      ∧ (s.tagOk r.prt r.keySlot r.keyGen = false → ∀ i ∈ [rd, wr, .memoryAtomic r op y],
        exec i s = .next ((s.count .SEC_KEY_STALE_count .SEC_KEY_STALE_ovf 0 1).emit (.reply [3] [])))
      ∧ (s.tagOk r.prt r.keySlot r.keyGen = true → s.cpcRefused r = true →
        exec rd s = .next (s.emit (.reply [1] (List.replicate r.len 0#8))) ∧ exec wr s = .next (s.emit (.reply [1] [])))
      ∧ (s.tagOk r.prt r.keySlot r.keyGen = true → s.cpcRefused r = false →
        (s.mapped r.prt r.ppa r.len = false →
            exec rd s = .next ((s.ownerRefuse r.prt 0xFFFFFFFF (reqCtx r) false).emit (.reply [1] (List.replicate r.len 0#8))))
          ∧ (s.mapped r.prt r.ppa data.length = false →
            exec wr s = .next ((s.ownerRefuse r.prt 0xFFFFFFFF (reqCtx r) true).emit (.reply [1] []))))
      ∧ (∀ a, s.reqPasses r r.len false → s.flag .MEM_PRT_OWN_en r.prt = false → linesOf r.ppa r.len = [a] →
        s.chanState (s.locOf r.prt a).chan ≠ 3 → s.lineBad (s.locOf r.prt a) = 255 →
          exec rd s = .next ((s.poisonFault r.ctx 0 0xFF (s.locOf r.prt a)).emit (.reply [2] []))
            ∧ (data.length = r.len → wholeLine a r.ppa r.len = false →
              exec wr s = .next ((s.poisonFault r.ctx 0 0xFF (s.locOf r.prt a)).emit (.reply [2] []))))

/-- Channels (R195 to R197, R203 to R205). A lost channel is fenced: without a parity group every line of it is poisoned, in one the
active channels of its octet are degraded; a rebuilt channel is active again, and its octet with it once no channel of it is lost or
rebuilding. A parity write makes the parity line good. Recalibration and refresh change nothing that is held. Scrub reads one unit of
lines and moves on; it is off at exponent 0x3F.
The page-owner table (R200, R202) and zero fill (R199). A write of an entry puts it into the table, and requests see the old entry
until it has reached every cache; then they see the new one; while a relayout rewrites the table the write is held (R239). A frame beyond the table sets err. A filled octet or extent holds no bad
line. -/
def Obligations.ChannelsAndOwners : Prop :=
  (∀ (s : State), s.pwr.stop = 0 →
    (∀ (ddr : Bool) (chan : Nat), chan < (if ddr then 12 else 256) →
        let ch := if ddr then 256 + chan else chan
        let st := s.chanState ch
        (st ≠ 3 → (ddr = true → s.flag .MEM_DDR_STAT_present chan = true) → ∃ t : State, exec (.channelLoss ddr chan) s = .next t
            ∧ t.chanState ch = 3 ∧ t.pmem = s.pmem
            ∧ (s.inParity ch = false → ∀ l, t.lineBad ⟨ch, l⟩ = 255 ∨ 2 ^ 32 ≤ l)
            ∧ (s.inParity ch = true → ∀ k < 8, 8 * (ch / 8) + k ≠ ch → t.chanState (8 * (ch / 8) + k) =
                if s.chanState (8 * (ch / 8) + k) = 1 then 2 else s.chanState (8 * (ch / 8) + k)))
          ∧ (st = 3 → exec (.channelLoss ddr chan) s = .next s)
          ∧ exec (.recalibration ddr chan) s = .next s ∧ exec (.refresh ddr chan) s = .next s
          ∧ (let n := if ddr then 64 else 30
            let units := if ddr then s.rd .MEM_DDR_STAT_ext chan * 2 ^ 18 else 2 ^ 20
            let off := if ddr then s.rd .MEM_DDR_CTRL_scrub chan else s.rd .MEM_HBM_CTRL_scrub chan
            let pos := (s.chans.get .reset ch).scrubPos
            (off = 0x3F ∨ st = 0 ∨ st = 3 → exec (.memoryScrub ddr chan) s = .next s)
              ∧ (off ≠ 0x3F → st ≠ 0 → st ≠ 3 → (∀ j < n, s.lineBad ⟨ch, pos * n + j⟩ = 0 ∨ s.lineBad ⟨ch, pos * n + j⟩ = 255) →
                exec (.memoryScrub ddr chan) s = .next { s with chans := s.chans.upd .reset ch (fun x =>
                  { x with scrubPos := (pos + 1) % max units 1 }) })))
      ∧ ∀ chan < 256,
        (s.chanState chan = 4 → ∃ t : State, exec (.rebuildDone chan) s = .next t
            ∧ (let still := (List.range 8).any (fun k => 8 * (chan / 8) + k != chan
                  && (s.chanState (8 * (chan / 8) + k) == 3 || s.chanState (8 * (chan / 8) + k) == 4))
              t.chanState chan = (if still then 2 else 1)
                ∧ ∀ k < 8, 8 * (chan / 8) + k ≠ chan → t.chanState (8 * (chan / 8) + k) =
                    if still = false ∧ s.chanState (8 * (chan / 8) + k) = 2 then 1 else s.chanState (8 * (chan / 8) + k))
            ∧ { t with regs := s.regs } = s)
          ∧ (s.chanState chan ≠ 4 → exec (.rebuildDone chan) s = .next s)
          ∧ ∀ line, s.inParity chan = true → chan % 8 = 7 → s.chanState chan ≠ 3 → s.lineBad ⟨chan, line⟩ ≤ 2 →
            ∃ t : State, exec (.parityWrite chan line) s = .next t ∧ t.lineBad ⟨chan, line⟩ = 0
              ∧ (s.lineBad ⟨chan, line⟩ = 0 → t = s.setLineBad ⟨chan, line⟩ 0))
    ∧ (∀ (s : State), s.pwr.stop = 0 →
    (∀ (src : Src) (p : Nat), src.ok = true → p < 32 → s.reachesPrt src p = true → s.flag .MEM_OWN_CMD_busy p = false →
        let fr := s.rd .MEM_OWN_CMD_frame p
        let e := s.rd .MEM_OWN_DATA_entry p
        let at_ := s.rd .MEM_PRT_OWN_base p * 65536 + 4 * fr
        let last := (s.tableH p + (s.part p).ddr) / 65536
        (last ≤ fr → exec (.memOwnCmdGo src p) s = .next (s.wr .MEM_OWN_CMD_err p 1))
          ∧ (fr < last → s.linesGood p at_ 4 false → ∃ t : State, exec (.memOwnCmdGo src p) s = .next t
            ∧ t.flag .MEM_OWN_CMD_busy p = true ∧ (t.ownEntry p fr).1 = (s.ownEntry p fr).1
            ∧ t.ownPend.get 0 p = b2n (s.ownHeld p) * 2 ^ 65 + fr * 2 ^ 32 + e + 1
            ∧ (s.ownHeld p = true → t.pmem = s.pmem) ∧ (s.ownHeld p = false → t.pmemRd p at_ 4 = natLe 4 e)))
      ∧ (∀ p < 32, ∀ h fr e, s.flag .MEM_OWN_CMD_busy p = true → e < 2 ^ 32 → fr < 2 ^ 32 →
        s.ownPend.get 0 p = b2n h * 2 ^ 65 + fr * 2 ^ 32 + e + 1 →
        let at_ := s.rd .MEM_PRT_OWN_base p * 65536 + 4 * fr
        (s.ownHeld p = true → exec (.ownerPropagationDone p) s = .next s)
          ∧ (s.ownHeld p = false → s.linesGood p at_ 4 false → ∃ t : State, exec (.ownerPropagationDone p) s = .next t
            ∧ (t.ownEntry p fr).1 = e ∧ t.flag .MEM_OWN_CMD_busy p = false
            ∧ (h = false → t.pmem = s.pmem) ∧ (h = true → t.pmemRd p at_ 4 = natLe 4 e)))
      ∧ (∀ (ddr : Bool) (u : Nat), u < (if ddr then 3072 else 32) →
        let k := if ddr then 32 + u else u
        (k ∉ s.fills → exec (.zeroFillDone ddr u) s = .next s)
          ∧ (k ∈ s.fills → ∃ t : State, exec (.zeroFillDone ddr u) s = .next t ∧ k ∉ t.fills ∧ t.pmem = s.pmem
            ∧ (ddr = false → ∀ c < 8, ∀ l < 2 ^ 32, t.lineBad ⟨8 * u + c, l⟩ = 0)
            ∧ ((s.chans.get .reset (256 + u / 256)).dead = false → ddr = true →
                ∀ l, u % 256 * 2 ^ 24 ≤ l → l < (u % 256 + 1) * 2 ^ 24 → t.lineBad ⟨256 + u / 256, l⟩ = 0))))
-- Sequence pager ------------------------------------------------------------------------------------------------------------

/-- The sequence aperture (R209, R214 to R219, R221). An access that its context may not make is refused and recorded; an access of an
allocated page reaches it where it stands, a DDR5 page being filled into HBM first; a page that has not been allocated reads zero. The
control line reads the length, the hint and the class; writing it allocates the groups of the length, raises the length, sets the class
and replaces the hint; a write that breaks a rule changes nothing and is recorded. A move that ends puts the page into the pool page
promised. Spill below the low mark moves a victim to DDR5. -/
def Obligations.SequenceAperture : Prop :=
  ∀ (s : State) (g c i o n : Nat), g < 32 → s.pwr.stop = 0 → i < 8192 → o < 2 ^ 31 →
    let va := 0xE00000000000 + i * 2 ^ 31 + o
    let p := (s.ctx c).prt
    let u := s.seqStamp i
    let no := fun (t : State) => Host.Outcome.next (t.emit (.reply [1] []))
    let k := o / 65536
    let m := if ((s.seq i).page k).tier = 3 then u.toHbm i k else (true, u)
    let e := (m.2.seq i).page k
    let pa := e.frame * 65536 + o % 65536
    let pool := m.2.regionOff (e.frame / 256) (e.frame % 256) + o % 65536
    (s.seqMay c i = false → 0 < n → o % 65536 + n ≤ 65536 → ∀ b : List Byte, ∀ l : CtlLine, b.length = n →
        exec (.sequenceApertureAccess g c va n none) s = no (s.pgrFault p 0 c i)
          ∧ exec (.sequenceApertureAccess g c va n (some b)) s = no (s.pgrFault p 0 c i)
          ∧ exec (.controlLineRead g c i) s = no (s.pgrFault p 0 c i) ∧ exec (.controlLineWrite g c i l) s = no (s.pgrFault p 0 c i))
      ∧ (s.seqMay c i = true → 0 < n → o % 65536 + n ≤ 65536 → o + n ≤ 0x7FFF0000 →
        (((s.seq i).page k).tier = 0 → exec (.sequenceApertureAccess g c va n none) s =
            .next (u.emit (.reply [0] (List.replicate n 0#8))))
          ∧ (((s.seq i).page k).tier ≠ 0 → m.1 = true → e.tier ≠ 1 → m.2.linesGood p pa n false →
            exec (.sequenceApertureAccess g c va n none) s = .next (m.2.emit (.reply [0] (m.2.pmemRd p pa n))))
          ∧ (m.1 = true → e.tier = 1 → m.2.poolQuiet (e.frame / 256) →
            exec (.sequenceApertureAccess g c va n none) s = .next (m.2.emit (.reply [0] (m.2.poolRd (e.frame / 256) pool n))))
          ∧ (∀ b : List Byte, b.length = n → k < (s.seq i).groups * (s.seq i).nkvh → k < (s.seq i).maxGroups * (s.seq i).nkvh →
            ((s.seq i).page k).busy = false → m.1 = true →
            (e.tier ≠ 1 → m.2.linesGood p pa n true → ∃ t : State, exec (.sequenceApertureAccess g c va n (some b)) s = .next t
              ∧ t.out = m.2.out ++ [.reply [0] []] ∧ t.pmemRd p pa n = b ∧ t.seqs = m.2.seqs
              ∧ ∀ a, a < pmemKey p pa ∨ pmemKey p pa + n ≤ a → memGet t.pmem a = memGet m.2.pmem a)
              ∧ (e.tier = 1 → m.2.poolQuiet (e.frame / 256) → exec (.sequenceApertureAccess g c va n (some b)) s =
                .next ((m.2.poolWr (e.frame / 256) pool b).emit (.reply [0] [])))))
      ∧ (s.seqMay c i = true →
        exec (.controlLineRead g c i) s = .next (u.emit (.reply [0] (natLe 8 (s.seq i).len ++ natLe 4 (s.seq i).hintLo
            ++ natLe 4 (s.seq i).hintHi ++ natLe 1 (s.seq i).cls ++ List.replicate 111 0#8)))
          ∧ ∀ l : CtlLine, l.len < 2 ^ 64 → l.hintLo < 2 ^ 32 → l.hintHi < 2 ^ 32 → l.cls < 256 → l.rest < 2 ^ 888 →
            let x := s.seq i
            let want := (l.len + x.tpp - 1) / x.tpp
            let ok := l.rest = 0 ∧ (l.cls ≤ 2 ∨ l.cls = 0xFF)
            (¬ ok → exec (.controlLineWrite g c i l) s = no (u.pgrFault p 0 c i))
              ∧ (ok → x.maxGroups * x.tpp < l.len → exec (.controlLineWrite g c i l) s = no (u.pgrFault p 3 c i))
              ∧ (ok → l.len ≤ x.maxGroups * x.tpp → ∀ v : State,
                (u.allocTo i (want - x.groups) want = (false, v) → exec (.controlLineWrite g c i l) s = no (v.pgrFault p 1 c i))
                  ∧ (u.allocTo i (want - x.groups) want = (true, v) → ∃ t : State, exec (.controlLineWrite g c i l) s = .next t
                    ∧ want ≤ (t.seq i).groups ∧ (t.seq i).len = max x.len l.len
                    ∧ (t.seq i).cls = (if l.cls = 0xFF then x.cls else l.cls)
                    ∧ (l.hintLo = 0xFFFFFFFF → l.hintHi = 0xFFFFFFFF →
                        (t.seq i).hintLo = x.hintLo ∧ (t.seq i).hintHi = x.hintHi)
                    ∧ (l.hintLo < l.hintHi → (t.seq i).hintLo = l.hintLo ∧ (t.seq i).hintHi = l.hintHi ∧ (t.seq i).hintGal = g)
                    ∧ (l.hintHi ≤ l.hintLo → l.hintHi ≠ 0xFFFFFFFF → ¬ (t.seq i).hintLo < (t.seq i).hintHi))))
      ∧ (∀ page, ((s.seq i).page page).busy = true → ∃ t : State, exec (.pageMoveDone i page) s = .next t
          ∧ (t.seq i).page page = ⟨1, false, false, 0, ((s.seq i).page page).tgt, 0⟩
          ∧ (t.pgal (((s.seq i).page page).tgt / 256)).order.getLast? = some (i, page))
      ∧ (∀ page, ((s.seq i).page page).busy = false → exec (.pageMoveDone i page) s = .next s)
      ∧ ∀ q < 32, let free := s.rd .PRT_PGR_FREE_hbm q
        (s.rd .PRT_PGR_WMARK_lowat q ≤ free → exec (.backgroundSpill q) s = .next s)
          ∧ ∀ j page d v, free + 1 = s.rd .PRT_PGR_WMARK_lowat q → s.rd .PRT_PGR_WMARK_hiwat q ≤ free + 1 →
            0 < s.rd .PRT_PGR_HBM_frames q → s.victim q = some (j, page) → s.takeDdr q = some (d, v) →
            ∃ t : State, exec (.backgroundSpill q) s = .next t ∧ ((t.seq j).page page).tier = 3 ∧ ((t.seq j).page page).frame = d
              ∧ t.rd .PRT_PGR_SPILL_count q = (s.rd .PRT_PGR_SPILL_count q + 1) % 2 ^ 48

/-- The commands of PRT_SEQ_CMD (R208, R209, R222, R223). A create takes the lowest free entry and an HBM frame for its page list and
answers a handle; a destroy condemns the sequence, and once no ATTEND and no move holds it everything it had is free and its generation
advances; a set-class and a query act on the sequence named. Errors: 1 no entry, 2 no such handle, 3 arguments, 4 no frame. While busy,
and from a source that may not, nothing happens. -/
def Obligations.SequenceCommands : Prop :=
  ∀ (s : State) (src : Src) (p : Nat), src.ok = true → p < 32 → s.pwr.stop = 0 →
    let err := fun (n : Nat) => Host.Outcome.next (s.wr .PRT_SEQ_CMD_err p n)
    let cmds := [Instr.seqCreate src p, .seqDestroy src p, .seqSetClass src p, .seqQuery src p]
    let named := s.seqOf p (s.rd .PRT_SEQ_CMD_handle p)
    let free := s.freeSeqIdx
    (s.reachesPrt src p = false ∨ s.flag .PRT_SEQ_CMD_busy p = true → ∀ i ∈ cmds, exec i s = .next s)
      ∧ (s.reachesPrt src p = true → s.flag .PRT_SEQ_CMD_busy p = false →
        (s.seqArgOk p = false → exec (.seqCreate src p) s = err 3)
          ∧ (s.seqArgOk p = true → (s.part p).seqQuota ≤ (s.seqsOf p).length ∨ free = none → exec (.seqCreate src p) s = err 1)
          ∧ (∀ j f v, s.seqArgOk p = true → (s.seqsOf p).length < (s.part p).seqQuota → free = some j →
            (s.frameFor p = (none, v) → exec (.seqCreate src p) s = .next (v.wr .PRT_SEQ_CMD_err p 4))
              ∧ (s.takeHbm p = some (f, v) → ∃ t : State, exec (.seqCreate src p) s = .next t
                ∧ t.rd .PRT_SEQ_CMD_handle p = (j + (s.seq j).gen * 2 ^ 16) % 2 ^ 32 ∧ t.rd .PRT_SEQ_CMD_err p = 0
                ∧ (t.seq j).st = 1 ∧ (t.seq j).prt = p ∧ (t.seq j).gen = (s.seq j).gen ∧ (t.seq j).ctx = s.rd .PRT_SEQ_ARG_ctx p
                ∧ (t.seq j).nkvh = s.rd .PRT_SEQ_ARG_nkvh p ∧ (t.seq j).hd = s.rd .PRT_SEQ_ARG_hd p
                ∧ (t.seq j).fmt = s.rd .PRT_SEQ_ARG_fmt p ∧ (t.seq j).cls = s.rd .PRT_SEQ_ARG_class p
                ∧ (t.seq j).shared = s.flag .PRT_SEQ_ARG_shared p ∧ (t.seq j).cmp = s.flag .PRT_SEQ_ARG_cmp p
                ∧ (t.seq j).len = 0 ∧ (t.seq j).groups = 0 ∧ (t.seq j).lists = [f]
                ∧ ∀ q, q ≠ j → t.seq q = s.seq q))
          ∧ (named = none → ∀ i ∈ cmds.tail, exec i s = err 2)
          ∧ ∀ j, named = some j →
            (∃ t : State, exec (.seqDestroy src p) s = .next t ∧ (t.seq j).st = 2 ∧ t.flag .PRT_SEQ_CMD_busy p = true
                ∧ t.rd .PRT_SEQ_CMD_err p = 0 ∧ ∀ q, q ≠ j → t.seq q = s.seq q)
              ∧ (s.rd .PRT_SEQ_ARG_class p = 3 → exec (.seqSetClass src p) s = err 3)
              ∧ (s.rd .PRT_SEQ_ARG_class p ≠ 3 → exec (.seqSetClass src p) s =
                .next ((s.setSeq j { s.seq j with cls := s.rd .PRT_SEQ_ARG_class p }).wr .PRT_SEQ_CMD_err p 0))
              ∧ exec (.seqQuery src p) s = .next ((((s.wr .PRT_SEQ_INFO_len p (s.seq j).len).wr .PRT_SEQ_INFO_groups p
                  (s.seq j).groups).wr .PRT_SEQ_INFO_state p (s.seq j).st).wr .PRT_SEQ_CMD_err p 0))
      ∧ (s.flag .PRT_SEQ_CMD_busy p = false → exec (.seqDestroyDone p) s = .next s)
      ∧ ∀ e, s.flag .PRT_SEQ_CMD_busy p = true → s.seqs.find? (fun e => e.2.st == 2 && e.2.prt == p) = some e → s.seq e.1 = e.2 →
        (s.seqQuiet e.1 = false → exec (.seqDestroyDone p) s = .next s)
          ∧ (s.seqQuiet e.1 = true → ∃ t : State, exec (.seqDestroyDone p) s = .next t ∧ (t.seq e.1).st = 0
            ∧ (t.seq e.1).gen = (e.2.gen + 1) % 2 ^ 16 ∧ (t.seq e.1).pages = [] ∧ t.flag .PRT_SEQ_CMD_busy p = false)
-- Surveys -------------------------------------------------------------------------------------------------------------------

/-- Loading a Survey (R232 to R234, R239 to R241, R245, R446). A load starts when none runs and the part is ready, else it is BUSY. What a
fetch brings is too short (DMA), fails validation, or is staged; staging ends, with no key and no shrink to wait for, in the held phase or
in the commit. A commit leaves the held phase; an abort ends staging with ABORTED. A relayout that ends puts every owned frame's bytes
where the new order holds them.
The commit (R235, R236, R242 to R246). Its first step marks the galleries that leave and asks the tasks on them to yield; the drain
bound ends what their engines still hold; once all have yielded and drained, the bind brings the new composition and its generation into
force at once, and the dual-map window opens, which closes with the load. Sealing an open partition fixes it. -/
def Obligations.Surveys : Prop :=
  (∀ (s : State) (src : Src), src.ok = true → s.pwr.stop = 0 →
    let phase := s.rd .SVY_STAT_phase 0
    let pf := src = .func 0 ∧ s.barOf 0 = true
    let ended := fun (t : State) (err off : Nat) => t.rd .SVY_STAT_phase 0 = 0 ∧ t.rd .SVY_STAT_err 0 = err ∧ t.rd .SVY_STAT_done 0 = 1
      ∧ t.rd .SVY_STAT_erroff 0 = off % 2 ^ 32 ∧ t.rd .SVY_PEND_gen 0 = 0 ∧ t.svy.pend = none ∧ t.map = s.map
    (¬ pf → ∀ i ∈ [Instr.surveyLoad src, .svyCommit src, .svyAbort src], exec i s = .next s)
      ∧ (pf → phase = 0 → s.flag .DEV_STAT_ready 0 = true → ∃ t : State, exec (.surveyLoad src) s = .next t
        ∧ t.rd .SVY_STAT_phase 0 = 1 ∧ t.rd .SVY_STAT_err 0 = 0 ∧ t.rd .SVY_STAT_erroff 0 = 0 ∧ t.rd .SVY_STAT_done 0 = 0
        ∧ t.rd .SVY_STAT_mgmt 0 = 0 ∧ { t with regs := s.regs, svy := s.svy } = s)
      ∧ (pf → phase ≠ 0 → exec (.surveyLoad src) s = .next (s.wr .SVY_STAT_err 0 1))
      ∧ (pf → phase = 0 → s.flag .DEV_STAT_ready 0 = false →
        exec (.surveyLoad src) s = .next ((s.wr .SVY_STAT_err 0 1).wr .SVY_STAT_done 0 1))
      ∧ (phase ≠ 1 → ∀ b, exec (.surveyFetchDone b) s = .next s)
      ∧ (phase = 1 → ∀ b : List Byte,
        let n := s.rd .SVY_LEN_len 0
        (∃ t : State, exec (.surveyFetchDone none) s = .next t ∧ ended t 2 0)
          ∧ (b.length < n → ∃ t : State, exec (.surveyFetchDone (some b)) s = .next t ∧ ended t 2 0)
          ∧ (n ≤ b.length → ∀ e, s.svyValidate (b.take n) s.svy.mgmt = .error e →
            ∃ t : State, exec (.surveyFetchDone (some b)) s = .next t ∧ ended t (e.code % 256) e.off)
          ∧ (n ≤ b.length → ∀ d m, s.svyValidate (b.take n) s.svy.mgmt = .ok (d, m) →
            ∃ t : State, exec (.surveyFetchDone (some b)) s = .next t ∧ t.svy.pend = some m ∧ t.map = s.map
              ∧ ((∀ p < 32, d.opOf p ≠ 1 ∧ (s.keeps d p = true → s.rd .PRT_STAT_state p = 2 →
                    (s.laidOrder p).length ≤ (m.at p).octets.length)) →
                t.rd .SVY_STAT_phase 0 = if (if s.svy.mgmt then s.svy.hold else s.flag .SVY_CTRL_hold 0) then 4 else 5)))
      ∧ (pf → phase = 4 → exec (.svyCommit src) s = .next (s.wr .SVY_STAT_phase 0 5))
      ∧ (phase ≠ 4 → exec (.svyCommit src) s = .next s)
      ∧ (pf → phase = 3 ∨ phase = 4 → ∃ t : State, exec (.svyAbort src) s = .next t ∧ ended t 0x12 0
        ∧ ∀ p, p ∈ s.svy.shrinks → t.flag .PRT_STAT_relayout p = false)
      ∧ (phase ≠ 3 → phase ≠ 4 → exec (.svyAbort src) s = .next s)
      ∧ ∀ p < 32,
        exec (.nakMoved p) s = .next (s.wr .PRT_MOVED_value p (min (s.rd .PRT_MOVED_value p + 1) (2 ^ 64 - 1)))
          ∧ (s.flag .PRT_STAT_relayout p = false → exec (.relayoutDone p) s = .next s)
          ∧ (s.flag .PRT_STAT_relayout p = true → ∃ t : State, exec (.relayoutDone p) s = .next t
            ∧ t.flag .PRT_STAT_relayout p = false ∧ t.rd .PRT_RELAYOUT_wmark p = 0 ∧ p ∉ t.svy.shrinks
            ∧ (s.flag .MEM_PRT_OWN_en p = false → (s.part p).exts = [] → s.flag .DSP_MLOG_BASE_en p = false →
                ∀ a, a < (s.part p).hbmOf (min (s.relay p).oldOrder.length (s.relay p).newOrder.length) →
                  memGet t.pmem (pmemKey p a) = memGet s.pmem (pmemKey p a))))
    ∧ (∀ (s : State), s.pwr.stop = 0 →
    let phase := s.rd .SVY_STAT_phase 0
    (phase ≠ 5 → exec .commitSequence s = .next s ∧ exec .drainBound s = .next s ∧ exec .bind s = .next s)
      ∧ (phase ≠ 6 → exec .windowClose s = .next s)
      ∧ (∀ m, s.svy.pend = some m → phase = 5 → s.svy.step = 0 →
        let u := s.wr .SVY_PEND_gen 0 s.svy.pendGen
        let v := { u with svy := { s.svy with leaving := s.leavingGals s.svyDoc m, step := 1, parkedNow := [], startAt := s.clocks.get 0 3 } }
        exec .commitSequence s = .next ((v.leavingTasks).foldl (fun s t => if (s.sub t).stage == .placed then s.preemptSub t else s) v))
      ∧ (phase = 5 → s.svy.step = 1 →
        let u := s.keptLeaving.foldl (fun t g => (List.range 9).foldl (fun t e => t.endEngine g e) t) s
        exec .drainBound s = .next ((u.leavingTasks.filter (fun k => (u.sub k).stage == .suspended)).foldl (fun t k =>
          (t.sub k).gals.foldl (fun t g => (List.range 9).foldl (fun t e => t.endTaskCmds k g e 4097) t) t) u))
      ∧ (∀ m, s.svy.pend = some m → s.bindDue = false → exec .bind s = .next s)
      ∧ (∀ m, s.svy.pend = some m → s.bindDue = true → exec .bind s = .next (s.bindNow s.svyDoc m)
        ∧ (s.bindNow s.svyDoc m).map = m
        ∧ (s.bindNow s.svyDoc m).rd .SVY_GEN_gen 0 = hdGen s.svyDoc.b % 2 ^ 64 ∧ (s.bindNow s.svyDoc m).rd .SVY_STAT_phase 0 = 6
        ∧ (s.bindNow s.svyDoc m).svy.old = some s.map ∧ (s.bindNow s.svyDoc m).svy.oldGen = s.rd .SVY_GEN_gen 0)
      ∧ (phase = 6 → ∃ t : State, exec .windowClose s = .next t ∧ t.rd .SVY_STAT_phase 0 = 0 ∧ t.rd .SVY_STAT_err 0 = 0
        ∧ t.rd .SVY_STAT_done 0 = 1 ∧ t.svy.old = none ∧ t.svy.pend = none ∧ t.map = s.map ∧ t.rd .SVY_GEN_gen 0 = s.rd .SVY_GEN_gen 0)
      ∧ ∀ (src : Src) (p : Nat), src.ok = true → p < 32 →
        (¬ (src = .func 0 ∧ s.barOf 0 = true) → exec (.seal src p) s = .next s)
          ∧ (src = .func 0 → s.barOf 0 = true → s.rd .PRT_STAT_state p = 1 → ∃ t : State, exec (.seal src p) s = .next t
            ∧ t.rd .PRT_STAT_state p = 2 ∧ t.rd .PRT_CTRL_seal p = 1 ∧ t.rd .SEC_PRT_KEY_conf p = s.rd .PRT_CTRL_conf p % 2
            ∧ ∀ q, q ≠ p → t.rd .PRT_STAT_state q = s.rd .PRT_STAT_state q))
-- The host's commands -------------------------------------------------------------------------------------------------------

/-- The checks of the CTX and FEN commands in their order (R255, R476): an argument word with an undefined bit set is BAD_OP, a function
without the right is RIGHTS, a name of nothing is BAD_HANDLE; each leaves the rest of the machine as it was and reads results of zero. A
function that BAR0 does not answer changes nothing. -/
def Obligations.WindowErrors : Prop :=
  ∀ (s : State) (f : Nat) (a : Args), f < 128 → s.pwr.stop = 0 →
    let h := a.a0.toNat
    let qs := [(Instr.qDestroy f a, 0x11, 32), (.qQuery f a, 0x13, 32)]
    let ms := [(Instr.mobjRetain f a, 0x21, 32), (.mobjRelease f a, 0x22, 32), (.mobjQuery f a, 0x23, 32)]
    let cs := [(Instr.ctxAbort f a, 0x02, 16), (.ctxDestroy f a, 0x03, 16)]
    let fs := [(Instr.fenSignal f a, 0x02, 32), (.fenError f a, 0x03, 32), (.fenQuery f a, 0x05, 32), (.fenDestroy f a, 0x06, 32)]
    (s.barOf f = false → ∀ i ∈ (qs ++ ms ++ cs ++ fs).map (·.1) ++ [.ctxCreate f a, .ctxSet f a, .ctxEvring f a, .ctxQuery f a,
        .qCreate f a, .qResume f a, .mobjCreate f a, .fenCreate f a, .fenArm f a], exec i s = .next s)
      ∧ (s.barOf f = true → ∀ w, ∀ e ∈ (if w = CmdWin.ctx then qs ++ ms ++ cs else if w = CmdWin.fen then fs else []),
        let d := s.asked w f e.2.1 a
        (2 ^ e.2.2 ≤ h → exec e.1 s = d.nextIn w f 1 0 0)
          ∧ (h < 2 ^ e.2.2 →
            (e ∈ cs → s.ctxRights f h true = false → exec e.1 s = d.nextIn w f 4 0 0)
              ∧ (e ∈ cs → s.ctxRights f h true = true → s.ctxExists h = false → exec e.1 s = d.nextIn w f 3 0 0)
              ∧ (e ∈ qs → s.queueRights f h (decide (e.2.1 = 0x11)) = false → exec e.1 s = d.nextIn w f 4 0 0)
              ∧ (e ∈ qs → s.queueRights f h (decide (e.2.1 = 0x11)) = true → s.queueOf h = none → exec e.1 s = d.nextIn w f 3 0 0)
              ∧ (e ∈ ms → s.mobjRights f h = false → exec e.1 s = d.nextIn w f 4 0 0)
              ∧ (e ∈ ms → s.mobjRights f h = true → s.mobjOf h = none → exec e.1 s = d.nextIn w f 3 0 0)
              ∧ (e ∈ fs → s.fenceRights f h = false → exec e.1 s = d.nextIn w f 4 0 0)
              ∧ (e ∈ fs → s.fenceRights f h = true → s.fenceOf h = none → exec e.1 s = d.nextIn w f 3 0 0)))

/-- Contexts and queues (R254 to R257, R262, R272, R276, R277, R378, R477). A create takes a free index and fills it from the arguments;
CTX_SET, CTX_EVRING and the queries do what their fields say; an abort discards the context's work, halts its queues with ABORTED and
leaves it LIVE with the next epoch; a destroy frees the context, at once or when its last memory object is reclaimed; a destroyed queue's
submissions are gone and its handle is free. Q_RESUME runs a halted queue again. -/
def Obligations.ContextCommands : Prop :=
  ∀ (s : State) (f : Nat) (a : Args), f < 128 → s.pwr.stop = 0 → s.barOf f = true →
    let a0 := a.a0.toNat
    let a1 := a.a1.toNat
    let c := bits a0 15 0
    let p := bits a0 25 21
    let asked := fun (op : Nat) => s.asked .ctx f op a
    let live := s.ctxRights f c false = true ∧ c ≠ 0 ∧ (s.ctx c).st = 1
    (∀ k, bits a0 31 27 = 0 → a0 < 2 ^ 48 → s.mayCmd f p false = true → bits a0 47 32 ≠ 0 → s.rd .PRT_STAT_state p ≠ 3 →
        s.ctxUse p < (s.part p).ctxQuota → (List.range 65535).find? (fun k => (s.ctx (k + 1)).st == 0) = some k →
        exec (.ctxCreate f a) s = ((asked 0x01).setCtx (k + 1) { Ctx.free with
          st := 1, epoch := (s.ctx (k + 1)).epoch, prt := p, pasid := bits a0 19 0, nopasid := bit a0 20, relaxed := bit a0 26,
          weight := bits a0 47 32, seed := a1, func := f }).nextIn .ctx f 0 (k + 1) 0)
      ∧ (a0 < 2 ^ 16 → s.ctxRights f a0 true = true → a0 ≠ 0 → (s.ctx a0).st = 1 ∨ (s.ctx a0).st = 2 →
        (∃ t : State, exec (.ctxAbort f a) s = t.nextIn .ctx f 0 0 0 ∧ (t.ctx a0).st = 1
            ∧ (t.ctx a0).epoch = ((s.ctx a0).epoch + 1) % 2 ^ 16
            ∧ (∀ q ∈ s.queuesOf a0, (t.queue q).halted = true ∧ (t.queue q).code = 15)
            ∧ (∀ g < 32, ∀ k, (s.gal g).task = some k → (s.sub k).ctx = a0 → (t.gal g).task = none))
          ∧ ∃ t : State, exec (.ctxDestroy f a) s = t.nextIn .ctx f 0 0 0
            ∧ (t.ctx a0).epoch = ((s.ctx a0).epoch + 1) % 2 ^ 16 ∧ (t.ctx a0).st = (if t.ownsMobj a0 then 4 else 0)
            ∧ (∀ q ∈ s.queuesOf a0, (t.queue q).live = false)
            ∧ (∀ g < 32, ∀ k, (s.gal g).task = some k → (s.sub k).ctx = a0 → (t.gal g).task = none))
      ∧ (live → bits a0 31 19 = 0 → a0 < 2 ^ 48 → (bit a0 17 = true → bits a0 47 32 ≠ 0) →
        exec (.ctxSet f a) s = ((asked 0x04).setCtx c { s.ctx c with
          seed := if bit a0 16 then a1 else (s.ctx c).seed, weight := if bit a0 17 then bits a0 47 32 else (s.ctx c).weight,
          flags := if bit a0 18 then 0 else (s.ctx c).flags }).nextIn .ctx f 0 0 0)
      ∧ (live → a0 < 2 ^ 33 → 6 ≤ bits a0 20 16 → bits a0 20 16 ≤ 16 → a1 % 4096 = 0 →
        exec (.ctxEvring f a) s = (((asked 0x05).setCtx c { s.ctx c with
          evEn := bit a0 32, evFunc := f, evVec := bits a0 31 21, evLog := bits a0 20 16, evBase := a1, evHead := 0, evTail := 0,
          evPass := 0, evSeq := 0 }).evFlush c).nextIn .ctx f 0 0 0)
      ∧ (a0 < 2 ^ 16 → s.ctxRights f a0 false = true → let x := s.ctx a0
        (x.st = 0 → exec (.ctxQuery f a) s = (asked 0x06).nextIn .ctx f 0 0 0)
          ∧ (x.st ≠ 0 → exec (.ctxQuery f a) s = (asked 0x06).nextIn .ctx f 0
              (x.st + x.code * 2 ^ 8 + x.epoch * 2 ^ 16 + x.flags * 2 ^ 32 + x.evLost * 2 ^ 40 + b2n x.acctSat * 2 ^ 63) x.acct))
      ∧ (live → a0 < 2 ^ 28 → 4 ≤ bits a0 24 20 → bits a0 24 20 ≤ 16 → a1 % 4096 = 0 → (bit a0 25 = true → a1 < 2 ^ 48) →
        s.slotQueue c (bits a0 19 16) = none → s.queueUse (s.ctx c).prt < (s.part (s.ctx c).prt).qQuota →
        (bit a0 26 = true → s.rd .DSP_STAT_pinned 0 < 1024) → (∃ i, 0 < i ∧ i < 2 ^ 18 ∧ (s.queue i).live = false) →
        ∃ (i : Nat) (t : State), i ≠ 0 ∧ i < 2 ^ 18 ∧ (s.queue i).live = false
          ∧ exec (.qCreate f a) s = t.nextIn .ctx f 0 (i + (s.queue i).gen * 2 ^ 18) 0
          ∧ t.queue i = { Queue.free with
              gen := (s.queue i).gen, live := true, ctx := c, slot := bits a0 19 16, log := bits a0 24 20, devmem := bit a0 25,
              pin := bit a0 26, held := bit a0 27, base := a1, cookie := a.a2.toNat, cached := bit a0 26 }
          ∧ (∀ j, j ≠ i → { t.queue j with cached := (s.queue j).cached } = s.queue j)
          ∧ (bit a0 26 = false → ∀ j, j ≠ i → t.queue j = s.queue j))
      ∧ ∀ q, a0 < 2 ^ 32 → s.queueOf a0 = some q →
        (s.queueRights f a0 true = true → ∃ t : State, exec (.qDestroy f a) s = t.nextIn .ctx f 0 0 0
            ∧ t.queue q = { Queue.free with gen := ((s.queue q).gen + 1) % 2 ^ 14 }
            ∧ (∀ k ∈ (s.queue q).subs, (t.sub k).stage = .none)
            ∧ (∀ g < 32, ∀ k ∈ (s.queue q).subs, (s.gal g).task = some k → (t.gal g).task = none))
          ∧ (s.queueRights f a0 false = true → exec (.qQuery f a) s = (asked 0x13).nextIn .ctx f 0
              ((s.queue q).head + (s.queue q).tail * 2 ^ 16
                + (if (s.queue q).halted then 1 else if (s.queue q).held then 2 else 0) * 2 ^ 32 + (s.queue q).code * 2 ^ 40) 0)
          ∧ (s.queueRights f a0 false = true → a1 < 2 → (s.ctx (s.queue q).ctx).st = 1 →
            let run := { s.queue q with halted := false, code := 0 }
            ((s.queue q).halted = false → exec (.qResume f a) s = (asked 0x12).nextIn .ctx f 0 0 0)
              ∧ ((s.queue q).halted = true → (s.queue q).subs = [] → a1 = 0 →
                exec (.qResume f a) s = ((asked 0x12).setQueue q run).nextIn .ctx f 0 0 0)
              ∧ (∀ k rest, (s.queue q).halted = true → (s.queue q).subs = k :: rest → (s.sub k).stage = .accepted → a1 = 1 →
                (∀ j ∈ rest, (s.sub j).stage ≠ .rejected) → (s.sub k).replaces = none → rest.Nodup → k ∉ rest →
                ∃ t : State, exec (.qResume f a) s = t.nextIn .ctx f 0 0 0 ∧ (t.sub k).stage = .none
                  ∧ (t.queue q).subs = rest ∧ (t.queue q).halted = false))

/-- Memory objects and fences (R267, R269 to R271). Retain and release count the host's references; at zero with no device reference
the object is reclaimed. A fence takes a greater value and none other; an error stays. Arming, queries and destroying do what their
fields say, and a destroyed index has the next generation. -/
def Obligations.ObjectCommands : Prop :=
  ∀ (s : State) (f : Nat) (a : Args), f < 128 → s.pwr.stop = 0 → s.barOf f = true →
    let a0 := a.a0.toNat
    let a1 := a.a1.toNat
    let c := bits a0 15 0
    let m := fun (op : Nat) => s.asked .ctx f op a
    let n := fun (op : Nat) => s.asked .fen f op a
    let live := s.ctxRights f c false = true ∧ c ≠ 0 ∧ (s.ctx c).st = 1
    (live → a0 < 2 ^ 17 → a1 % 2 ^ 16 = 0 → a1 < 2 ^ 48 → a.a2.toNat % 65536 = 0 →
        (∃ i, 0 < i ∧ i < 2 ^ 18 ∧ (s.mobj i).live = false) →
        ∃ i, i ≠ 0 ∧ i < 2 ^ 18 ∧ (s.mobj i).live = false ∧ exec (.mobjCreate f a) s =
          ((m 0x20).ticked.setMobj i ⟨(s.mobj i).gen, true, c, bit a0 16, a1, a.a2.toNat, a.a3.toNat, 1, 0⟩).nextIn .ctx f 0
            (i + (s.mobj i).gen * 2 ^ 18) 0)
      ∧ (∀ i, a0 < 2 ^ 32 → s.mobjRights f a0 = true → s.mobjOf a0 = some i → let x := s.mobj i
        (x.host = 0 → exec (.mobjRetain f a) s = (m 0x21).nextIn .ctx f 6 0 0 ∧ exec (.mobjRelease f a) s = (m 0x22).nextIn .ctx f 6 0 0)
          ∧ (0 < x.host → x.host < 2 ^ 32 - 1 →
            exec (.mobjRetain f a) s = ((m 0x21).setMobj i { x with host := x.host + 1 }).nextIn .ctx f 0 0 0)
          ∧ (x.host = 2 ^ 32 - 1 → exec (.mobjRetain f a) s = (m 0x21).nextIn .ctx f 16 0 0)
          ∧ (1 < x.host ∨ (x.host = 1 ∧ x.dev ≠ 0) →
            exec (.mobjRelease f a) s = ((m 0x22).setMobj i { x with host := x.host - 1 }).nextIn .ctx f 0 0 0)
          ∧ (x.host = 1 → x.dev = 0 → ∃ t : State, exec (.mobjRelease f a) s = t.nextIn .ctx f 0 0 0
            ∧ t.mobj i = { MObj.free with gen := (x.gen + 1) % 2 ^ 14 } ∧ ∀ j, j ≠ i → t.mobj j = s.mobj j)
          ∧ exec (.mobjQuery f a) s = (m 0x23).nextIn .ctx f 0 (x.host + x.dev * 2 ^ 32) (b2n (x.host == 0)))
      ∧ (a0 < 2 ^ 16 → live → s.fenceUse (s.ctx a0).prt < (s.part (s.ctx a0).prt).fenceQuota →
        (∃ i, 0 < i ∧ i < 2 ^ 20 ∧ (s.fence i).live = false) →
        ∃ i, i ≠ 0 ∧ i < 2 ^ 20 ∧ (s.fence i).live = false ∧ exec (.fenCreate f a) s =
          ((n 0x01).ticked.setFence i { Fence.free with gen := (s.fence i).gen, live := true, ctx := a0 }).nextIn .fen f 0
            (i + (s.fence i).gen * 2 ^ 20) 0)
      ∧ ∀ i, s.fenceRights f (bits a0 31 0) = true → s.fenceOf (bits a0 31 0) = some i → let x := s.fence i
        (a0 < 2 ^ 32 →
          (x.st = 2 → exec (.fenSignal f a) s = (n 0x02).nextIn .fen f 6 0 0 ∧ exec (.fenError f a) s = (n 0x03).nextIn .fen f 0 0 0)
            ∧ (x.st ≠ 2 → a1 ≤ x.value → exec (.fenSignal f a) s = (n 0x02).nextIn .fen f 8 0 0)
            ∧ (x.st ≠ 2 → x.value < a1 → ∃ t : State, exec (.fenSignal f a) s = t.nextIn .fen f 0 0 0
              ∧ (t.fence i).value = a1 ∧ (t.fence i).st = 1 ∧ (∀ j, j ≠ i → t.fence j = s.fence j)
              ∧ (x.mode = 0 → (∀ l ∈ s.flinks, l.fence ≠ i) → t = (n 0x02).setFence i { x with value := a1, st := 1 }))
            ∧ (x.st ≠ 2 → ∃ t : State, exec (.fenError f a) s = t.nextIn .fen f 0 0 0 ∧ t.fence i = { x with st := 2 }
              ∧ ∀ j, j ≠ i → t.fence j = s.fence j)
            ∧ exec (.fenQuery f a) s = (n 0x05).nextIn .fen f 0 x.st x.value
            ∧ ∃ t : State, exec (.fenDestroy f a) s = t.nextIn .fen f 0 0 0 ∧ t.fence i = { Fence.free with gen := (x.gen + 1) % 2 ^ 12 }
              ∧ (∀ j, j ≠ i → t.fence j = s.fence j) ∧ ∀ l ∈ t.flinks, l.fence ≠ i)
          ∧ (a0 < 2 ^ 34 → bits a0 33 32 ≠ 3 → exec (.fenArm f a) s =
            ((n 0x04).setFence i { x with mode := bits a0 33 32, cookie := a1, thr := a.a2.toNat }).nextIn .fen f 0 0 0)
          ∧ (a0 < 2 ^ 34 → bits a0 33 32 = 3 → exec (.fenArm f a) s = (n 0x04).nextIn .fen f 2 0 0)
/-- Portals and rings (R257 to R260, R263 to R266, R272, R278). A portal write that breaks a rule is counted and discarded under the first
cause that holds; an extension is buffered, a tail doorbell moves the tail, the event ring's head is moved, an inline descriptor is written
into its ring and read at once when nothing unread stands before it. A submission that is read passes the checks of acceptance, or halts
its queue with their code; a fetch that fails halts it with DMA. -/
def Obligations.Submissions : Prop :=
  ∀ (s : State), s.pwr.stop = 0 →
    (∀ (w : PortalReq) (i : Instr), w.func < 128 → i ∈ [.inlineDescriptor w, .extension w, .tailDoorbell w, .eventRingHead w] →
        let c := s.ctx w.ctx
        let k := if w.off < 0x800 then w.off / 0x80 else (w.off - 0x800) / 8
        let slot := s.slotQueue w.ctx k
        let width := if 0x880 = w.off then 8 else if w.off < 0x800 then (if w.off % 0x40 = 0 then 64 else 0) else if w.off % 8 = 0 then 8 else 0
        ((s.func w.func).d3 = true ∨ s.tdiError w.func = true → exec i s = .next s)
          ∧ ((s.func w.func).d3 = false → s.tdiError w.func = false →
            let bad := if w.ctx = 0 ∨ c.st ≠ 1 then some 0 else if w.func ≠ 0 ∧ (s.part c.prt).func ≠ w.func then some 1
              else if ¬ (w.pasid = some c.pasid ∨ (w.pasid = none ∧ c.nopasid = true)) then some 2 else if 0x880 < w.off then some 5
              else if w.off ≠ 0x880 ∧ slot = none then some 3 else if w.data.length ≠ width then some 4 else none
            (∀ n, bad = some n → exec i s = .next (s.portalDrop w n))
              ∧ (bad = none →
                (w.off < 0x800 → w.off % 0x80 = 0x40 → exec i s = .next (s.setCtx w.ctx { c with exts := c.exts.set [] k w.data }))
                  ∧ (w.off = 0x880 → exec i s = .next ((s.setCtx w.ctx { c with evHead := leNat (w.data.take 2) }).evFlush w.ctx))
                  ∧ ∀ q, slot = some q → (s.queue q).cached = true → let x := s.queue q
                    (0x800 ≤ w.off → w.off < 0x880 →
                      exec i s = .next (s.setQueue q { x with tail := leNat (w.data.take 2) % 2 ^ x.log }))
                      ∧ (w.off % 0x80 = 0 → w.off < 0x800 →
                        let u := s.count .DSP_INLINE_count .DSP_INLINE_ovf 0 1
                        let y := (s.ctx w.ctx).exts.get [] k
                        (dExt w.data = true → y = [] → exec i s = .next (u.haltQueue q 11 x.tail))
                          ∧ (dExt w.data = false → 2 ^ x.log ≤ x.ahead x.tail x.head + 1 → exec i s = .next (u.haltQueue q 10 x.tail))
                          ∧ (dExt w.data = false → x.ahead x.tail x.head + 1 < 2 ^ x.log → x.devmem = false → w.ctx = x.ctx →
                            let v := (u.hostWr (s.part c.prt).func c.dmaPasid (x.base + 64 * (x.tail % 2 ^ x.log)) w.data).modQueue q
                              (fun z => { z with tail := (x.tail + 1) % 2 ^ x.log })
                            exec i s = .next (if x.next = x.tail then v.readSub q w.data else v))))))
      ∧ ∀ (q : Nat), let x := s.queue q
        (x.live = false ∨ x.halted = true ∨ x.fetchable = 0 → ∀ l, exec (.ringFetch q l) s = .next s)
          ∧ (x.live = true → x.halted = false → x.fetchable ≠ 0 → x.devmem = false →
            let f := (s.part (s.ctx x.ctx).prt).func
            ((s.func f).d3 = true → ∀ l, exec (.ringFetch q l) s = .next s)
              ∧ ((s.func f).d3 = false → exec (.ringFetch q none) s = .next (s.haltQueue q 13 x.next))
              ∧ ((s.func f).d3 = false → s.tdiDrops f = false → ∀ d : List Byte, d.length = 64 → dExt d = false →
                let u := subOf q x.ctx (s.ctx x.ctx).prt x.next d
                let e := s.acceptCode u
                s.sub s.nextSub = .none → ∃ t : State, exec (.ringFetch q (some [d])) s = .next t ∧ t.nextSub = s.nextSub + 1
                  ∧ (t.queue q).next = (x.next + 1) % 2 ^ x.log ∧ (t.queue q).subs = x.subs ++ [s.nextSub]
                  ∧ (e = 0 → t.sub s.nextSub = { u with stage := .accepted } ∧ (t.queue q).halted = false)
                  ∧ (e ≠ 0 → t.sub s.nextSub = u ∧ (t.queue q).halted = true ∧ (t.queue q).code = e)))

/-- Start, placement and retirement (R243, R261, R269, R270, R304 to R310, R316). The next submission of a queue starts once its fence is
satisfied: a task becomes ready, a submission without one retires; one whose fence can never be satisfied is discarded and halts its queue.
Best-effort tasks are placed in their order on a free run; a latency-critical task takes a free run, or one whose best-effort tasks yield;
a suspended task goes back to its galleries, a parked one to any free run. A task that is complete with all its commands retires: its
fence is signalled and its counts are released. -/
def Obligations.Scheduling : Prop :=
  ∀ (s : State), s.pwr.stop = 0 →
    (∀ q, let x := s.queue q
        (x.live = false ∨ x.halted = true ∨ x.held = true ∨ s.nextStart none x.subs = none → exec (.descriptorStart q) s = .next s)
          ∧ ∀ k, x.live = true → x.halted = false → x.held = false → s.nextStart none x.subs = some k → let u := s.sub k
            (s.waitOn u.wfence u.wval = some false → exec (.descriptorStart q) s = .next s)
              ∧ (s.waitOn u.wfence u.wval = none → exec (.descriptorStart q) s = .next ((s.discardSub k).haltQueue u.q 9 u.ring))
              ∧ (s.waitOn u.wfence u.wval = some true → u.isTask = true → ∃ t : State, exec (.descriptorStart q) s = .next t
                ∧ t.sub k = { u with stage := .ready, seq := s.nextSeq } ∧ (∀ j, j ≠ k → t.sub j = s.sub j)
                ∧ (u.lc = true → t.ctxs = s.ctxs) ∧ { t with subs := s.subs, ctxs := s.ctxs, nextSeq := s.nextSeq } = s)
              ∧ (s.waitOn u.wfence u.wval = some true → u.isTask = false → exec (.descriptorStart q) s = .next (s.retireSub k)))
      ∧ (∀ k, let u := s.sub k
        (s.mayRetire k = false → exec (.retire k) s = .next s)
          ∧ (s.mayRetire k = true → ∃ t : State, exec (.retire k) s = .next t ∧ t = s.retireSub k ∧ (t.sub k).stage = .none
            ∧ (u.replaces = none → ∀ j, j ≠ k → t.sub j = s.sub j)
            ∧ (u.sfence = 0 → u.mobjs = [] → u.replaces = none → u.missed = false → t = s.dropSub k)
            ∧ (∀ i, u.sfence ≠ 0 → s.fenceOf u.sfence = some i → (s.fence i).st ≠ 2 → (s.fence i).value < u.sval → u.replaces = none →
                (t.fence i).value = u.sval ∧ (t.fence i).st = 1)))
      ∧ (∀ p < 32,
        (s.takesTasks p = false → exec (.bestEffortPlacement p) s = .next s ∧ exec (.latencyCriticalPlacement p) s = .next s)
          ∧ (s.flag .DSP_SCHED_orphan p = true → exec (.bestEffortPlacement p) s = .next s)
          ∧ (s.takesTasks p = true → s.flag .DSP_SCHED_orphan p = false → ∀ (pre : List Nat) (k : Nat) (rest r : List Nat),
            s.bestEffortOrder p = pre ++ k :: rest → (∀ j ∈ pre, s.freeRun (s.sub j) = none) → s.freeRun (s.sub k) = some r →
            (pre = [] ∨ s.flag .DSP_SCHED_backfill p = true → exec (.bestEffortPlacement p) s = .next (s.place k r))
              ∧ (pre ≠ [] → s.flag .DSP_SCHED_backfill p = false → exec (.bestEffortPlacement p) s = .next s))
          ∧ (s.takesTasks p = true → (s.criticalOrder p = [] → exec (.latencyCriticalPlacement p) s = .next s)
            ∧ ∀ k rest, s.criticalOrder p = k :: rest → let u := s.sub k
              (∀ r, s.freeRun u = some r → exec (.latencyCriticalPlacement p) s = .next (s.place k r))
                ∧ (∀ r, s.freeRun u = none → s.yieldRun u = some r → exec (.latencyCriticalPlacement p) s = .next ((s.clearRun r).place k r))
                ∧ (s.freeRun u = none → s.yieldRun u = none → exec (.latencyCriticalPlacement p) s = .next s)))
      ∧ (∀ k, let u := s.sub k
        let may := s.takesTasks u.prt = true ∧ (s.flag .DSP_SCHED_orphan u.prt = false ∨ u.lc = true)
        (¬ may → exec (.resume k) s = .next s)
          ∧ (may → u.stage = .suspended → s.mayResume k = true → exec (.resume k) s = .next (s.place k u.gals))
          ∧ (may → u.stage = .suspended → s.mayResume k = false → exec (.resume k) s = .next s)
          ∧ (may → u.stage = .parked → ∀ r, s.freeRun u = some r → exec (.resume k) s = .next ((s.place k r).showParked u.prt))
          ∧ (may → u.stage = .parked → s.freeRun u = none → exec (.resume k) s = .next s))
      ∧ ∀ (k : Nat) (r : List Nat), ((s.place k r).sub k).stage = .placed ∧ ((s.place k r).sub k).gals = r
        ∧ (s.place k r).out = s.out ++ r.map (fun g => .echo .dispatch 0xFF g k)
        ∧ (((s.sub k).lc = false → ((s.place k r).ctx (s.sub k).ctx).lastSlot = (s.queue (s.sub k).q).slot))
/-- Dirty logs, the aperture and functions (R253, R273 to R275, R278, R280). Only the physical function enables and swaps a log: the NEXT
buffer becomes active, and swapped shows when the old one is complete. The aperture reaches the memory of the partition that DSP_APR
names; what is refused reads zero and discards writes. A Function Level Reset destroys the function's contexts and clears its registers;
in D3hot interrupts and writes are held, and delivered on the return to D0. -/
def Obligations.FunctionsAndLogs : Prop :=
  ∀ (s : State), s.pwr.stop = 0 →
    (∀ (src : Src) (f p : Nat), src.ok = true → f < 128 → p < 32 →
        (¬ (src = .func 0 ∧ s.barOf 0 = true) →
            ∀ i ∈ [Instr.dlogSwap src f, .dlogEnable src f, .mlogSwap src p, .mlogEnable src p], exec i s = .next s)
          ∧ (src = .func 0 → s.barOf 0 = true →
            let d := s.wr .DSP_DLOG_BASE_addr f (s.rd .DSP_DLOG_NEXT_addr f)
            let m := s.wr .DSP_MLOG_BASE_addr p (s.rd .DSP_MLOG_NEXT_addr p)
            exec (.dlogSwap src f) s = .next (d.setFunc f { s.func f with dlOld := some (s.rd .DSP_DLOG_BASE_addr f) })
              ∧ exec (.mlogSwap src p) s = .next { m with mlSwap := if p ∈ s.mlSwap then s.mlSwap else s.mlSwap ++ [p] }
              ∧ (s.flag .DSP_DLOG_CTRL_en f = false → exec (.dlogEnable src f) s = .next (d.wr .DSP_DLOG_CTRL_en f 1))
              ∧ (s.flag .DSP_DLOG_CTRL_en f = true → exec (.dlogEnable src f) s = .next s)
              ∧ (s.flag .DSP_MLOG_BASE_en p = false → exec (.mlogEnable src p) s = .next (m.wr .DSP_MLOG_BASE_en p 1))
              ∧ (s.flag .DSP_MLOG_BASE_en p = true → exec (.mlogEnable src p) s = .next s)))
      ∧ (∀ j, (j ∈ s.mlSwap → exec (.swapped true j) s =
            .next ({ s with mlSwap := s.mlSwap.filter (· != j) }.wr .DSP_MLOG_CTRL_swapped j 1))
          ∧ (j ∉ s.mlSwap → exec (.swapped true j) s = .next s)
          ∧ ((s.func j).dlOld ≠ none → exec (.swapped false j) s =
            .next ((s.setFunc j { s.func j with dlOld := none }).wr .DSP_DLOG_CTRL_swapped j 1))
          ∧ ((s.func j).dlOld = none → exec (.swapped false j) s = .next s))
      ∧ (∀ (f off n : Nat) (b : List Byte), f < 128 →
        let p := s.rd .DSP_APR_prt f
        let ppa := s.rd .DSP_APR_base f * 2 ^ 30 + off
        let may := s.serves f p = true ∧ ¬ (s.confidential p = true ∧ f = 0)
        let zeros := Host.Outcome.next (s.emit (.reply [0] (List.replicate n 0#8)))
        (s.barOf f = false → ∀ w, exec (.deviceMemoryApertureAccess f off n w) s = .next s)
          ∧ (s.barOf f = true →
            (¬ may → exec (.deviceMemoryApertureAccess f off n none) s = zeros ∧ exec (.deviceMemoryApertureAccess f off n (some b)) s = .next s)
              ∧ (may → s.mapped p ppa n = false → exec (.deviceMemoryApertureAccess f off n none) s = zeros)
              ∧ (may → s.mapped p ppa b.length = false → exec (.deviceMemoryApertureAccess f off n (some b)) s = .next s)
              ∧ (may → s.mapped p ppa n = true → s.linesGood p ppa n false → ∃ t : State,
                exec (.deviceMemoryApertureAccess f off n none) s = .next t ∧ t.out = s.out ++ [.reply [0] (s.pmemRd p ppa n)]
                ∧ { t with out := s.out, ownCache := s.ownCache } = s)
              ∧ (may → s.mapped p ppa b.length = true → s.linesGood p ppa b.length true → ∃ t : State,
                exec (.deviceMemoryApertureAccess f off n (some b)) s = .next t ∧ t.pmemRd p ppa b.length = b ∧ t.out = s.out
                ∧ ∀ a, a < pmemKey p ppa ∨ pmemKey p ppa + b.length ≤ a → memGet t.pmem a = memGet s.pmem a)))
      ∧ (∀ f, f < 128 → f ≠ 0 → ∃ t : State, exec (.functionLevelReset f) s = .next t
        ∧ (∀ c, (s.ctx c).func = f → (s.ctx c).st = 1 ∨ (s.ctx c).st = 2 → (t.ctx c).st = 0 ∨ (t.ctx c).st = 4)
        ∧ (∀ c, (t.ctx c).st ≠ 0 → (t.ctx c).evFunc = f → (t.ctx c).evEn = false)
        ∧ (∀ r ∈ [Reg.DSP_APR, .DSP_DLOG_BASE, .DSP_DLOG_NEXT, .DSP_DLOG_CTRL, .XLT_IQ_BASE, .XLT_IQ_TAIL, .XLT_IQ_HEAD, .XLT_FR_BASE,
            .XLT_FR_TAIL, .XLT_FR_HEAD], ∀ x ∈ r.fields, t.rd x f = x.resetAt f)
        ∧ t.func f = .reset ∧ t.map = s.map)
      ∧ (∃ t : State, exec (.functionLevelReset 0) s = .next t ∧ exec .vfEnableClear s = .next s.flrVfs
        ∧ t = (s.flrVfs.flrCtxs 0).wr .RAS_EVQ_BASE_en 0 0 ∧ t.flag .RAS_EVQ_BASE_en 0 = false
        ∧ ∀ f, 0 < f → f < 128 → s.flrVfs.func f = .reset)
      ∧ ∀ f < 128,
        exec (.d3hotEntry f) s = .next (s.setFunc f { s.func f with d3 := true })
          ∧ ((s.func f).d3 = false → exec (.d0Return f) s = .next s)
          ∧ ((s.func f).d3 = true → (s.func f).held = [] → s.engs = [] →
            exec (.d0Return f) s = .next (s.setFunc f { s.func f with d3 := false, held := [] }))
          ∧ (∀ v w, (s.func f).d3 = true → (s.func f).held = [.msix v, .msix w] → s.engs = [] → ∃ t : State,
            exec (.d0Return f) s = .next t ∧ (t.func f).d3 = false ∧ (t.func f).held = [] ∧ t.out = s.out ++ [.msix f v, .msix f w])
          ∧ (∀ v, (s.func f).d3 = true → ((s.raise f v).func f).held = (s.func f).held ++ [.msix v] ∧ (s.raise f v).out = s.out)
-- Address translation -------------------------------------------------------------------------------------------------------

/-- The translation commands (R255, R282, R288 to R299, R476). SET_ROOT gives a context its root table; a window is made in a free entry,
closed with its generation advanced, and queried. The commands of an invalidation queue run one at a time, a failed check stops the queue,
WAIT writes its value, and each moves the head when it completes. A parked copy command posts its record, and its reply makes it translate
again or ends it; a stale reply is counted. -/
def Obligations.TranslationCommands : Prop :=
  ∀ (s : State) (f : Nat) (a : Args), f < 128 → s.pwr.stop = 0 →
    let a0 := a.a0.toNat
    let a1 := a.a1.toNat
    let a2 := a.a2.toNat
    let a3 := a.a3.toNat
    let c := bits a0 15 0
    let x := fun (op : Nat) => s.asked .xlt f op a
    let live := s.ctxRights f c false = true ∧ c ≠ 0 ∧ (s.ctx c).st = 1
    let room := s.winUse (s.ctx c).prt < (s.part (s.ctx c).prt).winQuota ∧ ∃ i, i < 4096 ∧ (s.win i).kind = 0
    let size := fun (n : Nat) => 65536 ≤ n ∧ n ≤ 2 ^ 32 ∧ n % 65536 = 0
    (s.barAll f = false → ∀ i ∈ [Instr.setRoot f a, .winExport f a, .winImport f a, .winClose f a, .winQuery f a], exec i s = .next s)
      ∧ (s.barAll f = true →
        (a0 < 2 ^ 16 → a1 % 4096 = 0 → a1 < 2 ^ 48 → live →
            exec (.setRoot f a) s = ((x 0x01).setCtx a0 { s.ctx a0 with root := some a1 }).nextIn .xlt f 0 0 0)
          ∧ (bits a0 31 21 = 0 → a0 < 2 ^ 37 → a1 % 65536 = 0 → a1 < 2 ^ 48 → size a2 → live → room → ∃ i, i < 4096 ∧ (s.win i).kind = 0
            ∧ exec (.winExport f a) s = ((x 0x10).ticked.setWin i { Win.free with
              gen := (s.win i).gen, kind := 1, ctx := c, rights := bits a0 20 16, peerPrt := bits a0 36 32, base := a1, size := a2,
              peer := a3 }).nextIn .xlt f 0 (i + (s.win i).gen * 2 ^ 16) 0)
          ∧ (bits a0 31 21 = 0 → a0 < 2 ^ 37 → bits a2 15 12 = 0 → a2 < 2 ^ 32 → size a3 → live → room → ∃ i, i < 4096 ∧ (s.win i).kind = 0
            ∧ exec (.winImport f a) s = ((x 0x11).ticked.setWin i { Win.free with
              gen := (s.win i).gen, kind := 2, ctx := c, rights := bits a0 20 16, peerPrt := bits a0 36 32, peer := a1,
              peerIdx := bits a2 11 0, peerGen := bits a2 31 16, size := a3 }).nextIn .xlt f 0 i 0)
          ∧ (a0 < 2 ^ 12 → s.winRights f a0 true = true → (s.win a0).kind ≠ 0 → ∃ t : State,
            exec (.winClose f a) s = t.nextIn .xlt f 0 0 0 ∧ t.win a0 = { Win.free with gen := ((s.win a0).gen + 1) % 2 ^ 16 }
            ∧ (∀ j, j ≠ a0 → t.win j = s.win j) ∧ (∀ l ∈ t.flinks, l.win ≠ a0)
            ∧ ((s.win a0).kind = 1 → t.out = s.out ++ [.link (s.routePort (s.ctx (s.win a0).ctx).prt (s.win a0).peer (s.win a0).peerPrt)
                .revoke [(s.win a0).peer, (s.win a0).peerPrt, a0, (s.win a0).gen] []]))
          ∧ (a0 < 2 ^ 12 → s.winRights f a0 false = true → exec (.winQuery f a) s = (x 0x13).nextIn .xlt f 0
            ((s.win a0).kind + (s.win a0).ctx * 2 ^ 2 + (s.win a0).gen * 2 ^ 18) (s.win a0).arrivals))
      ∧ (∀ (src : Src) (v : Nat), src.ok = true →
        (src = .func f → s.barAll f = true → exec (.xltIqTail src f v) s = .next (s.wr .XLT_IQ_TAIL_idx f v)
            ∧ exec (.xltIqStatErrClear src f) s = .next (s.wr .XLT_IQ_STAT_err f 0)
            ∧ exec (.xltFrHead src f v) s = .next (s.wr .XLT_FR_HEAD_idx f v))
          ∧ (src ≠ .func f ∨ s.barAll f = false → ∀ i ∈ [Instr.xltIqTail src f v, .xltIqStatErrClear src f, .xltFrHead src f v],
            exec i s = .next s))
      ∧ (∀ y : IqCmd, let n := 2 ^ s.rd .XLT_IQ_BASE_size f
        let head := (s.rd .XLT_IQ_HEAD_idx f + 1) % n
        let run := fun (op : Nat) => Host.Outcome.next (s.setFunc f { s.func f with iqCur := some (op, y) })
        let stops := fun (k : Nat) => Host.Outcome.next ((s.wr .XLT_IQ_STAT_err f 1).wr .XLT_IQ_STAT_code f k)
        let ok := y.iflags < 2 ∧ y.rsv = 0
        let named := s.ctxExists y.ctx = true ∧ s.serves f (s.ctx y.ctx).prt = true
        (s.iqReady f = false → ∀ i ∈ [Instr.invVa f y, .invCtx f y, .invFunc f y, .wait f y, .faultReply f y], exec i s = .next s)
          ∧ (s.iqReady f = true →
            (¬ ok → ∀ i ∈ [Instr.invVa f y, .invCtx f y, .invFunc f y, .wait f y], exec i s = stops 1)
              ∧ (ok → (s.ctx y.ctx).st ≠ 0 → s.serves f (s.ctx y.ctx).prt = false → ∀ i ∈ [Instr.invVa f y, .invCtx f y], exec i s = stops 4)
              ∧ (ok → (s.ctx y.ctx).st = 0 → ∀ i ∈ [Instr.invVa f y, .invCtx f y], exec i s = stops 3)
              ∧ (ok → named → y.count ≠ 0 → y.addr % 65536 = 0 → exec (.invVa f y) s = run 1)
              ∧ (ok → named → y.count = 0 ∨ y.addr % 65536 ≠ 0 → exec (.invVa f y) s = stops 2)
              ∧ (ok → named → exec (.invCtx f y) s = run 2) ∧ (ok → exec (.invFunc f y) s = run 3)
              ∧ (ok → y.addr % 8 ≠ 0 → exec (.wait f y) s = stops 2)
              ∧ (ok → y.addr % 8 = 0 → ∃ t : State, exec (.wait f y) s = .next t ∧ t.rd .XLT_IQ_HEAD_idx f = head % 2 ^ 12
                ∧ (s.tdiDrops f = false → s.flag .DSP_DLOG_CTRL_en f = false → t.host = memWrite s.host (hostKey none y.addr) (natLe 8 y.value.toNat))
                ∧ t.out = s.out ++ (if bit y.iflags 0 then [.msix f (s.rd .XLT_IQ_BASE_vec f)] else []))
              ∧ (ok → named → bits y.count 31 9 = 0 → y.addr < 2 ^ 16 → let k := tagKey (bits y.count 5 0)
                (s.replyStale k y.addr y.ctx = true → exec (.faultReply f y) s = .next ((s.countSat .XLT_FR_STALE_count f 1).iqDone f))
                  ∧ (s.replyStale k y.addr y.ctx = false → bit y.count 8 = true → exec (.faultReply f y) s = .next ((s.abortCopy k).iqDone f))
                  ∧ (s.replyStale k y.addr y.ctx = false → bit y.count 8 = false →
                    exec (.faultReply f y) s = .next ((s.unpark (k / 16) (k % 16)).iqDone f)))))
      ∧ ((s.func f).iqCur = none → exec (.invalidationComplete f) s = .next s)
      ∧ ((s.func f).iqCur ≠ none → exec (.invalidationComplete f) s = .next ((s.setFunc f { s.func f with iqCur := none }).wr
          .XLT_IQ_HEAD_idx f ((s.rd .XLT_IQ_HEAD_idx f + 1) % 2 ^ s.rd .XLT_IQ_BASE_size f)))
      ∧ (∀ addr len, exec (.atsInvalidation f addr len) s = .next (s.emit (.reply [f, addr, len] [])))
      ∧ ∀ g e, g < 32 → e < 9 → let k := engKey g e
        (∀ i ∈ [Instr.priResponse g e true, .priResponse g e false, .priTimeout g e], (s.eng k).parked = none → exec i s = .next s)
          ∧ (∀ y cap, (s.eng k).cur = some cap → (s.eng k).parked = some y → let prt := (s.ctx cap.2.1.ctx).prt
            (6 ≤ e → e ≤ 7 → y.posted = false → y.pri = false → s.frRoom (s.part prt).func = true → s.recStopped prt = false →
                exec (.faultRecordPost g e) s = .next (s.postRecord k y cap.2.1)
                  ∧ ((s.postRecord k y cap.2.1).eng k).parked = some { y with posted := true }
                  ∧ (s.postRecord k y cap.2.1).rd .XLT_FR_TAIL_idx (s.part prt).func =
                    (s.rd .XLT_FR_TAIL_idx (s.part prt).func + 1) % 2 ^ s.rd .XLT_FR_BASE_size (s.part prt).func % 2 ^ 12)
              ∧ (y.posted = true ∨ y.pri = true ∨ s.frRoom (s.part prt).func = false ∨ s.recStopped prt = true →
                exec (.faultRecordPost g e) s = .next s)
              ∧ (y.pri = true → exec (.priResponse g e true) s = .next (s.unpark g e)
                ∧ ∀ i ∈ [Instr.priResponse g e false, .priTimeout g e], exec i s = .next (s.setEng k { s.eng k with
                    parked := some { y with pri := false, cause := 1, level := 0xFF } })))
-- Programs, deadlines, regulation --------------------------------------------------------------------------------------------

/-- The program commands (R300 to R302). A registered image passes its checks and takes the fields of its header; a load copies code and
data to the pool of each gallery named, which then holds the program; an unload takes it off; an unregister frees a slot that nothing in
the queues names, and advances its generation. -/
def Obligations.ProgramCommands : Prop :=
  ∀ (s : State) (src : Src) (p : Nat) (a : Args), src.ok = true → p < 32 → s.pwr.stop = 0 →
    let a0 := a.a0.toNat
    let a1 := a.a1.toNat
    let a2 := a.a2.toNat
    let k := p * 256 + a0
    let pr := s.prog k
    let x := fun (op : Nat) => s.asked .prog p op a
    let slots := [(Instr.progLoad src p a, 2), (.progUnload src p a, 3), (.progUnreg src p a, 4), (.progQuery src p a, 5)]
    let mask := (List.range 32).filter (fun g => a2.testBit g)
    (s.reachesPrt src p = false → ∀ i ∈ .progReg src p a :: slots.map (·.1), exec i s = .next s)
      ∧ (s.reachesPrt src p = true →
        (256 ≤ a0 → exec (.progReg src p a) s = (x 1).nextIn .prog p 1 0 0 ∧ ∀ e ∈ slots, exec e.1 s = (x e.2).nextIn .prog p 1 0 0)
          ∧ (a0 < 256 → a2 < 2 ^ 32 → pr.reg = false → ∀ e ∈ slots, exec e.1 s = (x e.2).nextIn .prog p 3 0 0)
          ∧ (a0 < 256 → a1 % 128 = 0 → a1 < 2 ^ 48 → ∀ (u : State),
            ((x 1).readImage p a1 = (none, u) → exec (.progReg src p a) s = u.nextIn .prog p 2 0 0)
              ∧ ∀ img : List Byte, (x 1).readImage p a1 = (some img, u) → u.progs = s.progs →
                let ok := imgOk img (u.part p).hum (u.rd .DEV_COMPAT_LEVEL_level 0)
                (ok = false → exec (.progReg src p a) s = u.nextIn .prog p 2 0 0)
                  ∧ (ok = true → pr.reg = true → exec (.progReg src p a) s = u.nextIn .prog p 6 0 0)
                  ∧ (ok = true → pr.reg = false → ∃ t : State, exec (.progReg src p a) s =
                      t.nextIn .prog p 0 (a0 + pr.gen * 2 ^ 16 + imgYmax img % 2 ^ 16 * 2 ^ 32) 0
                    ∧ (let y := t.prog k
                      y.reg = true ∧ y.gen = pr.gen ∧ y.image = a1 ∧ y.codeOff = fieldAt img 0x10 4 ∧ y.codeSize = fieldAt img 0x14 4
                        ∧ y.dataOff = fieldAt img 0x18 4 ∧ y.dataSize = fieldAt img 0x1C 4 ∧ y.span = fieldAt img 0x0C 1
                        ∧ y.base = fieldAt img 0x20 4 ∧ y.size = fieldAt img 0x24 4 ∧ y.entry = fieldAt img 0x28 4
                        ∧ y.save = fieldAt img 0x2C 4 ∧ y.replay = bit (fieldAt img 0x0D 1) 0 ∧ y.resident = [] ∧ y.loading = [])
                    ∧ (∀ j, j ≠ k → t.prog j = s.prog j) ∧ { t with progs := u.progs } = u))
          ∧ (a0 < 256 → pr.reg = true →
            (a2 < 2 ^ 32 → (∃ g ∈ mask, g ∉ (s.part p).slices) → exec (.progLoad src p a) s = (x 2).nextIn .prog p 2 0 0)
              ∧ (a2 < 2 ^ 32 → (∀ g ∈ mask, g ∈ (s.part p).slices) → exec (.progLoad src p a) s = ((x 2).setProg k { pr with
                loading := pr.loading ++ mask.filter (fun g => !pr.loading.contains g) }).nextIn .prog p 0 0 0)
              ∧ (a2 < 2 ^ 32 → exec (.progUnload src p a) s = ((x 3).setProg k { pr with
                resident := pr.resident.filter (fun g => !a2.testBit g),
                loading := pr.loading.filter (fun g => !a2.testBit g) }).nextIn .prog p 0 0 0)
              ∧ (s.progInUse p a0 = true → exec (.progUnreg src p a) s = (x 4).nextIn .prog p 6 0 0)
              ∧ (s.progInUse p a0 = false → exec (.progUnreg src p a) s =
                ((x 4).setProg k { Prog.free with gen := (pr.gen + 1) % 2 ^ 16 }).nextIn .prog p 0 0 0)
              ∧ exec (.progQuery src p a) s = (x 5).nextIn .prog p 0
                (pr.resident.foldl (fun m g => m + 2 ^ g) 0 + pr.span * 2 ^ 32 + b2n pr.replay * 2 ^ 40) 0))
      ∧ ∀ slot g, slot < 256 → g < 32 → let y := s.prog (p * 256 + slot)
        (g ∉ y.loading ∨ s.windowTaken g y = true → exec (.progLoadCopyDone p slot g) s = .next s)
          ∧ (g ∈ y.loading → s.windowTaken g y = false → s.flag .MEM_PRT_OWN_en p = false →
            s.mapped p (y.image + y.codeOff) y.codeSize = true → s.linesGood p (y.image + y.codeOff) y.codeSize false →
            s.mapped p (y.image + y.dataOff) y.dataSize = true → s.linesGood p (y.image + y.dataOff) y.dataSize false →
            s.poolQuiet g → ∃ t : State, exec (.progLoadCopyDone p slot g) s = .next t
              ∧ t.pool = memWrite s.pool (poolKey g y.base) (s.pmemRd p (y.image + y.codeOff) y.codeSize ++ s.pmemRd p (y.image + y.dataOff) y.dataSize)
              ∧ g ∈ (t.prog (p * 256 + slot)).resident ∧ g ∉ (t.prog (p * 256 + slot)).loading
              ∧ { t with pool := s.pool, progs := s.progs } = s)

/-- Deadlines and regulation (R314 to R317, R319 to R321). A deadline that passes is counted and recorded once; a submission that has not
started is discarded and its queue halts with DEADLINE, one that has started runs on and is marked, one with a fallback waiting is
replaced by it, ahead of all others. The deadline counter wraps and says so. A port's latency average sets its class's level and, over
its target, the miss flag; a bucket takes 1,000 L bytes and holds at most four refills. -/
def Obligations.DeadlinesAndRegulation : Prop :=
  ∀ (s : State), s.pwr.stop = 0 →
    (∀ k, let u := s.sub k
        let due := ∃ d, u.deadline = some d ∧ passed (s.rd .DSP_DLCNT_count u.prt) d = true
        let counts := due ∧ u.missed = false ∧ u.stage ≠ .none ∧ u.stage ≠ .rejected ∧ u.stage ≠ .replaced
        let wants := decide (u.fallback ≠ 0) && u.replaces.isNone
        (¬ counts → exec (.deadlineMiss k) s = .next s)
          ∧ (counts → wants = false ∨ s.fallbackOf u = none → ∃ t : State, exec (.deadlineMiss k) s = .next t
            ∧ t.rd .DSP_DL_MISS_count u.prt = (s.rd .DSP_DL_MISS_count u.prt + 1) % 2 ^ 48
            ∧ (s.flag .DSP_DL_LAST_valid u.prt = false → t.flag .DSP_DL_LAST_valid u.prt = true
              ∧ t.rd .DSP_DL_LAST_ctx u.prt = u.ctx % 2 ^ 16 ∧ t.flag .DSP_DL_LAST_fb_empty u.prt = wants)
            ∧ (u.stage.started = true → t.sub k = { u with missed := true })
            ∧ (u.stage.started = false → (t.sub k).stage = .none ∧ (t.queue u.q).halted = true ∧ (t.queue u.q).code = 17))
          ∧ (∀ f, counts → wants = true → s.fallbackOf u = some f → f ≠ k →
            exec (.deadlineMiss k) s = .next ((s.recordMiss k true false).dispatchFallback k f)
              ∧ (let t := (s.recordMiss k true false).dispatchFallback k f
                (t.sub k).replacedBy = some f ∧ (t.sub k).missed = true ∧ (t.sub f).lc = true ∧ (t.sub f).replaces = some k
                  ∧ (t.sub f).stage = (if (s.sub f).isTask then .ready else .complete)
                  ∧ (u.stage.started = false → (t.sub k).stage = .replaced))))
      ∧ ∀ p < 32,
        ((s.part p).defined = false → exec (.deadlineCounterWrap p) s = .next s)
          ∧ ((s.part p).defined = true → let w := (s.wr .DSP_DLCNT_count p 0).wr .DSP_DLCNT_ovf p 1
            exec (.deadlineCounterWrap p) s = .next (if s.flag .DSP_DL_CTRL_ovf_ie p then w.raise (s.part p).func (s.rd .DSP_DL_CTRL_vec p) else w))
          ∧ ∀ cls port ns,
            ((s.part p).defined = false ∨ 4 ≤ cls → exec (.latencyUpdate p cls port ns) s = .next s ∧ exec (.bucketRefill p cls port) s = .next s)
              ∧ ((s.part p).defined = true → cls < 4 → port < 32 →
                let target := (s.part p).targets.getD cls 0
                let limit := (s.part p).limits.getD cls 0
                let key := p * 1024 + cls * 256 + port
                (∃ t : State, exec (.latencyUpdate p cls port ns) s = .next t ∧ t.lats = s.lats.set 0 key ns
                    ∧ (let high := t.regHigh p cls
                      t.rd .DSP_REG_LAT_ns (4 * p + cls) = min high 65535
                        ∧ bits (t.rd .DSP_REG_STAT_lvl p) (2 * cls + 1) (2 * cls) = (if target = 0 then 0 else if 90 * target ≤ 100 * high then 3
                          else if 75 * target ≤ 100 * high then 2 else if 50 * target ≤ 100 * high then 1 else 0)
                        ∧ bit (t.rd .DSP_REG_STAT_miss p) cls = (bit (s.rd .DSP_REG_STAT_miss p) cls || (decide (target ≠ 0) && decide (target < ns)))))
                  ∧ (limit = 0 → exec (.bucketRefill p cls port) s = .next s)
                  ∧ (limit ≠ 0 → exec (.bucketRefill p cls port) s =
                    .next { s with tokens := s.tokens.set 0 key (min (s.tokens.get 0 key + limit * 1000) (4 * limit * 1000)) }))
-- Huaton --------------------------------------------------------------------------------------------------------------------

/-- The link layer (R324, R327 to R332, R349). Negotiation takes the lowest rank both ends have with lanes for it, or fails; a trained link
comes up at its rank; a lost lane retrains; a link that goes down cuts its link layer and moves its traffic. The flit expected is accepted
and acknowledged; any other asks once for a replay. Acknowledgements and credits let waiting packets out; a replay goes back, and after
eight of one flit the link goes down. Ethernet ports answer for their own address. -/
def Obligations.LinkLayer : Prop :=
  ∀ (s : State) (n : Nat), n < 32 → s.pwr.stop = 0 →
    let st := s.rd .HTN_PORT_STAT_state n
    let x := s.port n
    let up := s.linkUp n = true
    let nat := s.native n = true
    (∀ src : Src, src.ok = true →
        let may := s.phySrc src n = true ∧ s.flag .HTN_PORT_CTRL_en n = true
        let d := s.goDown n 1
        (may → exec (.renego src n) s = .next (d.wr .HTN_AN_ADV_ability n (d.ability n))
            ∧ (d.wr .HTN_AN_ADV_ability n (d.ability n)).rd .HTN_PORT_STAT_state n = 1)
          ∧ (¬ may → exec (.renego src n) s = .next s))
      ∧ (∀ ab eth, (s.flag .HTN_PORT_CTRL_en n = false ∨ st ≠ 1 → exec (.autoNegotiation n ab eth) s = .next s)
        ∧ (s.flag .HTN_PORT_CTRL_en n = true → st = 1 → ∃ t u : State, exec (.autoNegotiation n ab eth) s = .next t
          ∧ u = ((s.wr .HTN_AN_ADV_ability n (s.ability n)).wr .HTN_AN_LP_ability n ab).setPort n { x with lpEth := eth, failed := 0 }
          ∧ (∀ r, u.commonRank n = some r → t.rd .HTN_PORT_STAT_state n = 2 ∧ t.rd .HTN_PORT_STAT_rank n = r
            ∧ some (t.rd .HTN_PORT_STAT_lanes n) = laneSet r (u.availLanes n r)
            ∧ ∀ q, 1 ≤ q → q < r → (s.rd .HTN_PORT_CTRL_ranks n).testBit (q - 1) = true →
              (if rankEth q then eth.testBit q else ab.testBit (rankBit q)) = false ∨ laneSet q (u.availLanes n q) = none)
          ∧ (u.commonRank n = none → t.rd .HTN_PORT_STAT_state n = 5 ∧ t.rd .HTN_PORT_STAT_rank n = 0)))
      ∧ (∀ lanes, let r := s.rd .HTN_PORT_STAT_rank n
        (st ≠ 2 → exec (.linkUp n lanes) s = .next s)
          ∧ (∀ m, st = 2 → laneSet r (s.availLanes n r &&& lanes) = some m → s.prtOf n = none → ∃ t : State,
            exec (.linkUp n lanes) s = .next t ∧ t.rd .HTN_PORT_STAT_state n = (if (s.sessOn n).isEmpty then 3 else 4)
            ∧ t.rd .HTN_PORT_STAT_lanes n = m % 16 ∧ t.flag .HTN_PORT_STAT_eth n = rankEth r
            ∧ t.rd .HTN_TMR_req n = (if rankEth r then 50 else 5) ∧ t.rd .HTN_TMR_rto n = (if rankEth r then 100 else 8)
            ∧ (t.port n).txq = x.txq ∧ (t.port n).txSeq = 0 ∧ (t.port n).rxSeq = 0)
          ∧ (∀ m p, st = 2 → laneSet r (s.availLanes n r &&& lanes) = some m → s.prtOf n = some p → exec (.linkUp n lanes) s = .next (s.goUp n r m))
          ∧ (st = 2 → laneSet r (s.availLanes n r &&& lanes) = none → exec (.linkUp n lanes) s =
            .next ((s.setPort n { x with failed := x.failed ||| (15 ^^^ (lanes % 16)) }).chooseRank n)))
      ∧ (∀ lane < 4, let lost := up ∧ nat ∧ (s.rd .HTN_PORT_STAT_lanes n).testBit lane = true
        (¬ lost → exec (.laneLoss n lane) s = .next s)
          ∧ (lost → let d := s.goDown n 2
            exec (.laneLoss n lane) s = .next (((d.setPort n { d.port n with failed := 2 ^ lane }).chooseRank n).portFault n 9)))
      ∧ (¬ up → exec (.linkDown n) s = .next s)
      ∧ (up → exec (.linkDown n) s = .next ((s.goDown n 1).portFault n 10)
        ∧ ((s.goDown n 1).rd .HTN_PORT_STAT_state n = 1 ∧ (s.goDown n 1).flag .HTN_PORT_STAT_down n = true
          ∧ (s.goDown n 1).rd .HTN_PORT_STAT_lanes n = 0))
      ∧ (¬ (up ∧ nat) → ∀ f a cr q, exec (.payloadFlit n f) s = .next s ∧ exec (.controlFlit n a cr) s = .next s
        ∧ exec (.replayRequest n q) s = .next s)
      ∧ (up → nat →
        (∀ f : Flit, (f.ok = true → f.seq = x.rxSeq → exec (.payloadFlit n f) s = .next ((s.flitIn n f).sendControl n [0, 0, 0, 0])
              ∧ ((s.flitIn n f).port n).rxSeq = (x.rxSeq + 1) % 2048 ∧ ((s.flitIn n f).port n).discarding = false)
            ∧ (f.ok = true → f.seq ≠ x.rxSeq → x.discarding = true → exec (.payloadFlit n f) s = .next s)
            ∧ (f.ok = true → f.seq ≠ x.rxSeq → x.discarding = false →
              exec (.payloadFlit n f) s = .next ((s.setPort n { x with discarding := true }).emit (.link n .replayRequest [x.rxSeq] [])))
            ∧ (f.ok = false → let u := s.count .HTN_FEC_UE_count .HTN_FEC_UE_ovf n 1
              exec (.payloadFlit n f) s = .next (if x.discarding then u
                else (u.setPort n { x with discarding := true }).emit (.link n .replayRequest [x.rxSeq] []))))
          ∧ (∀ a cr, let moved := 0 < (a + 2048 - x.ackSeq) % 2048 ∧ (a + 2048 - x.ackSeq) % 2048 ≤ (x.txSeq + 2048 - x.ackSeq) % 2048
            x.txq = [] → exec (.controlFlit n a cr) s = .next (s.setPort n { x with
              ackSeq := if moved then a % 2048 else x.ackSeq, replays := if moved then 0 else x.replays,
              credits := (List.range 4).map (fun k => x.credits.getD k 0 + cr.getD k 0) }))
          ∧ (∀ cr vc fl o, x.txq = [(vc, fl, o)] → x.ackSeq < 2048 → fl ≤ x.credits.getD vc 0 + cr.getD vc 0 → vc < 4 →
            (x.txSeq + 2048 - x.ackSeq) % 2048 + fl ≤ 1024 → ∃ t : State, exec (.controlFlit n x.ackSeq cr) s = .next t
              ∧ t.out = s.out ++ [o] ∧ (t.port n).txq = [] ∧ (t.port n).txSeq = (x.txSeq + fl) % 2048)
          ∧ ∀ q, let back := (q + 2048 - x.ackSeq) % 2048
            let cnt := if x.replayOf = q then x.replays + 1 else 1
            ((x.txSeq + 2048 - x.ackSeq) % 2048 ≤ back → exec (.replayRequest n q) s = .next s)
              ∧ (back < (x.txSeq + 2048 - x.ackSeq) % 2048 →
                (8 < cnt → exec (.replayRequest n q) s = .next ((s.goDown n 1).portFault n 10))
                  ∧ (cnt ≤ 8 → exec (.replayRequest n q) s = .next (((s.setPort n { x with ackSeq := q % 2048, replays := cnt, replayOf := q }).count
                      .HTN_LINK_RETRY_count .HTN_LINK_RETRY_ovf n 1).emit (.link n .replay [q, x.txSeq] [])))))
      ∧ ∀ ip, let v6 := s.flag .HTN_ETH_CFG_ipv6 n
        let mine4 := up ∧ ¬ nat ∧ v6 = false ∧ ip = s.rd .HTN_ETH_IP0_value n % 2 ^ 32
        let mine6 := up ∧ ¬ nat ∧ v6 = true ∧ ip = s.rd .HTN_ETH_IP0_value n + s.rd .HTN_ETH_IP1_value n * 2 ^ 64
        (mine4 → exec (.arpRequest n ip) s = .next (s.emit (.link n .arpReply [ip, s.rd .HTN_ETH_MAC_mac n] [])))
          ∧ (¬ mine4 → exec (.arpRequest n ip) s = .next s)
          ∧ (mine6 → exec (.neighbourSolicitation n ip) s = .next (s.emit (.link n .neighbourAdvert [ip, s.rd .HTN_ETH_MAC_mac n] [])))
          ∧ (¬ mine6 → exec (.neighbourSolicitation n ip) s = .next s)

/-- Transactions (R335 to R344). Acknowledged packets are forgotten, named ones sent again; a request without its response in time is
reissued, then fails. An arrival with a stale packet number is dropped; one of another generation is answered MOVED, a malformed one BAD, a
rid applied before from its mark; else its effect is made once, marked, and answered OK, or refused with WINDOW, POISON or FENCE. A response
goes to the request that waits for it. -/
def Obligations.Transactions : Prop :=
  ∀ (s : State) (n ses : Nat) (t : Txn), n < 32 → s.pwr.stop = 0 →
    let x := s.sess ses
    let d := s.deliverPacket n
    let u := (d.takePsn n ses t.psn).2
    let fresh := (d.takePsn n ses t.psn).1
    let rdLen := t.arg % 2 ^ 32
    let aop := txnAtomicOp (t.arg % 256)
    let all : List (Nat × Instr × Bool) := [(1, .write n ses t, t.arg == 0),
      (2, .read n ses t, decide (1 ≤ rdLen) && decide (rdLen ≤ x.maxdata)),
      (3, .atomic n ses t, decide (t.arg % 256 < 4) && t.data.length == 8 && t.offset % atomicSize aop == 0),
      (4, .reduceTransaction n ses t, decide (t.arg < 2 ^ 32) && t.offset % 128 == 0), (5, .message n ses t, decide (t.arg < 2)),
      (6, .fenceSignal n ses t, true), (7, .revoke n ses t, t.arg == 0)]
    let ok := fun (op : Nat) (old : Option Nat) (b : List Byte) (v : State) =>
      Host.Outcome.next ((v.markRid ses t.rid op old).respond n ses op t 0 0 b)
    let refused := fun (op : Nat) => Host.Outcome.next ((u.winRefuse n ses t.widx).s.respond n ses op t 1 0 [])
    (∀ psn bm, exec (.ack ses psn bm) s = .next (s.setSess ses { x with unacked := x.unacked.filter (fun p =>
        !(lt32 p.psn psn) && !((List.range 64).any (fun k => bm.testBit k && p.psn == (psn + 1 + k) % 2 ^ 32))) }))
      ∧ (∀ p cnt, x.unacked = [p] → (p.psn + 2 ^ 32 - t.psn % 2 ^ 32) % 2 ^ 32 < cnt → exec (.nak ses t.psn cnt) s = .next (s.resend ses p.psn))
      ∧ (∀ psn, exec (.retransmissionTime ses psn) s = .next (s.resend ses psn))
      ∧ (∀ psn p m, x.unacked.find? (fun p => p.psn == psn) = some p → m = s.choosePort x.ports (vcOf p.kind) (some p.port) → m < 32 →
        (s.resend ses psn).rd .HTN_TP_RETX_count m = (s.rd .HTN_TP_RETX_count m + 1) % 2 ^ 48
          ∧ (s.native m = false → (s.resend ses psn).out = s.out ++ [.link m p.kind ([x.dsess, p.psn, x.rxNext, x.phase] ++ p.vals) p.data]))
      ∧ (let h := s.homePort x
        let bits_ := (List.range 64).foldl (fun a k => if x.rxSet.contains ((x.rxNext + 1 + k) % 2 ^ 32) then a + 2 ^ k else a) 0
        let gap := x.rxSet.foldl (fun a q => min a ((q + 2 ^ 32 - x.rxNext) % 2 ^ 32)) 65536
        (x.st = 2 → exec (.ackCoalescing ses) s = .next (s.onPort h 3 1 (.link h .ack [x.dsess, x.rxNext, bits_] [])))
          ∧ (x.st ≠ 2 → exec (.ackCoalescing ses) s = .next s)
          ∧ (x.st = 2 → x.rxSet ≠ [] → exec (.nakDelay ses) s = .next (s.onPort h 3 1 (.link h .nak [x.dsess, x.rxNext, gap] [])))
          ∧ (x.st ≠ 2 ∨ x.rxSet = [] → exec (.nakDelay ses) s = .next s)
          ∧ (s.openReq ses t.rid = none → exec (.requestTime ses t.rid) s = .next s)
          ∧ ∀ r, s.openReq ses t.rid = some r → let c := s.count .HTN_TP_TIMEOUT_count .HTN_TP_TIMEOUT_ovf h 1
            exec (.requestTime ses t.rid) s = .next (if r.reissues < s.rd .HTN_TMR_reissues h
              then (c.modReq ses t.rid (fun q => { q with reissues := q.reissues + 1 })).reissue ses r
              else (c.failReq ses r 0).issueReqs))
      ∧ (∀ e ∈ all,
        (t.resp = true → exec e.2.1 s = .next d)
          ∧ (t.resp = false → x.st ≠ 2 → exec e.2.1 s = .next (d.moved n ses e.1 t))
          ∧ (t.resp = false → x.st = 2 → fresh = false → exec e.2.1 s = .next u)
          ∧ (t.resp = false → x.st = 2 → fresh = true →
            (s.prtOf n ≠ some x.prt ∨ s.genOk t.gen16 = false → exec e.2.1 s = .next (u.moved n ses e.1 t))
              ∧ (s.prtOf n = some x.prt → s.genOk t.gen16 = true →
                (t.rsv ≠ 0 ∨ e.2.2 = false ∨ x.maxdata < t.data.length → exec e.2.1 s = .next (u.respond n ses e.1 t 5 0 []))
                  ∧ (t.rsv = 0 → e.2.2 = true → t.data.length ≤ x.maxdata →
                    (x.ridState t.rid = .stale → exec e.2.1 s = .next (u.count .HTN_TP_STALE_count .HTN_TP_STALE_ovf (s.homePort x) 1))
                      ∧ (∀ old, x.ridState t.rid = .dup old → e.1 ≠ 2 → exec e.2.1 s =
                        .next ((u.count .HTN_TP_DUP_count .HTN_TP_DUP_ovf (s.homePort x) 1).respond n ses e.1 t 0 0
                          (match old with
                            | some v => natLe 8 v
                            | none => [])))
                      ∧ (x.ridState t.rid = .fresh →
                        (∀ w va, e.1 = 1 → u.exportFor ses t 1 = some w → u.arrivalVa w t.offset t.data.length true = some va →
                            ∀ v, u.farWrite n w.ctx va t.data = (.ok [], v) → exec e.2.1 s = ok 1 none [] v)
                          ∧ (∀ w va, e.1 = 2 → u.exportFor ses t 0 = some w → u.arrivalVa w t.offset rdLen false = some va →
                            ∀ b v, u.farRead n w.ctx va rdLen = (.ok b, v) → exec e.2.1 s = ok 2 none b v)
                          ∧ (∀ w va ppa, e.1 = 3 → u.exportFor ses t 2 = some w → u.arrivalVa w t.offset (atomicSize aop) true = some va →
                            (u.walk w.ctx va).compute true = .dev ppa →
                            ∀ b v, u.memAtomic (u.ctx w.ctx).prt ppa w.ctx aop (leNat t.data) = (.ok b, v) →
                              exec e.2.1 s = ok 3 (some (leNat b)) (natLe 8 (leNat b)) v)
                          ∧ (∀ w, e.1 = 4 → u.exportFor ses t 3 = some w → t.offset + 128 ≤ w.size →
                            (∀ g k, u.tagSlot (u.ctx w.ctx).prt t.arg = some (g, k) →
                                exec e.2.1 s = ok 4 none [] (u.relayArrive g k (t.offset / 128) t.data))
                              ∧ (u.tagSlot (u.ctx w.ctx).prt t.arg = none → exec e.2.1 s = ok 4 none []
                                { u with heldReduce := u.heldReduce ++ [(⟨(u.ctx w.ctx).prt, t.arg, t.offset, n, t.data⟩ : HeldReduce)] }))
                          ∧ (∀ w va, e.1 = 5 → u.exportFor ses t 4 = some w → u.arrivalVa w t.offset t.data.length true = some va →
                            ∀ v, u.farWrite n w.ctx va t.data = (.ok [], v) → exec e.2.1 s = ok 5 none [] (if t.arg = 1
                              then v.setWin (t.widx % 4096) { w with arrivals := (w.arrivals + 1) % 2 ^ 64 } else v))
                          ∧ (∀ w f, e.1 = 6 → u.exportFor ses t 4 = some w → u.fenceOf t.offset = some f → (u.fence f).ctx = w.ctx →
                            (t.err = true → exec e.2.1 s = ok 6 none [] (u.fenceError f))
                              ∧ (t.err = false → (u.fence f).st ≠ 2 → (u.fence f).value < t.arg →
                                exec e.2.1 s = ok 6 none [] (u.fenceSignal f t.arg)))
                          ∧ (∀ right, (e.1, right) ∈ [(1, 1), (2, 0), (3, 2), (4, 3), (5, 4), (6, 4)] → u.exportFor ses t right = none →
                            exec e.2.1 s = refused e.1)
                          ∧ (∀ j, e.1 = 7 → (u.wins.filter (fun w => w.2.kind == 2 && w.2.peer == x.peer && w.2.peerPrt == x.peerPrt
                              && w.2.peerIdx == t.widx && w.2.peerGen == t.wgen && (u.ctx w.2.ctx).prt == x.prt)).map (·.1) = [j] →
                            exec e.2.1 s = ok 7 none [] (u.closeWin j)))))))
      ∧ (∀ p tag, p < 32 →
        ((∀ h ∈ s.heldReduce, ¬ (h.prt = p ∧ h.tag = tag)) → exec (.reduceHold p tag) s = .next s)
          ∧ ∀ h, s.heldReduce = [h] → h.prt = p → h.tag = tag →
            exec (.reduceHold p tag) s = .next ({ s with heldReduce := [] }.count .HTN_REDUCE_DROP_count .HTN_REDUCE_DROP_ovf h.port 1))
      ∧ (t.resp = false ∨ x.st ≠ 2 → exec (.response n ses t) s = .next s)
      ∧ (t.resp = true → x.st = 2 → let v := (s.takePsn n ses t.psn).2
        ((s.takePsn n ses t.psn).1 = false → exec (.response n ses t) s = .next v)
          ∧ ((s.takePsn n ses t.psn).1 = true →
            (s.openReq ses t.rid = none → exec (.response n ses t) s = .next (v.count .HTN_TP_STALE_count .HTN_TP_STALE_ovf n 1))
              ∧ ∀ r, s.openReq ses t.rid = some r → exec (.response n ses t) s = .next (v.answered n ses t r).issueReqs
                ∧ (∀ k g, r.owner = .far g k → (s.ctx r.ctx).epoch = t.sepoch → t.offset % 65536 = 0 → r ∈ s.reqs →
                  ∃ q ∈ (v.answered n ses t r).reqs, q.owner = .far g k ∧ q.st = 1 ∧ q.status = 0 ∧ q.resp = t.data)))

/-- Sessions and the port command window (R333, R334, R340, R344 to R346, R350, R428). An offer is answered with a confirmation; a
confirmed exchange opens the session when two key slots are free, joins the port to an open one, or takes new keys into use; leaving closes
the session with its last port. A rekey starts by count or command; the old keys go after the overlap. HTN_ATOMIC sends one request and is
busy until its end. -/
def Obligations.Sessions : Prop :=
  ∀ (s : State) (n f ses : Nat) (gr : Greeting) (a : Args), n < 32 → f < 128 → s.pwr.stop = 0 →
    let x := s.sess ses
    let a0 := a.a0.toNat
    let p := (s.prtOf n).getD 0
    let w := fun (op : Nat) => s.asked .htn n op a
    (s.greetOk n gr = false → exec (.greetingOffer n gr) s = .next s ∧ exec (.greetingConfirm n gr) s = .next s)
      ∧ (∀ i u, s.greetOk n gr = true → s.sessFor gr.dstPrt gr.digest8 gr.srcPrt = (some i, u) → (u.sess i).st = 1 →
        ∃ t v : State, exec (.greetingOffer n gr) s = .next t ∧ t = v.sendConfirm n i ∧ v.sess i = { u.sess i with
          offered := (u.sess i).offered ||| 2 ^ n, peerPub := gr.pub, peerNonce := gr.nonce, dsess := gr.dsess, gen := gr.gen,
          maxdata := min gr.maxdata (s.portMax n), caps := gr.caps, eth := gr.eth,
          lower := decide (beNat (s.idDigest.take 8) < beNat (natLe 8 gr.digest8)) } ∧ { v with sesss := u.sesss } = u)
      ∧ (s.greetOk n gr = true → gr.sigOk = false → exec (.greetingConfirm n gr) s = .next s)
      ∧ (s.greetOk n gr = true → gr.sigOk = true →
        s.sesss.find? (fun e => e.2.st != 0 && e.2.prt == gr.dstPrt && e.2.peer == gr.digest8 && e.2.peerPrt == gr.srcPrt) = some (ses, x) →
        (x.offered.testBit n = false → exec (.greetingConfirm n gr) s = .next s)
          ∧ (x.offered.testBit n = true → let v := s.setSess ses { x with offered := x.offered - 2 ^ n }
            (x.st = 1 → exec (.greetingConfirm n gr) s = .next (v.openSess ses (2 ^ n))
                ∧ (2 ≤ s.freeSlots .link → ((v.openSess ses (2 ^ n)).sess ses).st = 2)
                ∧ (s.freeSlots .link < 2 → ((v.openSess ses (2 ^ n)).sess ses).confirmed = x.confirmed ||| 2 ^ n
                  ∧ ((v.openSess ses (2 ^ n)).sess ses).st = 1))
              ∧ (x.st = 2 → x.rekey = true → exec (.greetingConfirm n gr) s = .next (v.flipKeys ses)
                ∧ (2 ≤ s.freeSlots .link → ((v.flipKeys ses).sess ses).phase = 1 - x.phase ∧ ((v.flipKeys ses).sess ses).oldPhase = true
                  ∧ ((v.flipKeys ses).sess ses).oldTx = x.txSlot ∧ ((v.flipKeys ses).sess ses).rekey = false))
              ∧ (x.st = 2 → x.rekey = false → exec (.greetingConfirm n gr) s = .next (v.joinPorts ses (2 ^ n)))))
      ∧ (∀ ports, (ports = 0 ∨ x.st ≠ 2 ∨ x.ports.testBit n = false → exec (.greetingLeave n ses ports) s = .next s)
        ∧ (ports ≠ 0 → x.st = 2 → x.ports = 2 ^ n → exec (.greetingLeave n ses ports) s = .next (s.closeSess ses)
          ∧ ((s.closeSess ses).sess ses) = Sess.free)
        ∧ (ports ≠ 0 → x.st = 2 → x.ports.testBit n = true → x.ports ≠ 2 ^ n → x.unacked = [] →
          exec (.greetingLeave n ses ports) s = .next ((s.setSess ses { x with ports := x.ports - 2 ^ n }).showPort n)))
      ∧ (∀ gen, (x.st = 2 → x.ports.testBit n = true → exec (.greetingUpdate n ses gen) s = .next (s.setSess ses { x with gen := gen }))
        ∧ (x.st ≠ 2 ∨ x.ports.testBit n = false → exec (.greetingUpdate n ses gen) s = .next s))
      ∧ (let waits := s.linkUp n = true ∧ ((x.st = 1 ∧ x.confirmed = 0) ∨ (x.st = 2 ∧ (x.rekey = true ∨ x.ports.testBit n = false)))
        (waits → exec (.greetingStep n ses) s = .next (s.sendOffer n ses)) ∧ (¬ waits → exec (.greetingStep n ses) s = .next s))
      ∧ (let due := x.st = 2 ∧ x.rekey = false ∧ x.rekeyWait = false ∧ (2 ^ 32 ≤ x.txCount ∨ 2 ^ 32 ≤ x.rxCount)
        (due → exec (.packetCountRekey ses) s = .next (s.startRekey ses)) ∧ (¬ due → exec (.packetCountRekey ses) s = .next s))
      ∧ (x.oldPhase = false → exec (.keyOverlap ses) s = .next s)
      ∧ (x.oldPhase = true → let v := s.setSess ses { x with oldPhase := false, oldTx := 0, oldRx := 0 }
        exec (.keyOverlap ses) s = .next (([x.oldTx, x.oldRx].filter (· != 0)).foldl State.retireKey v))
      ∧ (s.barOf f = false ∨ s.flag .HTN_CMD_busy n = true →
        ∀ i ∈ [Instr.htnSess f n a, .htnFlink f n a, .htnFunlink f n a, .htnRekey f n a, .htnAtomic f n a], exec i s = .next s)
      ∧ (s.barOf f = true → s.flag .HTN_CMD_busy n = false → s.htnMay f n = true →
        (a0 < 1024 → (s.sess a0).st = 0 ∨ (s.sess a0).prt = p → exec (.htnSess f n a) s = (w 1).nextIn .htn n 0
            ((s.sess a0).st + (s.sess a0).prt * 2 ^ 2 + (s.sess a0).peerPrt * 2 ^ 7 + (s.sess a0).ports * 2 ^ 12) (s.sess a0).peer)
          ∧ (a0 < 2 ^ 32 → s.fenceRights f a0 = true → s.fenceIn a0 p = true → let i := a0 % 2 ^ 20
            let imp := s.win a.a1.toNat
            (a.a1.toNat < 2 ^ 12 → a.a2.toNat < 2 ^ 32 → imp.kind = 2 → imp.ctx = (s.fence i).ctx → bit imp.rights 4 = true →
                (s.ctx imp.ctx).st = 1 → (∀ l ∈ s.flinks, l.fence ≠ i) → s.flinks.length < 16384 → exec (.htnFlink f n a) s =
                  ({ w 2 with flinks := s.flinks ++ [(⟨i, a.a1.toNat, a.a2.toNat⟩ : FLink)] }).nextIn .htn n 0 0 0)
              ∧ exec (.htnFunlink f n a) s = ({ w 3 with flinks := s.flinks.filter (fun l => l.fence != i) }).nextIn .htn n 0 0 0)
          ∧ (a0 < 1024 → (s.sess a0).st = 2 → (s.sess a0).prt = p →
            exec (.htnRekey f n a) s = (if (s.sess a0).rekey || (s.sess a0).rekeyWait then w 4 else (w 4).startRekey a0).nextIn .htn n 0 0 0)
          ∧ (let c := bits a0 15 0
            let op := bits a0 23 16
            let i := bits a0 35 24
            let sz := atomicSize (txnAtomicOp op)
            a0 < 2 ^ 36 → s.ctxRights f c false = true → s.ctxExists c = true → (s.ctx c).prt = p → (s.ctx c).st = 1 → op < 4 →
              s.winOk c i a.a1.toNat sz 2 = true → a.a1.toNat % sz = 0 →
              exec (.htnAtomic f n a) s = .next (((((w 5).answers .htn n 0 0 0).wr .HTN_CMD_busy n 1).request c i 3 a.a1.toNat op false
                (natLe 8 a.a2.toNat) (.window n)).settle (.window n))))
-- Clocks, power, temperature --------------------------------------------------------------------------------------------------

/-- Clocks and power (R352, R355, R356, R359 to R364, R368). A hall's divider follows its voltage, unless a stretch defers it; a voltage that
does not come is abandoned, and after three in a row the hall is held; a silent regulator takes it to step 0, and so does the alert, for
both halls. A droop stretches its gallery. The fast throttle takes two steps from every gallery until the next redistribution, which
measures, keeps the spans' predicted power within their budget and steps the halls. A phase's power is learned by an eighth. A lost
reference is recorded. A snapshot latches every counter at once.
Temperature (R365 to R367). A sample shows every reading, records hot stacks and the warning, and sets and clears the halls' clamps; a
clamp that acts takes its hall down one step at a time; the trip stops every clock. -/
def Obligations.ClocksPowerTemperature : Prop :=
  (∀ (s : State), s.pwr.stop = 0 →
    (∀ h < 2, let x := s.hall h
        let cur := s.rd .PWR_HALL_STAT_cur h
        let defers := s.flag .PWR_HALL_STAT_defer h = true ∨ s.stretching h = true
        (x.wait = false → exec (.voltageReport h) s = .next s ∧ exec (.voltageReportTimeout h) s = .next s)
          ∧ (x.wait = true → defers → exec (.voltageReport h) s =
            .next ((s.setHall h { x with wait := false, fails := 0 }).wr .PWR_HALL_STAT_defer h 1))
          ∧ (x.wait = true → ¬ defers → ∃ t : State, exec (.voltageReport h) s = .next t
            ∧ t.rd .PWR_HALL_STAT_cur h = s.rd .PWR_HALL_STAT_target h % 2 ^ 5
            ∧ t.hall h = { x with wait := false, fails := 0, mv := s.vtab h (s.rd .PWR_HALL_STAT_target h) }
            ∧ (∀ g ∈ hallGals h, t.rd .PWR_GAL_STAT_eff g ≤ t.rd .PWR_HALL_STAT_cur h))
          ∧ (x.wait = true → ∃ t : State, exec (.voltageReportTimeout h) s = .next t
            ∧ t.rd .PWR_HALL_STAT_target h = cur % 2 ^ 5 ∧ t.rd .PWR_HALL_STAT_cur h = cur ∧ t.flag .PWR_HALL_STAT_vr_err h = true
            ∧ t.flag .PWR_HALL_STAT_defer h = false ∧ (t.hall h).wait = false ∧ (t.hall h).fails = x.fails + 1
            ∧ (x.fails = 2 → x.held = none → (t.hall h).held = some cur) ∧ (x.fails ≠ 2 → (t.hall h).held = x.held))
          ∧ (x.held = some 0 → exec (.avsbusTimeout h) s = .next s)
          ∧ (x.held ≠ some 0 → ∃ t : State, exec (.avsbusTimeout h) s = .next t ∧ t.rd .PWR_HALL_STAT_cur h = 0
            ∧ (t.hall h).held = some 0 ∧ (t.hall h).mv = s.vtab h 0 ∧ t.flag .PWR_HALL_STAT_vr_err h = true)
          ∧ (s.flag .PWR_HALL_STAT_defer h = false ∨ s.stretching h = true → exec (.deferralEnd h) s = .next s)
          ∧ (s.flag .PWR_HALL_STAT_defer h = true → s.stretching h = false →
            (x.wait = true → exec (.deferralEnd h) s = .next (s.wr .PWR_HALL_STAT_defer h 0))
              ∧ (x.wait = false → ∃ t : State, exec (.deferralEnd h) s = .next t
                ∧ t.rd .PWR_HALL_STAT_cur h = s.rd .PWR_HALL_STAT_target h % 2 ^ 5 ∧ t.flag .PWR_HALL_STAT_defer h = false)))
      ∧ (∀ g < 32, let h := if g < 16 then 0 else 1
        let d := ((s.wr .PWR_GAL_STAT_stretch g 1).count .PWR_GAL_STRETCH_count .PWR_GAL_STRETCH_ovf g 1).wr .PWR_HALL_STAT_stretch h 1
        exec (.droopTrip g) s =
            .next (if s.rd .PWR_HALL_STAT_cur h = s.rd .PWR_HALL_STAT_target h then d else d.wr .PWR_HALL_STAT_defer h 1)
          ∧ (s.flag .PWR_GAL_STAT_stretch g = false → exec (.stretchEnd g) s = .next s)
          ∧ (s.flag .PWR_GAL_STAT_stretch g = true → ∃ t : State, exec (.stretchEnd g) s = .next t ∧ t.flag .PWR_GAL_STAT_stretch g = false
            ∧ t.rd .PWR_GAL_STRETCH_count g = (s.rd .PWR_GAL_STRETCH_count g + 32) % 2 ^ 48
            ∧ t.flag .PWR_HALL_STAT_stretch h = (hallGals h).any (fun k => k != g && s.flag .PWR_GAL_STAT_stretch k))
          ∧ (∀ cls m, cls < 64 → let w := s.wr .PWR_GAL_STAT_phase g cls
            ((s.gal g).task = none → exec (.phaseWindow g cls m) s = .next w)
              ∧ (∀ k, (s.gal g).task = some k → let prog := (s.sub k).prog
                let old := s.learned g prog cls
                let rest := (s.pwr.phases.get [] g).filter (fun e => !(e.prog == prog && e.cls == cls))
                ∃ r, (r = (7 * old + m) / 8 ∨ r = (7 * old + m + 7) / 8) ∧ exec (.phaseWindow g cls m) s =
                  .next ({ w with pwr := { s.pwr with phases := s.pwr.phases.set [] g (((⟨prog, cls, r⟩ : Phase) :: rest).take 64) } }.ticked))))
      ∧ (s.flag .PWR_HALL_STAT_alert 0 = true → exec .regulatorAlert s = .next s)
      ∧ (s.flag .PWR_HALL_STAT_alert 0 = false → ∃ t : State, exec .regulatorAlert s = .next t
        ∧ t.rd .PWR_ALERT_CNT_count 0 = (s.rd .PWR_ALERT_CNT_count 0 + 1) % 2 ^ 48
        ∧ ∀ h < 2, t.rd .PWR_HALL_STAT_cur h = 0 ∧ t.flag .PWR_HALL_STAT_alert h = true ∧ (t.hall h).wait = false)
      ∧ exec .alertRelease s = .next ((s.wr .PWR_HALL_STAT_alert 0 0).wr .PWR_HALL_STAT_alert 1 0)
      ∧ (s.flag .PWR_HALL_STAT_throttle 0 = true → exec .fastThrottle s = .next s)
      ∧ (s.flag .PWR_HALL_STAT_throttle 0 = false → ∃ t : State, exec .fastThrottle s = .next t
        ∧ t.rd .PWR_THROTTLE_CNT_count 0 = (s.rd .PWR_THROTTLE_CNT_count 0 + 1) % 2 ^ 48
        ∧ (∀ h < 2, t.flag .PWR_HALL_STAT_throttle h = true ∧ t.rd .PWR_HALL_DEPART_count h = (s.rd .PWR_HALL_DEPART_count h + 1) % 2 ^ 48)
        ∧ ∀ g < 32, s.pwr.want.get 0 g < 32 →
          t.rd .PWR_GAL_STAT_eff g = min (s.pwr.want.get 0 g - 2) (s.rd .PWR_HALL_STAT_cur (if g < 16 then 0 else 1)))
      ∧ (∀ avg other leak, ∃ t : State, exec (.redistribution avg other leak) s = .next t
        ∧ t.rd .PWR_PKG_avg 0 = avg % 2 ^ 12 ∧ t.rd .PWR_PKG_peak 0 = max (s.rd .PWR_PKG_peak 0) (avg % 2 ^ 12) % 2 ^ 12
        ∧ (∀ h < 2, t.flag .PWR_HALL_STAT_throttle h = false)
        ∧ (s.flag .PWR_HALL_STAT_alert 0 = false → ∀ h < 2, s.fixed h = true →
            t.rd .PWR_HALL_STAT_target h = min (s.rd .PWR_HALL_STAT_set h) (s.ceiling h) % 2 ^ 5))
      ∧ (∀ l left, (((s.serveSpans l left).filter (fun e => e.2 != 0)).map (fun e => s.predicted e.1 e.2)).sum ≤ left)
      ∧ (∀ r, r < 4 → let w := s.wr .PWR_REF_STAT_lost 0 (s.rd .PWR_REF_STAT_lost 0 ||| 2 ^ r)
        (r = 0 → s.board.pcie = true →
            exec (.refclkLoss r) s = .next ({ w with board := { s.board with pcie := false } }.rasRecord ⟨3, 13, 0, 1, 0, 0xFF, 6, 0, 0⟩))
          ∧ (r = 0 → s.board.pcie = false → exec (.refclkLoss r) s = .next w)
          ∧ (r = 1 → exec (.refclkLoss r) s = .next w.escalateChip)
          ∧ (2 ≤ r → exec (.refclkLoss r) s = .next ((List.range 16).foldl (fun t k =>
            if t.linkUp (k + 16 * (r - 2)) then (t.goDown (k + 16 * (r - 2)) 1).portFault (k + 16 * (r - 2)) 10 else t) w)))
      ∧ ∀ src : Src, src.ok = true →
        (src = .mgmt ∨ (∃ f, src = .func f ∧ s.barOf f = true) → exec (.pwrPkgPeakRead src) s =
            .next ((s.emit (.reply [s.rd .PWR_PKG_peak 0] [])).wr .PWR_PKG_peak 0 0))
          ∧ (s.pfOrMgmt src = true → s.snapping = false → ∃ t : State, exec (.trcSnapshot src) s = .next t ∧ t.snapping = true
            ∧ t.flag .TRC_SNAPSHOT_done 0 = false ∧ (∀ d, 1 ≤ d → d ≤ 12 → t.rd .TRC_SNAP_DOM_value d = s.clocks.get 0 d % 2 ^ 64)
            ∧ (∀ p < 32, t.rd .TRC_SNAP_DL_value p = s.rd .DSP_DLCNT_count p % 2 ^ 64))
          ∧ (s.pfOrMgmt src = false ∨ s.snapping = true → exec (.trcSnapshot src) s = .next s)
          ∧ (s.snapping = true → exec .snapshotDone s = .next { (s.wr .TRC_SNAPSHOT_done 0 1) with snapping := false })
          ∧ (s.snapping = false → exec .snapshotDone s = .next s))
    ∧ (∀ (s : State), s.pwr.stop = 0 →
    (∀ temps : List (Option Int), temps.length = 44 → (∀ e ∈ temps, ∀ v, e = some v → -2048 ≤ v ∧ v < 2048) →
        let at_ := fun (k : Nat) (deg : Nat) => ∃ v, temps.getD k none = some v ∧ (4 * deg : Int) ≤ v
        ∃ t : State, exec (.thermalSample temps) s = .next t
          ∧ (∀ k < 44, t.temp k = temps.getD k none)
          ∧ (∀ k < 8, bit (t.rd .PWR_THERM_hbm_hot 0) k = true ↔ (bit (s.rd .PWR_THERM_hbm_hot 0) k = true ∨ at_ (36 + k) 95))
          ∧ (t.flag .PWR_THERM_warned 0 = true ↔ (s.flag .PWR_THERM_warned 0 = true ∨ ∃ k < 36, at_ k (s.rd .PWR_THERM_warn 0)))
          ∧ (∀ h < 2, ((∃ g ∈ hallGals h, at_ g 105) → bit (t.rd .PWR_HALL_STAT_clamp h) 2 = true)
            ∧ ((∀ g ∈ hallGals h, ¬ at_ g 103) → bit (t.rd .PWR_HALL_STAT_clamp h) 2 = false)
            ∧ ((∃ k ∈ [32, 33, 34, 35], at_ k 105) → bit (t.rd .PWR_HALL_STAT_clamp h) 3 = true)
            ∧ ((∀ k ∈ [32, 33, 34, 35], ¬ at_ k 103) → bit (t.rd .PWR_HALL_STAT_clamp h) 3 = false)
            ∧ ((∃ k ∈ hallGals h ++ [32, 33, 34, 35], at_ k 105) → (t.hall h).cap ≠ none ∧ (t.hall h).noBoost = true)
            ∧ ((∀ k ∈ hallGals h ++ [32, 33, 34, 35], ¬ at_ k 95) → (t.hall h).cap = none ∧ (t.hall h).noBoost = false)))
      ∧ (∀ h < 2, let x := s.hall h
        let cur := s.rd .PWR_HALL_STAT_cur h
        (x.cap = none ∨ cur = 0 → exec (.temperatureClamp h) s = .next s)
          ∧ (x.cap ≠ none → 0 < cur → ∃ t : State, exec (.temperatureClamp h) s = .next t ∧ (t.hall h).cap = some (cur - 1)
            ∧ t.rd .PWR_HALL_STAT_target h ≤ cur - 1
            ∧ (s.stretching h = false → s.flag .PWR_HALL_STAT_defer h = false → t.rd .PWR_HALL_STAT_cur h ≤ cur - 1)
            ∧ t.rd .PWR_HALL_DEPART_count h = (s.rd .PWR_HALL_DEPART_count h + 1) % 2 ^ 48))
      ∧ exec .thermalTrip s = .next { s with pwr := { s.pwr with trip := true, stop := 2 } })
-- Faults and resets ---------------------------------------------------------------------------------------------------------

/-- Detection and escalation (R133, R134, R374 to R377, R381, R382, R385). An engine that makes no progress is reset, and its fourth expiry
within 1 s loses the gallery; a task that counts its period takes WATCHDOG; a gallery that is lost is noted, counted and left by its task,
and with no spare its contexts take NOREPLAY; a replaced gallery hands its place in the chaining order on; a second copy of a shared
structure, or a second mesh stop, is a chip fault. An escalation freezes what its reset is due for. -/
def Obligations.FaultsEscalate : Prop :=
  ∀ (s : State), s.pwr.stop = 0 →
    (∀ g < 32, ∀ e < 9, let k := 16 * g + e
        let now := s.clocks.get 0 3
        let l := (s.eng k).expiries.filter (fun t => decide (now - t < 1200000000)) ++ [now]
        let r := (s.modEng k (fun x => { x with expiries := l })).resetEngine g e true
        (s.dogRuns k = false → exec (.engineWatchdog g e) s = .next s)
          ∧ (s.dogRuns k = true → exec (.engineWatchdog g e) s = .next (if 4 ≤ l.length then r.loseGal g (hallDom g) else r))
          ∧ (r.eng k).cur = none ∧ (r.eng k).relays = [] ∧ r.flag .GAL_ENG_STAT_wdog k = true)
      ∧ (∀ g < 32, ((s.gal g).task = none → exec (.contextWatchdog g) s = .next s)
        ∧ (∀ k, (s.gal g).task = some k → s.isHead g = true → (s.sub k).stage = .placed → exec (.contextWatchdog g) s =
            .next (s.ctxFault (s.sub k).ctx 5 0 g 0xFF (s.rd .RAS_CTX_WDOG_ms (s.sub k).prt)))
        ∧ exec (.echoTimeout g) s = .next (s.loseGal g 3) ∧ exec (.internalCheck g) s = .next (s.loseGal g (if g < 16 then 1 else 2)))
      ∧ (∀ g dom, g < 32 → (g ∈ s.ras.lost → s.loseGal g dom = s)
        ∧ (g ∉ s.ras.lost → s.rd .SVY_STAT_phase 0 ≠ 5 → let t := s.loseGal g dom
          g ∈ t.ras.lost ∧ t.rd .RAS_LOST_gal 0 = (s.rd .RAS_LOST_gal 0 ||| 2 ^ g) % 2 ^ 32 ∧ (t.gal g).task = none
            ∧ t.rd .RAS_CNT_UNIT_count 0 = (s.rd .RAS_CNT_UNIT_count 0 + 1) % 2 ^ 48
            ∧ (∀ p, s.prtOf g = some p → (s.part p).spares = [] → ∀ k ∈ s.tasksOn g, (s.ctx (s.sub k).ctx).st = 1 →
              (t.ctx (s.sub k).ctx).st = 2 ∧ (t.ctx (s.sub k).ctx).code = 7)))
      ∧ (∀ p g sp, ((s.replaceGal p g sp none).part p).order = (s.part p).order.map (fun n => if n = g then sp else n))
      ∧ (∀ x copy logic, let id := 2 * x + copy % 2
        let other := 2 * x + (copy + 1) % 2
        (id ∈ s.ras.fencedCopies → exec (.sharedStructureFault x copy logic) s = .next s)
          ∧ (id ∉ s.ras.fencedCopies → other ∈ s.ras.fencedCopies → exec (.sharedStructureFault x copy logic) s = .next s.escalateChip)
          ∧ (id ∉ s.ras.fencedCopies → other ∉ s.ras.fencedCopies → ∃ t : State, exec (.sharedStructureFault x copy logic) s = .next t
            ∧ t.ras.fencedCopies = (if logic then s.ras.fencedCopies ++ [id] else s.ras.fencedCopies)
            ∧ t.rd .RAS_CNT_UNIT_count 0 % 2 ^ 48 = (s.rd .RAS_CNT_UNIT_count 0 + if logic then 1 else 0) % 2 ^ 48))
      ∧ (∀ g < 32, (g ∈ s.ras.fencedStops → exec (.meshStopFence g) s = .next s)
        ∧ (g ∉ s.ras.fencedStops → s.ras.fencedStops ≠ [] → exec (.meshStopFence g) s = .next s.escalateChip)
        ∧ (s.ras.fencedStops = [] → s.rd .SVY_STAT_phase 0 ≠ 5 → ∃ t : State, exec (.meshStopFence g) s = .next t ∧ t.ras.fencedStops = [g]
          ∧ (∀ ch, 8 * g ≤ ch → ch < 8 * g + 8 → t.rd .MEM_HBM_STAT_state ch = 3 ∧ (t.chans.get .reset ch).dead = true)
          ∧ (g ∉ s.ras.lost → t.rd .RAS_LOST_gal 0 = (s.rd .RAS_LOST_gal 0 ||| 2 ^ g) % 2 ^ 32)
          ∧ (∀ p, s.prtOf g = some p → (s.part p).defined = true → p ∈ t.ras.frozen)))
      ∧ (∀ unit, unit < 512 → unit % 16 < 9 →
        exec (.escalation 2 unit) s = .next (s.resetEngine (unit / 16) (unit % 16) false))
      ∧ (∀ unit < 32, exec (.escalation 3 unit) s = .next (s.loseGal unit 3) ∧ exec (.escalation 4 unit) s = .next (s.escalatePrt unit 4)
        ∧ exec (.escalation 5 unit) s = .next s.escalateChip ∧ exec (.escalation 6 unit) s = .next s.escalateCycle)
      ∧ (∀ p, (s.part p).defined = true → p ∉ s.ras.frozen →
        p ∈ (s.escalatePrt p 4).ras.frozen
          ∧ (s.flag .RAS_ESC_CTRL_auto_prt 0 = true → (s.escalatePrt p 4).ras.due = s.ras.due ++ [⟨some p, 4⟩])
          ∧ (s.flag .RAS_ESC_CTRL_auto_prt 0 = false → (s.escalatePrt p 4).ras.due = s.ras.due))
      ∧ (s.flag .RAS_STAT_cycle 0 = true → s.escalateChip = s ∧ s.escalateCycle = s)
      ∧ (s.flag .RAS_STAT_cycle 0 = false →
        s.escalateChip.flag .RAS_STAT_fault 0 = true ∧ s.escalateChip.pwr.stop = 1
          ∧ s.escalateChip.ras.due = (if s.flag .RAS_ESC_CTRL_auto_chip 0 then s.ras.due ++ [⟨none, 5⟩] else s.ras.due)
          ∧ s.escalateCycle.flag .RAS_STAT_fault 0 = true ∧ s.escalateCycle.pwr.stop = 1
          ∧ s.escalateCycle.flag .RAS_STAT_cycle 0 = s.flag .RAS_ESC_CTRL_auto_cycle 0)

/-- The resets (R379, R386 to R389, R395). A partition reset clears the galleries and engines of its slices and spares, aborts its contexts
with PRT_RESET and keeps every partition's map; a chip warm reset keeps fuses, flash keys and what R395 names, starts every gallery afresh
and counts itself; the third within 60 s becomes a power cycle; a power cycle asserts both pins and freezes the part. One that nobody who
may asked for, and that is not due, does nothing. -/
def Obligations.Resets : Prop :=
  ∀ (s : State) (src : Src), src.ok = true →
    (s.pwr.stop = 0 → ∀ p < 32,
        ((s.part p).defined = false → exec (.partitionReset src p) s = .next s)
          ∧ (s.ras.due.any (fun d => d.prt == some p) = false → s.pfOrMgmt src = false → exec (.partitionReset src p) s = .next s)
          ∧ ((s.part p).defined = true → s.ras.due.any (fun d => d.prt == some p) = true ∨ s.pfOrMgmt src = true →
            ∃ t : State, exec (.partitionReset src p) s = .next t
              ∧ (∀ g ∈ (s.part p).slices ++ (s.part p).spares, t.gal g = .idle
                ∧ (∀ e < 9, t.eng (16 * g + e) = .idle) ∧ ∀ n < 65536, t.sem g n = 0)
              ∧ (∀ c, (s.ctxs.filter (fun e => e.2.st != 0 && e.2.prt == p)).map (·.1) = [c] → (s.ctx c).st ≠ 4 →
                (t.ctx c).st = 1 ∧ (t.ctx c).code = 9)
              ∧ t.map.parts = s.map.parts ∧ p ∉ t.ras.frozen ∧ (∀ d ∈ t.ras.due, d.prt ≠ some p)
              ∧ t.rd .RAS_CNT_PRT_count 0 = (s.rd .RAS_CNT_PRT_count 0 + 1) % 2 ^ 48 ∧ t.pmem = s.pmem ∧ t.slots = s.slots))
      ∧ (s.pwr.stop ≤ 1 → ∀ x : Tests, let now := s.clocks.get 0 3
        let l := s.ras.chipTimes.filter (fun k => decide (now - k < 72000000000))
        (s.flag .RAS_STAT_cycle 0 = true → exec (.chipWarmReset src x) s = .next s)
          ∧ (s.ras.due.any (fun d => d.prt == none) = false → s.pfOrMgmt src = false → exec (.chipWarmReset src x) s = .next s)
          ∧ (s.flag .RAS_STAT_cycle 0 = false → s.ras.due.any (fun d => d.prt == none) = true ∨ s.pfOrMgmt src = true →
            (2 ≤ l.length → exec (.chipWarmReset src x) s = .next s.escalateCycle)
              ∧ (l.length < 2 → ∃ t : State, exec (.chipWarmReset src x) s = .next t ∧ (∀ g, t.gal g = .idle) ∧ (∀ c, t.ctx c = .free)
                ∧ t.ras.chipTimes = l ++ [now] ∧ t.sec.records = s.sec.records ∧ t.sec.udsFused = s.sec.udsFused
                ∧ t.rd .RAS_LOST_gal 0 = s.rd .RAS_LOST_gal 0 % 2 ^ 32
                ∧ t.rd .RAS_CNT_CTX_count 0 = s.rd .RAS_CNT_CTX_count 0 % 2 ^ 48
                ∧ t.rd .RAS_CNT_PRT_count 0 = s.rd .RAS_CNT_PRT_count 0 % 2 ^ 48
                ∧ t.rd .RAS_CNT_CHIP_count 0 = (s.rd .RAS_CNT_CHIP_count 0 % 2 ^ 48 + 1) % 2 ^ 48)))
      ∧ (s.pwr.stop ≤ 1 →
        (s.pfOrMgmt src = false → exec (.powerCycle src) s = .next s)
          ∧ (s.pfOrMgmt src = true → s.flag .RAS_STAT_cycle 0 = true → exec (.powerCycle src) s = .next s)
          ∧ (s.pfOrMgmt src = true → s.flag .RAS_STAT_cycle 0 = false → ∃ t : State, exec (.powerCycle src) s = .next t
            ∧ t.flag .RAS_STAT_fault 0 = true ∧ t.flag .RAS_STAT_cycle 0 = true ∧ t.pwr.stop = 1 ∧ t.ras.due = []))
-- Crash dumps, firmware, the lease ------------------------------------------------------------------------------------------

/-- Crash dumps (R389 to R393). A dump is started by the physical function or management, one at a time, and counts an unread one as lost; a
unit that does not answer is marked; the bound closes it with its signature first and the hash of what stands before END last; it is copied
to host memory and read by management in pieces of up to 1,024 bytes.
The codes of replies and events that it uses are the model's (log entry 42). -/
def Obligations.CrashDumps : Prop :=
  ∀ (s : State), s.pwr.stop ≤ 1 →
    (s.pwr.stop = 0 → ∀ src : Src, src.ok = true →
        (s.pfOrMgmt src = true → exec (.dump src) s = .next (s.startDump 0 0xFF))
          ∧ (s.pfOrMgmt src = false → exec (.dump src) s = .next s)
          ∧ (s.pfOrMgmt src = true → s.rd .RAS_DUMP_STAT_state 0 = 2 →
            exec (.dumpCopy src) s = .next (s.wr .RAS_DUMP_STAT_state 0 3))
          ∧ (s.pfOrMgmt src = false ∨ s.rd .RAS_DUMP_STAT_state 0 ≠ 2 → exec (.dumpCopy src) s = .next s))
      ∧ (∀ trigger p, (s.flag .RAS_STAT_dump 0 = true → s.startDump trigger p = s)
        ∧ (s.flag .RAS_STAT_dump 0 = false → let t := s.startDump trigger p
          t.flag .RAS_STAT_dump 0 = true ∧ t.rd .RAS_DUMP_STAT_state 0 = 1 ∧ t.ras.dump = []
            ∧ (∃ c, t.ras.cap = some c ∧ c.trigger = trigger ∧ c.prt = p ∧ c.gen = s.rd .SVY_GEN_gen 0 ∧ c.marked = []
              ∧ c.faults = s.ras.recent)
            ∧ (s.ras.dump ≠ [] → s.ras.dumpRead = false →
              t.rd .RAS_DUMP_LOST_count 0 = (s.rd .RAS_DUMP_LOST_count 0 + 1) % 2 ^ 48)
            ∧ (s.ras.dumpRead = true → t.rd .RAS_DUMP_LOST_count 0 = s.rd .RAS_DUMP_LOST_count 0)))
      ∧ (s.ras.cap = none → (∀ k u, exec (.dumpReadTimeout k u) s = .next s) ∧ exec .dumpBound s = .next s)
      ∧ (∀ c, s.ras.cap = some c →
        (∀ k u, ((k, u) ∈ c.marked → exec (.dumpReadTimeout k u) s = .next s)
          ∧ ((k, u) ∉ c.marked → (s.dumpRecs c).any (fun r => r.unit == (k, u)) = true → exec (.dumpReadTimeout k u) s =
            .next { s with ras := { s.ras with cap := some { c with marked := c.marked ++ [(k, u)] } } }))
          ∧ (∃ t : State, exec .dumpBound s = .next t ∧ t.ras.cap = none ∧ t.flag .RAS_STAT_dump 0 = false
            ∧ t.rd .RAS_DUMP_STAT_state 0 = 2 ∧ t.flag .RAS_DUMP_STAT_bounded 0 = true
            ∧ t.rd .RAS_DUMP_STAT_trigger 0 = c.trigger % 2 ^ 8
            ∧ ∃ b, t.ras.dump = b ++ natLe 2 0xFFFF ++ natLe 2 0 ++ natLe 4 0x01000000 ++ natLe 4 64 ++ natLe 4 0 ++ sha512 b
              ∧ b.take 8 = [0x44, 0x55, 0x4D, 0x50, 1, 0, BitVec.ofNat 8 c.trigger, (b.getD 7 0)]))
      ∧ (s.pwr.stop = 0 →
        (∀ ok, s.rd .RAS_DUMP_STAT_state 0 ≠ 3 → exec (.dumpCopyDone ok) s = .next s)
          ∧ (s.rd .RAS_DUMP_STAT_state 0 = 3 →
            (exec (.dumpCopyDone false) s = .next ((s.wr .RAS_DUMP_STAT_state 0 2).wr .RAS_DUMP_STAT_copy_err 0 1))
              ∧ ∃ t : State, exec (.dumpCopyDone true) s = .next t ∧ t.rd .RAS_DUMP_STAT_state 0 = 2 ∧ t.ras.dumpRead = true
                ∧ t.flag .RAS_DUMP_STAT_copied 0 = true
                ∧ ((s.func 0).d3 = false → s.flag .DSP_DLOG_CTRL_en 0 = false →
                  t.hostRd none (s.rd .RAS_DUMP_DST_addr 0 * 4096) s.ras.dump.length = s.ras.dump)))
      ∧ (∀ m off len, (s.mgmtUp = false ∨ m.overDoe = true → exec (.dumpRead m off len) s = .next s)
        ∧ (s.mgmtUp = true → m.overDoe = false → s.recovering = false →
          (1024 < len ∨ s.ras.dump = [] → exec (.dumpRead m off len) s = .next (s.answer pcARG []))
            ∧ (len ≤ 1024 → s.ras.dump ≠ [] → exec (.dumpRead m off len) s =
              .next ({ s with ras := { s.ras with dumpRead := true } }.answer pcOK ((s.ras.dump.drop off).take len)))))

/-- Emulated registers and firmware (R400 to R403, R409, R410). A read is answered by the firmware with bit 31 zero, or with the busy word; a
write is applied, waits, or is dropped and counted; a command is applied once; a core's crash takes the standby, and one more is a chip
fault; an update goes to the inactive slot and is pending when the pair passes the start checks; a live activation swaps the runtime.
The lease (R404 to R406). A claim is granted while nobody holds the lease or in orphan mode, and ends orphan mode while host-memory
writes stay stopped; a renewal is the holder's; anything else sets lviol; an expiry that no renewal meets starts orphan mode; RINGS lets
host-memory writes resume. Only the physical function may do any of it.
The codes of replies and events that it uses are the model's (log entry 42). -/
def Obligations.FirmwareAndLease : Prop :=
  (∀ (s : State), s.pwr.stop = 0 →
    (∀ f < 128, ∀ off, s.emuValue f off < 2 ^ 31
        ∧ (s.emuOf f = false ∨ emulated off = false → exec (.emuRead f off) s = .next s ∧ exec (.emuBusy f off) s = .next s)
        ∧ (s.emuOf f = true → emulated off = true →
          (s.flag .EMU_HW_STAT_fw_up 0 = true ∨ s.recovering = true →
              exec (.emuRead f off) s = .next (s.emit (.reply [s.emuValue f off] [])))
            ∧ (s.flag .EMU_HW_STAT_fw_up 0 = false → s.recovering = false → exec (.emuRead f off) s = .next s)
            ∧ exec (.emuBusy f off) s = .next (s.emit (.reply [0xB5B50001] [])))
        ∧ (f ≠ 0 → ∀ v, exec (.emuWrite f off v) s = .next s ∧ exec (.clearLog f v) s = .next s
          ∧ exec (.reportTelemetry f v) s = .next s))
      ∧ (s.emuOf 0 = true → ∀ off v, emulated off = true →
        (s.recovering = true → exec (.emuWrite 0 off v) s = .next s)
          ∧ (s.recovering = false → s.flag .EMU_HW_STAT_fw_up 0 = true → exec (.emuWrite 0 off v) s = .next (s.emuApply off v))
          ∧ (s.recovering = false → s.flag .EMU_HW_STAT_fw_up 0 = false →
            (s.fw.wq.length < 64 → ∃ t : State, exec (.emuWrite 0 off v) s = .next t ∧ t.fw.wq = s.fw.wq ++ [(off, v)]
                ∧ t.rd .EMU_HW_STAT_wq 0 = s.fw.wq.length + 1)
              ∧ (64 ≤ s.fw.wq.length → exec (.emuWrite 0 off v) s = .next (s.count .EMU_WDROP_count .EMU_WDROP_ovf 0 1))))
      ∧ (s.emuOf 0 = true → s.recovering = false → s.flag .EMU_HW_STAT_fw_up 0 = true → ∀ seq < 256,
        (s.fw.lastCmd = some seq → exec (.clearLog 0 seq) s = .next s ∧ exec (.reportTelemetry 0 seq) s = .next s)
          ∧ (s.fw.lastCmd ≠ some seq →
            (∃ t : State, exec (.clearLog 0 seq) s = .next t ∧ t.fw.log = [] ∧ t.fw.lastCmd = some seq ∧ t.rd .EMU_CMD_seq 0 = seq
                ∧ t.out = s.out)
              ∧ ∃ t : State, exec (.reportTelemetry 0 seq) s = .next t ∧ t.fw.lastCmd = some seq ∧ t.fw.log = s.fw.log
                ∧ t.out = s.out ++ [.mgmtEvent mgTELEMETRY 0]))
      ∧ (∀ core < 4, (s.flag .EMU_HW_STAT_fw_up 0 = false ∨ core ∈ s.fw.crashed → exec (.coreCrash core) s = .next s)
        ∧ (s.flag .EMU_HW_STAT_fw_up 0 = true → core ∉ s.fw.crashed →
          (s.fw.standby = none → exec (.coreCrash core) s = .next s.escalateChip)
            ∧ (s.fw.standby ≠ none → ∃ t : State, exec (.coreCrash core) s = .next t ∧ t.fw.standby = none
              ∧ t.fw.crashed = s.fw.crashed ++ [core] ∧ t.flag .EMU_HW_STAT_standby 0 = false
              ∧ t.rd .RAS_CNT_UNIT_count 0 = (s.rd .RAS_CNT_UNIT_count 0 + 1) % 2 ^ 48)))
      ∧ (∀ m comp image, (s.mgmtUp = false ∨ m.overDoe = true → exec (.firmwareUpdate m comp image) s = .next s)
        ∧ (s.mgmtUp = true → m.overDoe = false →
          (s.inSession m = false → exec (.firmwareUpdate m comp image) s = .next (s.answer pcACCESS []))
            ∧ (s.inSession m = true → s.updateOffered = false →
              exec (.firmwareUpdate m comp image) s = .next (s.answer pcUNSUPPORTED []))
            ∧ (s.inSession m = true → s.updateOffered = true → let x := s.flash
              (comp = 1 → image.length ≤ 0x100000 → ∃ t : State, exec (.firmwareUpdate m comp image) s = .next t
                  ∧ t.flash = { x with keeper := x.keeper.set (1 - x.actK) image, dirSeq := (x.dirSeq + 1) % 2 ^ 32,
                                       pendK := s.pairCause image (x.runtimeAt (if x.pendR then 1 - x.actR else x.actR)) == 0 }
                  ∧ t.out = s.out ++ [.reply [if t.flash.pendK then pcOK else pcVERIFY] []])
                ∧ (comp = 2 → image.length ≤ 0x200000 → ∃ t : State, exec (.firmwareUpdate m comp image) s = .next t
                  ∧ t.flash = { x with runtime := x.runtime.set (1 - x.actR) image, dirSeq := (x.dirSeq + 1) % 2 ^ 32,
                                       pendR := s.pairCause (x.keeperAt (if x.pendK then 1 - x.actK else x.actK)) image == 0 }
                  ∧ t.out = s.out ++ [.reply [if t.flash.pendR then pcOK else pcVERIFY] []])
                ∧ (comp ≠ 1 → comp ≠ 2 → exec (.firmwareUpdate m comp image) s = .next (s.answer pcARG [])))))
      ∧ (let x := s.flash
        let r := x.runtimeAt (1 - x.actR)
        (s.fw.standby = none ∨ x.pendR = false ∨ s.flag .EMU_HW_STAT_fw_up 0 = false
            ∨ imgHil r / 256 ≠ s.rd .EMU_IFLEVEL_hil 0 / 256 → exec .liveActivation s = .next s)
          ∧ (∀ sb, s.fw.standby = some sb → x.pendR = true → s.flag .EMU_HW_STAT_fw_up 0 = true →
            imgHil r / 256 = s.rd .EMU_IFLEVEL_hil 0 / 256 → ∃ t : State, exec .liveActivation s = .next t
              ∧ t.flash.actR = 1 - x.actR ∧ t.flash.pendR = false ∧ t.rd .EMU_IFLEVEL_hil 0 = imgHil r % 2 ^ 16
              ∧ t.rd .EMU_KRL_RT_krl 0 = imgKrl r % 2 ^ 16
              ∧ ((∃ c < 4, c ≠ sb ∧ c ∉ s.fw.crashed) → ∃ c < 4, t.fw.standby = some c ∧ c ≠ sb ∧ c ∉ s.fw.crashed))))
    ∧ (∀ (s : State), s.pwr.stop = 0 →
    (∀ f < 128, ∀ id, f ≠ 0 ∨ s.leaseUp = false →
        exec (.leaseClaim f id) s = .next s ∧ exec (.leaseRenew f id) s = .next s ∧ exec (.rings f) s = .next s)
      ∧ (s.leaseUp = true → ∀ id < 2 ^ 32, let holder := s.rd .EMU_LEASE_HOLDER_holder 0
        let viol := s.wr .EMU_HW_STAT_lviol 0 1
        (id ≠ 0 → holder = 0 ∨ s.flag .EMU_ORPHAN_orphan 0 = true → ∃ t : State, exec (.leaseClaim 0 id) s = .next t
            ∧ t.rd .EMU_LEASE_HOLDER_holder 0 = id ∧ t.flag .EMU_ORPHAN_orphan 0 = false ∧ t.flag .EMU_ORPHAN_expired 0 = false
            ∧ (∀ p < 32, t.flag .DSP_SCHED_orphan p = false) ∧ t.fw.leaseAt = s.clocks.get 0 11 ∧ t.hostStop = s.hostStop)
          ∧ (id = 0 ∨ (holder ≠ 0 ∧ s.flag .EMU_ORPHAN_orphan 0 = false) → exec (.leaseClaim 0 id) s = .next viol)
          ∧ (id ≠ 0 → id = holder → exec (.leaseRenew 0 id) s = .next { s with fw := { s.fw with leaseAt := s.clocks.get 0 11 } })
          ∧ (id = 0 ∨ id ≠ holder → exec (.leaseRenew 0 id) s = .next viol))
      ∧ (s.leaseUp = true →
        (s.flag .EMU_ORPHAN_orphan 0 = true ∨ s.hostStop = false → exec (.rings 0) s = .next s)
          ∧ (s.flag .EMU_ORPHAN_orphan 0 = false → s.hostStop = true → ∃ t : State, exec (.rings 0) s = .next t ∧ t.hostStop = false))
      ∧ (s.rd .EMU_LEASE_HOLDER_holder 0 = 0 ∨ s.flag .EMU_ORPHAN_orphan 0 = true ∨ s.fw.leaseAt = s.clocks.get 0 11 →
        exec .leaseExpiry s = .next s)
      ∧ (s.rd .EMU_LEASE_HOLDER_holder 0 ≠ 0 → s.flag .EMU_ORPHAN_orphan 0 = false → s.fw.leaseAt ≠ s.clocks.get 0 11 →
        ∃ t : State, exec .leaseExpiry s = .next t ∧ t.flag .EMU_ORPHAN_orphan 0 = true ∧ t.flag .EMU_ORPHAN_expired 0 = true
          ∧ t.hostStop = true ∧ (∀ p < 32, (s.part p).defined = true → (s.part p).owner = 0 → t.flag .DSP_SCHED_orphan p = true)
          ∧ t.out = s.out ++ [.mgmtEvent mgORPHAN 0]))
-- Security ------------------------------------------------------------------------------------------------------------------

/-- Life cycle and keys (R413 to R416, R422, R425 to R427, R440, R441). A transition of the table that is authorised and has a record left
blows it, with the fuses and keys that go with it; any other is refused, and so is one while another runs or a Survey is loaded. A staged
key waits in its shadow slot, and a swap exchanges the two. A drain fence ends a retiring slot, which is free again after its time. A
tamper event destroys every key, wipes the geodes and makes a chip warm reset due. No key is made while the entropy source fails.
The codes of replies and events that it uses are the model's (log entry 42). -/
def Obligations.LifeCycleAndKeys : Prop :=
  ∀ (s : State), s.pwr.stop = 0 →
    (∀ m goal auth keys cert, let c := Instr.lifeCycleTransition m goal auth keys cert
        let x := s.sec
        (s.spdmUp m = false → exec c s = .next s)
          ∧ (s.spdmUp m = true → s.inSession m = false → exec c s = .next (s.answer pcACCESS []))
          ∧ (s.spdmUp m = true → s.inSession m = true →
            (x.goal ≠ none ∨ s.rd .SVY_STAT_phase 0 ≠ 0 → exec c s = .next (s.answer pcBUSY []))
              ∧ (x.goal = none → s.rd .SVY_STAT_phase 0 = 0 →
                (x.mayGo goal auth = false ∨ x.roomFor goal = false → exec c s = .next (s.answer pcARG []))
                  ∧ (x.mayGo goal auth = true → x.roomFor goal = true → ∃ t : State, exec c s = .next t
                    ∧ t.sec.records = x.records ++ [(goal, x.lc)] ∧ t.sec.goal = some goal
                    ∧ t.out = s.out ++ [.reply [pcOK] []] ∧ (x.lc = 0 → t.sec.udsFused = true ∧ t.flash.cert = cert)
                    ∧ (x.lc = 1 → goal = 2 → t.sec.keys.owner = keys.head?) ∧ (x.lc = 2 → goal = 1 → t.sec.keys.owner = none)
                    ∧ (x.lc = 1 → goal = 4 → t.sec.rootKill = true)
                    ∧ (∀ g < 32, s.flag .GAL_POOL_CFG_geode g = true → t.flag .GAL_POOL_CFG_wipe g = true)))))
      ∧ (∀ x : Sec, (x.mayGo 3 true = true → x.lc = 3 ∨ x.debugs.length < 15) ∧ (∀ goal, x.mayGo goal false = true → x.lc = 3)
        ∧ (x.lc = 4 → ∀ goal auth, x.mayGo goal auth = false) ∧ (∀ goal auth, x.mayGo goal auth = true → goal = 0 → x.lc = 3))
      ∧ (∀ m slot pub chainOk sigOk, let c := Instr.keyStage m slot pub chainOk
        let d := Instr.keySwap m slot sigOk
        let k := s.sec.keys
        (s.spdmUp m = false → exec c s = .next s ∧ exec d s = .next s)
          ∧ (s.spdmUp m = true → s.inSession m = false →
            exec c s = .next (s.answer pcACCESS []) ∧ exec d s = .next (s.answer pcACCESS []))
          ∧ (s.spdmUp m = true → s.inSession m = true →
            (5 ≤ slot → exec c s = .next (s.answer pcARG []))
              ∧ (slot < 5 → chainOk = true → (slot = 0 → k.owner ≠ none) → exec c s =
                .next (({ s with sec := { s.sec with keys := k.stage slot (some pub) } }.showKeys).answer pcOK []))
              ∧ (slot < 5 → chainOk = false ∨ (slot = 0 ∧ k.owner = none) → exec c s =
                .next (({ s with sec := { s.sec with keys := k.stage slot none } }.showKeys).answer pcVERIFY []))
              ∧ (slot < 5 → sigOk = true → k.shadow slot ≠ none → ∃ t : State, exec d s = .next t ∧ t.sec.keys = k.swap slot
                ∧ t.flash.enrol.length = 2 ∧ t.out = s.out ++ [.reply [pcOK] []])
              ∧ (5 ≤ slot ∨ sigOk = false ∨ k.shadow slot = none → exec d s = .next (s.answer pcARG []))))
      ∧ (∀ x : Enrol, x.fw.length = 4 → x.fwSh.length = 4 → ∀ slot < 5, ∀ v,
        (x.stage slot v).shadow slot = v ∧ (x.stage slot v).active slot = x.active slot
          ∧ (x.swap slot).active slot = x.shadow slot ∧ (x.swap slot).shadow slot = x.active slot
          ∧ ∀ j < 5, j ≠ slot → (x.swap slot).active j = x.active j ∧ (x.swap slot).shadow j = x.shadow j)
      ∧ (∀ n < 4096, let x := s.slot n
        (x.st ≠ 2 → exec (.drainFence n) s = .next s)
          ∧ (x.st = 2 → ∃ t : State, exec (.drainFence n) s = .next t
            ∧ t.slot n = { st := 3, gen := (x.gen + 1) % 16, order := s.retired + 1, own := 0 } ∧ t.retired = s.retired + 1
            ∧ (∀ j, j ≠ n → t.slot j = s.slot j))
          ∧ (x.st ≠ 3 → exec (.slotFree n) s = .next s)
          ∧ (x.st = 3 → exec (.slotFree n) s = .next ((s.setSlot n { x with st := 0 }).serveWaits.stageStep)))
      ∧ (2 ^ 20 ≤ s.sec.drbg → s.flag .SEC_STAT_drbg_err 0 = false →
        exec .drbgReseed s = .next { s with sec := { s.sec with drbg := 0 } })
      ∧ (s.sec.drbg < 2 ^ 20 ∨ s.flag .SEC_STAT_drbg_err 0 = true → exec .drbgReseed s = .next s)
      ∧ (s.flag .SEC_STAT_drbg_err 0 = true → ∀ p, s.newKey p = none)
      ∧ (s.rd .SVY_STAT_phase 0 ≠ 3 → ∀ ok, exec (.entropyHealthTest ok) s = .next (s.wr .SEC_STAT_drbg_err 0 (if ok then 0 else 1)))
      ∧ (exec (.tamperCheck true) s = .next s)
      ∧ (s.rd .DEV_STAT_step 0 < 5 ∨ s.flag .SEC_STAT_tamper_run 0 = true → exec (.tamperCheck false) s = .next s)
      ∧ (5 ≤ s.rd .DEV_STAT_step 0 → s.flag .SEC_STAT_tamper_run 0 = false → s.flag .RAS_STAT_cycle 0 = false →
        ∃ t : State, exec (.tamperCheck false) s = .next t ∧ t.flag .SEC_STAT_tamper_run 0 = true
          ∧ t.flag .RAS_STAT_fault 0 = true ∧ t.pwr.stop = 1 ∧ t.ras.due = s.ras.due ++ [⟨none, 5⟩]
          ∧ (∀ n, (t.slot n).st ≠ 1 ∧ (t.slot n).st ≠ 2)
          ∧ (∀ g < 32, s.flag .GAL_POOL_CFG_geode g = true → t.flag .GAL_POOL_CFG_wipe g = true))

/-- SPDM requests (R420, R434, R435). Negotiation goes version, capabilities, algorithms; requests before its end are errors; certificate,
challenge and measurements answer with the chain that is served and the blocks that are named; a key exchange gives a session that FINISH
opens, at most four over each transport; requests inside a session need one that is open; an end or a missed heartbeat closes it.
The codes of replies and events that it uses are the model's (log entry 42). -/
def Obligations.SpdmRequests : Prop :=
  ∀ (s : State) (m : Mgmt), s.pwr.stop = 0 →
    (s.spdmUp m = false →
        exec (.getVersion m) s = .next s ∧ exec (.getCapabilities m) s = .next s ∧ exec (.negotiateAlgorithms m) s = .next s
          ∧ exec (.getDigests m) s = .next s ∧ (∀ n, exec (.getCertificate m n) s = .next s) ∧ exec (.challenge m) s = .next s
          ∧ (∀ n, exec (.getMeasurements m n) s = .next s) ∧ exec (.keyExchange m) s = .next s ∧ exec (.finish m) s = .next s
          ∧ exec (.heartbeat m) s = .next s ∧ exec (.keyUpdate m) s = .next s ∧ exec (.endSession m) s = .next s)
      ∧ (s.spdmUp m = true → let bad := Host.Outcome.next (s.answer spERR [])
        exec (.getVersion m) s = .next ((s.setConn m 1).answer spOK [0x12#8, 0x13#8])
          ∧ (s.conn m = 1 → exec (.getCapabilities m) s = .next ((s.setConn m 3).answer spOK []))
          ∧ (s.conn m = 0 → exec (.getCapabilities m) s = bad)
          ∧ (s.conn m = 3 → exec (.negotiateAlgorithms m) s = .next ((s.setConn m 7).answer spOK []))
          ∧ (s.conn m = 0 ∨ s.conn m = 1 → exec (.negotiateAlgorithms m) s = bad)
          ∧ (s.conn m ≠ 7 → exec (.getDigests m) s = bad ∧ (∀ n, exec (.getCertificate m n) s = bad) ∧ exec (.challenge m) s = bad
            ∧ (∀ n, exec (.getMeasurements m n) s = bad) ∧ exec (.keyExchange m) s = bad)
          ∧ (s.conn m = 7 →
            exec (.getDigests m) s = .next (s.answer spOK (sha512 s.chainOf.1))
              ∧ exec (.getCertificate m 0) s =
                .next ((if s.chainOf.2 then s.wr .SEC_STAT_cert_err 0 1 else s).answer spOK s.chainOf.1)
              ∧ (∀ n, n ≠ 0 → exec (.getCertificate m n) s = bad)
              ∧ (∃ (t : State) (b : List Byte), exec (.challenge m) s = .next t
                ∧ t.out = s.out ++ [.reply [spOK] (sha512 s.chainOf.1 ++ b)])
              ∧ exec (.getMeasurements m 0) s = .next (s.emit (.reply [spOK, ((List.range 0x30).filterMap s.measBlock).length] []))
              ∧ exec (.getMeasurements m 0xFF) s =
                .next (s.answer spOK (((List.range 0x30).filterMap s.measBlock).flatMap id))
              ∧ (∀ n b, n ≠ 0 → n ≠ 0xFF → s.measBlock n = some b → exec (.getMeasurements m n) s = .next (s.answer spOK b))
              ∧ (∀ n, n ≠ 0 → n ≠ 0xFF → s.measBlock n = none → exec (.getMeasurements m n) s = bad)
              ∧ (let n := (s.sec.spdm.filter (fun x => x.doe == m.overDoe)).length
                (4 ≤ n ∨ s.flag .SEC_STAT_drbg_err 0 = true → exec (.keyExchange m) s = bad)
                  ∧ (n < 4 → s.flag .SEC_STAT_drbg_err 0 = false → ∃ t : State, exec (.keyExchange m) s = .next t
                    ∧ t.sec.spdm = s.sec.spdm ++ [⟨m.overDoe, m.func, s.sec.spdmNext, false⟩] ∧ t.sec.spdmNext = s.sec.spdmNext + 1
                    ∧ t.sec.drbg = s.sec.drbg + 1 ∧ t.out = s.out ++ [.reply [spOK, s.sec.spdmNext] []])))
          ∧ ((s.sec.spdm.any (fun x => x.named m && !x.live)) = true → exec (.finish m) s =
            .next ({ s with sec := { s.sec with spdm := s.sec.spdm.map (Spdm.open_ m) } }.answer spOK []))
          ∧ ((s.sec.spdm.any (fun x => x.named m && !x.live)) = false → exec (.finish m) s = bad)
          ∧ (s.inSession m = false → exec (.heartbeat m) s = bad ∧ exec (.keyUpdate m) s = bad ∧ exec (.endSession m) s = bad)
          ∧ (s.inSession m = true → exec (.heartbeat m) s = .next (s.answer spOK []) ∧ exec (.keyUpdate m) s = .next (s.answer spOK [])
            ∧ exec (.endSession m) s = .next ((s.endSpdm m).answer spOK [])))
      ∧ exec (.heartbeatTimeout m) s = .next (s.endSpdm m)
      ∧ (∀ x ∈ (s.endSpdm m).sec.spdm, x.named m = false) ∧ (s.endSpdm m).inSession m = false

/-- Device interfaces (R424, R429, R436 to R438), inside a secured session. An unlocked function all of whose partitions are confidential
is locked to them; a locked one starts; a stop destroys the contexts of the bound partitions and unlocks it. IDE keys go into slots of
their class, and a stop of a key set retires them.
The codes of replies and events that it uses are the model's (log entry 42). -/
def Obligations.DeviceInterfaces : Prop :=
  ∀ (s : State) (m : Mgmt), s.pwr.stop = 0 → s.spdmUp m = true →
    (s.inSession m = false → ∀ f < 128, exec (.lockInterfaceRequest m f) s = .next (s.answer spERR [])
        ∧ exec (.stopInterfaceRequest m f) s = .next (s.answer spERR [])
        ∧ ∀ proto code, exec (.vendorDefinedRequest m proto code f) s = .next (s.answer spERR []))
      ∧ (s.inSession m = true → ∀ f < 128, let st := s.rd .SEC_TDI_state f
        let ps := s.servedBy f
        let lock := ((s.wr .SEC_TDI_state f 1).wr .SEC_TDI_cause f 0).wr .SEC_TDI_prt f (maskOf ps)
        let ok := f ≠ 0 ∧ st = 0 ∧ ∀ p ∈ ps, s.confidential p = true
        (ok → exec (.lockInterfaceRequest m f) s = .next (lock.answer spOK [])
            ∧ exec (.vendorDefinedRequest m 1 0x83 f) s = .next (lock.answer spOK []))
          ∧ (¬ ok → exec (.lockInterfaceRequest m f) s = .next (s.answer spERR [])
            ∧ exec (.vendorDefinedRequest m 1 0x83 f) s = .next (s.answer spERR []))
          ∧ exec (.vendorDefinedRequest m 1 0x85 f) s = .next (s.emit (.reply [spOK, st] []))
          ∧ (f ≠ 0 → st = 1 → exec (.vendorDefinedRequest m 1 0x86 f) s = .next ((s.wr .SEC_TDI_state f 2).answer spOK []))
          ∧ (f = 0 ∨ st ≠ 1 → exec (.vendorDefinedRequest m 1 0x86 f) s = .next (s.answer spERR []))
          ∧ (f = 0 → exec (.stopInterfaceRequest m f) s = .next (s.answer spERR []))
          ∧ (f ≠ 0 → (∀ e ∈ s.ctxs, (s.rd .SEC_TDI_prt f).testBit e.2.prt = false) →
            exec (.stopInterfaceRequest m f) s =
                .next ((((s.wr .SEC_TDI_state f 0).wr .SEC_TDI_cause f 0).wr .SEC_TDI_prt f 0).answer spOK [])
              ∧ exec (.vendorDefinedRequest m 1 0x87 f) s = exec (.stopInterfaceRequest m f) s)
          ∧ (f ≠ 0 → ∃ t : State, exec (.stopInterfaceRequest m f) s = .next t ∧ t.rd .SEC_TDI_state f = 0
            ∧ t.rd .SEC_TDI_cause f = 0 ∧ t.rd .SEC_TDI_prt f = 0 ∧ t.map = s.map ∧ t.slots = s.slots))
      ∧ (s.inSession m = true → ∀ k < 108,
        (s.freeSlot .ide = none → exec (.vendorDefinedRequest m 0 2 k) s = .next (s.answer spERR []))
          ∧ (∀ n, s.freeSlot .ide = some n → exec (.vendorDefinedRequest m 0 2 k) s =
            .next ((s.setSlot n { s.slot n with st := 1, own := k }).answer spOK []))
          ∧ exec (.vendorDefinedRequest m 0 5 k) s = .next ((s.each (s.ideSlots k) State.retireKey).answer spOK [])
          ∧ exec (.vendorDefinedRequest m 0 4 k) s =
            .next ((s.each (s.ideSlots (if k % 2 = 0 then k + 1 else k - 1)) State.retireKey).answer spOK []))
      ∧ (∀ n, s.freeSlot .ide = some n → 64 ≤ n ∧ n < 192 ∧ (s.slot n).st = 0)
-- Management and the board --------------------------------------------------------------------------------------------------

/-- Management messages (R388, R400, R449, R452, R453). Without an address nothing answers. MCTP control and PLDM base answer what they are
asked and change nothing but the endpoint ID; an Ohmair command that changes state needs a secured session and a device that is not in
recovery mode, and then does to the Survey buffer, the Survey under way, the flash or the part what its row says.
The codes of replies and events that it uses are the model's (log entry 42). -/
def Obligations.Management : Prop :=
  ∀ (s : State), s.pwr.stop = 0 →
    (let tells := fun (v : List Nat) => Host.Outcome.next (if s.mgmtUp then s.emit (.reply v []) else s)
     (∀ eid, exec (.setEndpointId eid) s = if s.mgmtUp = false then .next s
            else if 8 ≤ eid ∧ eid ≤ 254 then .next ({ s with board := { s.board with eid := eid } }.answer pcOK [])
            else .next (s.answer pcARG []))
          ∧ exec .getEndpointId s = tells [pcOK, s.board.eid]
          ∧ exec (.getVersionSupport 0) s = tells [pcOK, 1, 3] ∧ exec (.getVersionSupport 0xFF) s = tells [pcOK, 1, 3]
          ∧ (∀ ty ∈ [1, 5, 6], s.mgmtUp = true → ∃ b, exec (.getVersionSupport ty) s = .next (s.emit (.reply [pcOK] b)))
          ∧ (∀ ty, ty ∉ [0, 1, 5, 6, 0xFF] → exec (.getVersionSupport ty) s = tells [pcUNSUPPORTED])
          ∧ exec .getMessageTypeSupport s = tells [pcOK, 1, 5, 6] ∧ exec .getVendorDefinedMessageSupport s = tells [pcOK]
          ∧ exec .getTid s = tells [pcOK, Config.pldmTid]
          ∧ exec .getPldmTypes s = tells (if s.recovering then [pcOK, 0, 2, 5] else [pcOK, 0, 2, 4, 5, 0x3F])
          ∧ (∀ ty, ty ∉ s.pldmTypes → exec (.getPldmVersion ty) s = tells [pcARG] ∧ exec (.getPldmCommands ty) s = tells [pcARG])
          ∧ (∀ ty ∈ s.pldmTypes, s.mgmtUp = true → (∃ b, exec (.getPldmVersion ty) s = .next (s.emit (.reply [pcOK] b)))
            ∧ ∃ v b, exec (.getPldmCommands ty) s = .next (s.emit (.reply (pcOK :: v) b)))
          ∧ exec (.getPldmCommands 0) s = tells [pcOK, 2, 3, 4, 5]
          ∧ (s.recovering = false → exec (.getPldmCommands 0x3F) s = tells [pcOK, 1, 2, 3, 4, 5, 6, 7, 8, 9]))
      ∧ (∀ (m : Mgmt) (c : Instr), c ∈ [Instr.surveyCommit m, .surveyAbort m, .defaultSurveyWrite m]
          ∨ (∃ n, c = .surveyBegin m n) ∨ (∃ o b, c = .surveyData m o b) ∨ (∃ h, c = .surveyApply m h)
          ∨ (∃ k p t, p < 32 ∧ c = .resetRequest m k p t) →
        (s.mgmtUp = false ∨ m.overDoe = true → exec c s = .next s)
          ∧ (s.mgmtUp = true → m.overDoe = false → s.recovering = true → exec c s = .next (s.answer pcUNSUPPORTED []))
          ∧ (s.mgmtUp = true → m.overDoe = false → s.recovering = false → s.inSession m = false →
            exec c s = .next (s.answer pcACCESS [])))
      ∧ (∀ m : Mgmt, s.mgmtUp = true → m.overDoe = false → s.recovering = false → exec (.surveyStatus m) s =
        .next (s.emit (.reply [pcOK, s.word .SVY_STAT 0, s.word .SVY_GEN 0, s.word .SVY_PEND 0] []))
          ∧ ∀ off len, len ≤ 1024 → s.ras.dump ≠ [] → exec (.dumpRead m off len) s =
            .next ({ s with ras := { s.ras with dumpRead := true } }.answer pcOK ((s.ras.dump.drop off).take len)))
      ∧ (∀ m : Mgmt, s.mgmtUp = true → m.overDoe = false → s.recovering = false → s.inSession m = true →
        let bad := Host.Outcome.next (s.answer pcARG [])
        (∀ n, exec (.surveyBegin m n) s = if 328 ≤ n ∧ n ≤ 1048576
            then .next ({ s with svy := { s.svy with bufLen := n, buf := [], bufOpen := true } }.answer pcOK []) else bad)
          ∧ (∀ off b, s.svy.bufOpen = true → b.length ≤ 1024 → off + b.length ≤ s.svy.bufLen →
            ∃ t : State, exec (.surveyData m off b) s = .next t ∧ (t.svy.buf.drop off).take b.length = b
              ∧ (∀ k, k < off ∨ off + b.length ≤ k → t.svy.buf.getD k 0 = s.svy.buf.getD k 0))
          ∧ (∀ off b, s.svy.bufOpen = false ∨ 1024 < b.length ∨ s.svy.bufLen < off + b.length → exec (.surveyData m off b) s = bad)
          ∧ (∀ h, (s.svy.bufOpen = false → exec (.surveyApply m h) s = bad)
            ∧ (s.svy.bufOpen = true → s.svyFree = false → exec (.surveyApply m h) s = .next (s.svyBusy.answer pcBUSY []))
            ∧ (s.svy.bufOpen = true → s.svyFree = true → ∀ t : State, t = s.svyStart true →
              exec (.surveyApply m h) s = .next (({ t with svy := { t.svy with hold := h } }.svyRun s.buffered).answer pcOK [])))
          ∧ exec (.surveyCommit m) s =
            (if s.rd .SVY_STAT_phase 0 = 4 then .next ((s.wr .SVY_STAT_phase 0 5).answer pcOK []) else bad)
          ∧ exec (.surveyAbort m) s = (if s.abortable then .next (s.svyAbort.answer pcOK []) else bad)
          ∧ (s.svy.bufOpen = false → exec (.defaultSurveyWrite m) s = bad)
          ∧ (s.svy.bufOpen = true → (∀ e, s.svyRead s.buffered = .error e →
              exec (.defaultSurveyWrite m) s = .next (s.emit (.reply [pcVERIFY, e.code, e.off] [])))
            ∧ (∀ d, s.svyRead s.buffered = .ok d → ∃ t : State, exec (.defaultSurveyWrite m) s = .next t
              ∧ t.flash.survey = s.buffered ∧ t.map = s.map ∧ t.svy = s.svy ∧ t.regs = s.regs))
          ∧ (s.flag .RAS_STAT_cycle 0 = false → ∀ p < 32, ∀ x,
            exec (.resetRequest m 0 p x) s = (if (s.part p).defined then .next ((s.answer pcOK []).resetPrt p 4) else bad)
              ∧ exec (.resetRequest m 1 p x) s = .next ((s.answer pcOK []).resetChip x)
              ∧ exec (.resetRequest m 2 p x) s = .next (s.answer pcOK []).askCycle))

/-- The board (R387, R439, R442 to R445, R452, R455, R456, R469). Power-good starts a part that is in reset, and the start ends fully ready or
in recovery mode, which a part found opened takes; only what is in flash and fuses outlives power. A rail that drops before fully ready holds
the part in reset, and after it stops every clock. PERST_N resets the PCI Express controller alone; a link that goes down leaves every
gallery and partition as it was. ENTDAA gives the address.
The codes of replies and events that it uses are the model's (log entry 42). -/
def Obligations.Board : Prop :=
  (∀ (s : State) (b : Boot), let u := s.unpowered.startUp b
      (s.pwr.stop ≠ 0 ∨ s.rd .DEV_STAT_step 0 = 1 → exec (.powerGood b) s = .next u)
        ∧ (s.pwr.stop = 0 → s.rd .DEV_STAT_step 0 ≠ 1 → exec (.powerGood b) s = .next s)
        ∧ (u.rd .DEV_STAT_step 0 = 10 ∨ u.rd .DEV_STAT_step 0 = 15)
        ∧ (u.rd .DEV_STAT_step 0 = 10 → u.flag .DEV_STAT_ready 0 = true ∧ u.flag .EMU_HW_STAT_fw_up 0 = true
          ∧ u.rd .EMU_MODE_mode 0 = 0)
        ∧ (b.intact = false → u.rd .DEV_STAT_step 0 = 15 ∧ u.rd .EMU_MODE_mode 0 = 1 ∧ u.rd .EMU_MODE_cause 0 = 7
          ∧ u.flag .SEC_STAT_tamper_boot 0 = true ∧ ∀ k < 4, u.rd .SEC_IDPUB_key k = 0)
        ∧ u.rd .RAS_LOST_gal 0 = 0 ∧ u.rd .RAS_CNT_CTX_count 0 = 0 ∧ u.rd .RAS_CNT_PRT_count 0 = 0
        ∧ u.sec.records = s.sec.records ∧ u.sec.udsFused = s.sec.udsFused ∧ u.rd .SEC_LC_state 0 = s.sec.lc % 2 ^ 3
        ∧ (∀ c, u.ctx c = .free) ∧ ∀ g, u.gal g = .idle)
    ∧ (∀ s : State, (s.flag .DEV_STAT_ready 0 = true → exec .railDropBeforeReady s = .next s)
      ∧ (s.flag .DEV_STAT_ready 0 = false → exec .railDropBeforeReady s = .next (s.unpowered.wr .RAS_STAT_fault 0 1))
      ∧ (s.flag .DEV_STAT_ready 0 = false → exec .railOutOfRange s = .next s)
      ∧ (s.flag .DEV_STAT_ready 0 = true → ∃ t : State, exec .railOutOfRange s = .next t ∧ t.pwr.stop = 2
        ∧ t.flag .RAS_STAT_fault 0 = true ∧ t.flag .RAS_STAT_cycle 0 = true ∧ t.gals = s.gals ∧ t.map = s.map))
    ∧ ∀ s : State, s.pwr.stop = 0 →
      (∃ t : State, exec .perstNDeassert s = .next t ∧ t.board.perst = false ∧ t.regs = s.regs
          ∧ t.board.pcie = (s.board.pcie || decide (5 ≤ s.rd .DEV_STAT_step 0)))
        ∧ (s.board.perst = true → exec .perstNAssert s = .next s)
        ∧ (s.board.perst = false → ∃ t : State, exec .perstNAssert s = .next t ∧ t.board.perst = true ∧ t.board.pcie = false
          ∧ (∀ f, 1 ≤ f → f < 128 → t.rd .SEC_TDI_state f = 3 ∧ t.rd .SEC_TDI_cause f = 3 ∧ t.rd .SEC_TDI_prt f = s.rd .SEC_TDI_prt f)
          ∧ (∀ n, 64 ≤ n → n < 192 → (t.slot n).st ≠ 1) ∧ (∀ n, n < 64 → t.slot n = s.slot n)
          ∧ t.gals = s.gals ∧ t.map = s.map ∧ t.ctxs = s.ctxs)
        ∧ (s.board.pcie = false → exec .pciExpressLinkDown s = .next s)
        ∧ (s.board.pcie = true → ∃ t : State, exec .pciExpressLinkDown s = .next t ∧ t.board.pcie = false ∧ t.gals = s.gals
          ∧ t.map = s.map ∧ t.ctxs = s.ctxs ∧ t.fw = s.fw)
        ∧ (s.board.perst = false → 5 ≤ s.rd .DEV_STAT_step 0 →
          exec .pciExpressLinkUp s = .next { s with board := { s.board with pcie := true } })
        ∧ (s.board.perst = true ∨ s.rd .DEV_STAT_step 0 < 5 → exec .pciExpressLinkUp s = .next s)
        ∧ (∀ a < 128, (s.rd .DEV_STAT_step 0 < 5 → exec (.entdaa a) s = .next s)
          ∧ (5 ≤ s.rd .DEV_STAT_step 0 → exec (.entdaa a) s =
            .next ({ s with board := { s.board with dyn := a } }.emit (.reply [a] (s.idDigest.take 6)))))
-- The whole machine ---------------------------------------------------------------------------------------------------------

/-- A step runs the command at the front of the queue on the queue's rest; with nothing waiting it lets time pass (the model's choice, log
entry 2). -/
def Obligations.StepRunsFrontCommand : Prop :=
  (∀ (s : State) (c : Instr), step { s with pending := c :: s.pending } = exec c s)
    ∧ ∀ s : State, s.pending = [] → step s = .next s.idle

/-- Every command of the part is answered by a next state, whatever the state; a command that names a unit the part has not is refused by
name, whatever the state. -/
def Obligations.EveryCommandAnswered : Prop :=
  ∀ (s : State) (c : Instr), (c.wf = true → ∃ t : State, exec c s = .next t) ∧ (c.wf = false → exec c s = .refused .illFormed)

/-- Once the clocks have stopped, nothing changes but by power (R367, R455, R469): every command of the part but the three of power leaves the
state as it is, time does not pass, and so a part whose queue holds no power command stays stopped from step to step. -/
def Obligations.StoppedPartStaysStopped : Prop :=
  (∀ (s : State) (c : Instr), 2 ≤ s.pwr.stop → c.wf = true → (∀ b, c ≠ .powerGood b) → c ≠ .railDropBeforeReady → c ≠ .railOutOfRange →
      exec c s = .next s)
    ∧ (∀ s : State, 2 ≤ s.pwr.stop → s.idle = s)
    ∧ ∀ s t : State, step s = .next t →
      (2 ≤ s.pwr.stop ∧ ∀ c ∈ s.pending, (∀ b, c ≠ .powerGood b) ∧ c ≠ .railDropBeforeReady ∧ c ≠ .railOutOfRange) →
      (2 ≤ t.pwr.stop ∧ ∀ c ∈ t.pending, (∀ b, c ≠ .powerGood b) ∧ c ≠ .railDropBeforeReady ∧ c ≠ .railOutOfRange)
        ∧ t = { s with pending := s.pending.tail }

/-- The words of a bundle (R85 to R89, R93 to R104): every instruction, with every operand at every value its field holds, is read back from
the word it is written as, and a word that is read as an instruction is the one that it is written as; three
words, bit for bit, are an ADDI, a VFMA and a VLD. -/
def Obligations.SlotWords : Prop :=
  (∀ (i : Instr) (sl : Slot) (w : Nat), i.wf = true → encodeSlot i = some (sl, w) →
      w < 2 ^ (slotBits sl).2 ∧ decodeSlot (instrGal i) sl w = some i)
    ∧ (∀ (g : Nat) (sl : Slot) (w : Nat) (i : Instr), g < 32 → w < 2 ^ (slotBits sl).2 → decodeSlot g sl w = some i →
      i.wf = true ∧ instrGal i = g ∧ encodeSlot i = some (sl, w))
    ∧ decodeSlot 0 .s0 0x000004031A00 = some (.addi 0 ⟨.s0, ⟨0, false⟩, 3, 3, 1⟩)
    ∧ decodeSlot 0 .v 0x0000A1022882 = some (.vfma 0 ⟨⟨2, false⟩, 5, 1, 2, 5, 0, 0, 0, 0⟩)
    ∧ decodeSlot 0 .m 0x000200080820 = some (.vld 0 ⟨⟨0, false⟩, 1, 4, 2048⟩)

/-- The memories (pool, partition memory, host memory): what a write stored is what is read, every other byte is as it was, a cleared range
reads zero, and each operation keeps the canonical form. -/
def Obligations.MemoryLaws : Prop :=
  ∀ (m : List Host.Cell) (a : Nat) (l : List Byte),
    memRead (memWrite m a l) a l.length = l
      ∧ (∀ x, x < a ∨ a + l.length ≤ x → memGet (memWrite m a l) x = memGet m x)
      ∧ (∀ n x, memGet (memZero m a n) x = if a ≤ x ∧ x < a + n then 0#8 else memGet m x)
      ∧ (Memory.wf m = true → Memory.wf (memWrite m a l) = true ∧ (∀ n, Memory.wf (memZero m a n) = true)
        ∧ (∀ i, Memory.wf (setBitmap m a i) = true) ∧ (∀ size pos, Memory.wf (ringWrite m a size pos l) = true))
      ∧ (∀ m', Memory.wf m = true → Memory.wf m' = true → (∀ x, memGet m x = memGet m' x) → m = m')

/-- Reset (R2, R379, R404, R448): nothing runs, nothing is defined, no command waits, every memory is in its canonical form and reads zero
(log entry 3); the registers show the values that the tables of the spec give them. -/
def Obligations.ResetState : Prop :=
  let s := State.reset
  s.pending = [] ∧ s.out = [] ∧ Memory.wf s.pool = true ∧ Memory.wf s.pmem = true ∧ Memory.wf s.host = true
    ∧ (∀ f i, s.rd f i = f.resetAt i) ∧ (∀ g, s.gal g = .idle) ∧ (∀ k, s.eng k = .idle) ∧ (∀ c, s.ctx c = .free)
    ∧ (∀ p, (s.part p).defined = false) ∧ s.rd .DEV_COMPAT_LEVEL_level 0 = 1 ∧ s.rd .DEV_STAT_step 0 = 1
    ∧ s.flag .RAS_STAT_fault 0 = false ∧ s.flag .RAS_ESC_CTRL_auto_prt 0 = true ∧ s.rd .RAS_CTX_WDOG_ms 0 = 10
    ∧ s.rd .EMU_LEASE_CFG_ms 0 = 2000 ∧ s.flag .EMU_ORPHAN_orphan 0 = true ∧ s.rd .SEC_LC_lc_left 0 = 64
    ∧ s.rd .GAL_SEM_BASE_base 0 = 63

/-- Register writes (R5, R374, R404). One from a source that may not write the register does nothing. A field that starts nothing takes what
its access code says, and nothing else changes: a sealed partition's RWL field keeps its value. A field that starts something does what its
row does; a zero written to it does nothing. A watchdog period of 0 and a lease time out of range are ignored. -/
def Obligations.RegisterWrites : Prop :=
  ∀ (s : State) (src : Src), s.pwr.stop = 0 → src.ok = true →
    (∀ f i v, i < f.desc.reg.place.count →
        (s.mayWrite src f.desc.reg i = false → exec (.registerWrite src f i v) s = .next s)
          ∧ (s.mayWrite src f.desc.reg i = true →
            f ∉ [Fld.GAL_SEQ_CTRL_run, .GAL_SEQ_CTRL_step, .GAL_ENG_RING_base, .GAL_ENG_RING_size, .GAL_ENG_RING_en, .GAL_ENG_RST_reset,
                .GAL_POOL_MARCH_start, .GAL_BANK_OWNER_ctx, .GAL_BANK_OWNER_valid, .GAL_BANK_OWNER_clr, .GAL_BANK_OWNER_viol,
                .MEM_OWN_CMD_go, .PRT_CTRL_seal, .PRT_CTRL_conf, .PRT_SEQ_CMD_go, .SVY_CTRL_load, .SVY_CTRL_commit, .SVY_CTRL_abort,
                .CTX_CMD_go, .FEN_CMD_go, .XLT_CMD_go, .HTN_CMD_go, .DSP_PROG_CMD_go, .DSP_APR_prt, .DSP_DLOG_CTRL_en,
                .DSP_DLOG_CTRL_swap, .DSP_MLOG_BASE_en, .DSP_MLOG_CTRL_swap, .XLT_IQ_TAIL_idx, .XLT_IQ_STAT_err, .XLT_FR_HEAD_idx,
                .HTN_PORT_CTRL_en, .HTN_PORT_CTRL_renego, .TRC_SNAPSHOT_go, .RAS_RESET_prt_go, .RAS_RESET_chip_go, .RAS_RESET_cycle_go,
                .RAS_DUMP_CTRL_go, .RAS_DUMP_CTRL_copy, .RAS_CTX_WDOG_ms, .EMU_LEASE_id, .EMU_LEASE_claim, .EMU_LEASE_rings,
                .EMU_LEASE_CFG_ms, .EMU_LOG_BASE_addr, .EMU_LOG_CFG_en, .EMU_LOG_CFG_size, .EMU_LOG_HEAD_idx, .EMU_TRACE_mask,
                .EMU_CMD_seq, .EMU_CMD_op] →
            let x := s.rd f i
            let w := v % 2 ^ f.width
            let locked := s.sealedPrt (s.lockPrt f.desc.reg i)
            ∃ t : State, exec (.registerWrite src f i v) s = .next t ∧ t = { s with regs := t.regs }
              ∧ (∀ h j, h ≠ f ∨ j ≠ i → t.rd h j = s.rd h j)
              ∧ (f.desc.acc = .rw ∨ (f.desc.acc = .rwl ∧ locked = false) → t.rd f i = w)
              ∧ (f.desc.acc = .rwl → locked = true → t = s)
              ∧ (x < 2 ^ f.width →
                (f.desc.acc = .w1c → ∀ b, bit (t.rd f i) b = (bit x b && !bit w b))
                  ∧ (f.desc.acc = .w1s → ∀ b, bit (t.rd f i) b = (bit x b || bit w b))
                  ∧ (f.desc.acc = .ro ∨ f.desc.acc = .rc ∨ f.desc.acc = .wo → t.rd f i = x))))
      ∧ (s.mayWrite src .SVY_CTRL 0 = true → exec (.registerWrite src .SVY_CTRL_load 0 1) s = exec (.surveyLoad src) s
        ∧ exec (.registerWrite src .SVY_CTRL_commit 0 1) s = exec (.svyCommit src) s
        ∧ exec (.registerWrite src .SVY_CTRL_abort 0 1) s = exec (.svyAbort src) s
        ∧ exec (.registerWrite src .SVY_CTRL_load 0 0) s = .next s)
      ∧ (s.mayWrite src .RAS_RESET 0 = true → exec (.registerWrite src .RAS_RESET_cycle_go 0 1) s = exec (.powerCycle src) s
        ∧ (s.rd .RAS_RESET_prt 0 < 32 →
          exec (.registerWrite src .RAS_RESET_prt_go 0 1) s = exec (.partitionReset src (s.rd .RAS_RESET_prt 0)) s))
      ∧ (s.mayWrite src .RAS_DUMP_CTRL 0 = true → exec (.registerWrite src .RAS_DUMP_CTRL_go 0 1) s = exec (.dump src) s
        ∧ exec (.registerWrite src .RAS_DUMP_CTRL_copy 0 1) s = exec (.dumpCopy src) s)
      ∧ (s.mayWrite src .TRC_SNAPSHOT 0 = true → exec (.registerWrite src .TRC_SNAPSHOT_go 0 1) s = exec (.trcSnapshot src) s)
      ∧ (∀ p < 32, exec (.registerWrite src .RAS_CTX_WDOG_ms p 0) s = .next s)
      ∧ (∀ v, v < 2 ^ 16 → v < 100 ∨ 60000 < v → exec (.registerWrite src .EMU_LEASE_CFG_ms 0 v) s = .next s)
end

