-- ==== Sys2Proof/Laws/Gate.lean ====
section
/-! SUPPORT. What every command has in common: a meaning answers a next state for every well-formed command and refuses every
other, and while the clocks have stopped it changes nothing but by the gate its row has. -/

namespace Sys2Proof.Laws

open Sys2Proof.Machine

/-- Every meaning is one of the three gates over a next state. -/
theorem exec_gated (c : Instr) (s : State) :
    ∃ k, exec c s = gate s c.wf k ∨ exec c s = gateRead s c.wf k ∨ exec c s = gatePower c.wf k := by
  cases c <;> first
    | exact ⟨_, Or.inl rfl⟩
    | exact ⟨_, Or.inr (Or.inl rfl)⟩
    | exact ⟨_, Or.inr (Or.inr rfl)⟩

theorem gate_next {s k : State} {b : Bool} (h : b = true) :
    gate s b k = .next (if s.pwr.stop == 0 then k else s) := by simp [gate, h]

theorem gateRead_next {s k : State} {b : Bool} (h : b = true) :
    gateRead s b k = .next (if s.pwr.stop ≤ 1 then k else s) := by simp [gateRead, h]

theorem gatePower_next {k : State} {b : Bool} (h : b = true) : gatePower b k = .next k := by simp [gatePower, h]

end Sys2Proof.Laws
end

