-- ==== Sys2Proof/Laws/Tab.lean ====
section
/-! SUPPORT. Laws of the sparse tables and of memories: what a read after a write gives, and that writes keep the canonical form. -/

namespace Sys2Proof

variable {α : Type}

-- Reads ---------------------------------------------------------------------------------------------------------------

theorem Tab.get_put (d : α) (t : Tab α) (k x : Nat) (v : α) :
    (t.put k v).get d x = if x = k then v else t.get d x := by
  induction t with
  | nil => simp only [Tab.put, Tab.get, eq_comm]
  | cons e t ih =>
    obtain ⟨k', v'⟩ := e
    simp only [Tab.put]
    split
    · simp only [Tab.get, eq_comm (a := k)]
    · split
      · subst k'
        simp only [Tab.get, eq_comm (a := k)]
        split <;> rfl
      · simp only [Tab.get, ih]
        split
        · split
          · omega
          · rfl
        · rfl

theorem Tab.get_del (d : α) (t : Tab α) (k x : Nat) :
    (t.del k).get d x = if x = k then d else t.get d x := by
  induction t with
  | nil => simp [Tab.del, Tab.get]
  | cons e t ih =>
    obtain ⟨k', v'⟩ := e
    simp only [Tab.del]
    split
    · subst k'
      simp only [ih, Tab.get]
      split
      · rfl
      · rw [if_neg (by omega)]
    · simp only [Tab.get, ih]
      split
      · rw [if_neg (by omega)]
      · rfl

/-- A read after a write. -/
theorem Tab.get_set [DecidableEq α] (d : α) (t : Tab α) (k x : Nat) (v : α) :
    (t.set d k v).get d x = if x = k then v else t.get d x := by
  unfold Tab.set
  split
  · subst v; exact Tab.get_del d t k x
  · exact Tab.get_put d t k x v

@[simp] theorem Tab.get_set_self [DecidableEq α] (d : α) (t : Tab α) (k : Nat) (v : α) :
    (t.set d k v).get d k = v := by rw [Tab.get_set, if_pos rfl]

theorem Tab.get_set_ne [DecidableEq α] (d : α) (t : Tab α) {k x : Nat} (v : α) (h : x ≠ k) :
    (t.set d k v).get d x = t.get d x := by rw [Tab.get_set, if_neg h]

/-- The same where the two keys have defaults of their own, as register fields have. -/
theorem Tab.get_set_ne' [DecidableEq α] (d d' : α) (t : Tab α) {k x : Nat} (v : α) (h : x ≠ k) :
    (t.set d k v).get d' x = t.get d' x := by
  unfold Tab.set
  split
  · rw [Tab.get_del, if_neg h]
  · rw [Tab.get_put, if_neg h]

@[simp] theorem Tab.get_nil (d : α) (k : Nat) : Tab.get d ([] : Tab α) k = d := rfl

-- The canonical form --------------------------------------------------------------------------------------------------

theorem Tab.all_put (p : Nat → Bool) (t : Tab α) (k : Nat) (v : α) (h : t.all (fun e => p e.1)) (hk : p k = true) :
    (t.put k v).all (fun e => p e.1) := by
  induction t with
  | nil => simpa [Tab.put] using hk
  | cons e t ih =>
    obtain ⟨k', v'⟩ := e
    simp only [List.all_cons, Bool.and_eq_true] at h
    simp only [Tab.put]
    split
    · simp only [List.all_cons, Bool.and_eq_true]
      exact ⟨hk, h.1, h.2⟩
    · split
      · simp only [List.all_cons, Bool.and_eq_true]
        exact ⟨hk, h.2⟩
      · simp only [List.all_cons, Bool.and_eq_true]
        exact ⟨h.1, ih h.2⟩

theorem Tab.put_sorted (t : Tab α) (k : Nat) (v : α) (h : t.sorted = true) : (t.put k v).sorted = true := by
  induction t with
  | nil => rfl
  | cons e t ih =>
    obtain ⟨k', v'⟩ := e
    simp only [Tab.sorted, Bool.and_eq_true] at h
    simp only [Tab.put]
    split
    · rename_i hk
      simp only [Tab.sorted, Bool.and_eq_true, List.all_cons, decide_eq_true_eq]
      refine ⟨⟨hk, ?_⟩, h.1, h.2⟩
      rw [List.all_eq_true] at h ⊢
      intro e he
      have := of_decide_eq_true (h.1 e he)
      exact decide_eq_true (by omega)
    · rename_i hk
      split
      · subst k'
        simp only [Tab.sorted, Bool.and_eq_true]
        exact h
      · simp only [Tab.sorted, Bool.and_eq_true]
        exact ⟨Tab.all_put (fun x => decide (k' < x)) t k v h.1 (decide_eq_true (by omega)), ih h.2⟩

theorem Tab.del_sublist (t : Tab α) (k : Nat) : (t.del k).Sublist t := by
  induction t with
  | nil => exact List.Sublist.slnil
  | cons e t ih =>
    obtain ⟨k', v'⟩ := e
    simp only [Tab.del]
    split
    · exact ih.cons _
    · exact ih.cons_cons _

theorem Tab.sorted_sublist {t t' : Tab α} (hs : t'.Sublist t) (h : t.sorted = true) : t'.sorted = true := by
  induction hs with
  | slnil => exact h
  | cons e _ ih =>
    obtain ⟨k', v'⟩ := e
    simp only [Tab.sorted, Bool.and_eq_true] at h
    exact ih h.2
  | cons_cons e hs ih =>
    obtain ⟨k', v'⟩ := e
    simp only [Tab.sorted, Bool.and_eq_true] at h ⊢
    refine ⟨?_, ih h.2⟩
    rw [List.all_eq_true] at h ⊢
    exact fun e he => h.1 e (hs.subset he)

theorem Tab.wf_sublist [DecidableEq α] (d : α) {t t' : Tab α} (hs : t'.Sublist t) (h : t.wf d = true) : t'.wf d = true := by
  simp only [Tab.wf, Bool.and_eq_true] at h ⊢
  refine ⟨Tab.sorted_sublist hs h.1, ?_⟩
  rw [List.all_eq_true] at h ⊢
  exact fun e he => h.2 e (hs.subset he)

theorem Tab.mem_put {t : Tab α} {k : Nat} {v : α} {e : Nat × α} (h : e ∈ t.put k v) : e = (k, v) ∨ e ∈ t := by
  induction t with
  | nil => exact .inl (by simpa [Tab.put] using h)
  | cons q t ih =>
    obtain ⟨k', v'⟩ := q
    simp only [Tab.put] at h
    split at h
    · simpa using h
    · split at h
      · rcases List.mem_cons.1 h with h | h
        · exact .inl h
        · exact .inr (List.mem_cons_of_mem _ h)
      · rcases List.mem_cons.1 h with h | h
        · exact .inr (h ▸ List.mem_cons_self)
        · rcases ih h with h | h
          · exact .inl h
          · exact .inr (List.mem_cons_of_mem _ h)

/-- Writing keeps the canonical form. -/
theorem Tab.set_wf [DecidableEq α] (d : α) (t : Tab α) (k : Nat) (v : α) (h : t.wf d = true) : (t.set d k v).wf d = true := by
  unfold Tab.set
  split
  · exact Tab.wf_sublist d (Tab.del_sublist t k) h
  · rename_i hv
    simp only [Tab.wf, Bool.and_eq_true] at h ⊢
    refine ⟨Tab.put_sorted t k v h.1, ?_⟩
    rw [List.all_eq_true] at h ⊢
    intro e he
    rcases Tab.mem_put he with rfl | he
    · exact decide_eq_true hv
    · exact h.2 e he

theorem Tab.setMany_wf [DecidableEq α] (d : α) (l : List α) :
    ∀ (t : Tab α) (k : Nat), t.wf d = true → (t.setMany d k l).wf d = true := by
  induction l with
  | nil => exact fun _ _ h => h
  | cons v l ih => exact fun t k h => ih _ _ (Tab.set_wf d t k v h)

theorem Tab.clearRange_wf [DecidableEq α] (d : α) (t : Tab α) (lo hi : Nat) (h : t.wf d = true) :
    (t.clearRange lo hi).wf d = true := Tab.wf_sublist d List.filter_sublist h

-- Memories ------------------------------------------------------------------------------------------------------------

namespace Machine

/-- Every memory operation keeps the canonical form. -/
theorem memWrite_wf (m : List Host.Cell) (a : Nat) (l : List Byte) (h : Memory.wf m = true) : Memory.wf (memWrite m a l) = true :=
  Tab.setMany_wf 0#8 l m a h

theorem memZero_wf (m : List Host.Cell) (a n : Nat) (h : Memory.wf m = true) : Memory.wf (memZero m a n) = true :=
  Tab.clearRange_wf 0#8 m a (a + n) h

theorem setBitmap_wf (m : List Host.Cell) (base i : Nat) (h : Memory.wf m = true) : Memory.wf (setBitmap m base i) = true :=
  memWrite_wf m _ _ h

theorem reset_memories_wf : Memory.wf State.reset.pool = true ∧ Memory.wf State.reset.pmem = true
    ∧ Memory.wf State.reset.host = true := ⟨rfl, rfl, rfl⟩

end Machine

end Sys2Proof
end

