-- ==== Sys2Proof/Laws/State.lean ====
section
/-! SUPPORT. What each update of the state leaves as it was, one lemma for each field and update, and what reading gives after
writing. -/

namespace Sys2Proof.Machine

-- Register fields -------------------------------------------------------------------------------------------------------

theorem Fld.code_lt (f : Fld) : f.code < 1024 := by cases f <;> exact Nat.le_of_ble_eq_true rfl

theorem Fld.code_inj {f f' : Fld} (h : f.code = f'.code) : f = f' := by
  have := congrArg Fld.ofNat h
  rwa [Fld.code, Fld.code, Fld.ofNat_ctorIdx, Fld.ofNat_ctorIdx] at this

/-- Keys of register fields are distinct. -/
theorem Fld.key_inj {f f' : Fld} {i i' : Nat} (h : f.key i = f'.key i') : f = f' ∧ i = i' := by
  have h1 := f.code_lt
  have h2 := f'.code_lt
  unfold Fld.key at h
  exact ⟨Fld.code_inj (by omega), by omega⟩

/-- A field read after it is written holds the value, cut to its width. -/
@[simp] theorem State.rd_wr_self (s : State) (f : Fld) (i v : Nat) : (s.wr f i v).rd f i = v % 2 ^ f.width :=
  Tab.get_set_self _ _ _ _

/-- Every other field, and every other instance, reads as before. -/
theorem State.rd_wr_ne (s : State) (f f' : Fld) (i i' v : Nat) (h : f' ≠ f ∨ i' ≠ i) :
    (s.wr f i v).rd f' i' = s.rd f' i' := by
  have hk : f'.key i' ≠ f.key i := fun e => by
    obtain ⟨rfl, rfl⟩ := Fld.key_inj e
    exact h.elim (· rfl) (· rfl)
  show Tab.get (f'.resetAt i') (s.regs.set (f.resetAt i) (f.key i) (v % 2 ^ f.width)) (f'.key i') = _
  exact Tab.get_set_ne' _ _ _ _ hk

@[simp] theorem State.rd_wr (s : State) (f f' : Fld) (i i' v : Nat) :
    (s.wr f i v).rd f' i' = if f' = f ∧ i' = i then v % 2 ^ f.width else s.rd f' i' := by
  split
  · rename_i h; obtain ⟨rfl, rfl⟩ := h; exact s.rd_wr_self f' i' v
  · rename_i h; exact s.rd_wr_ne f f' i i' v (by tauto)

theorem State.flag_wr (s : State) (f f' : Fld) (i i' v : Nat) :
    (s.wr f i v).flag f' i' = if f' = f ∧ i' = i then v % 2 ^ f.width != 0 else s.flag f' i' := by
  unfold State.flag
  rw [State.rd_wr]
  split <;> rfl

-- Tables ----------------------------------------------------------------------------------------------------------------

@[simp] theorem State.gal_setGal (s : State) (g g' : Nat) (x : Gal) :
    (s.setGal g x).gal g' = if g' = g then x else s.gal g' := Tab.get_set _ _ _ _ _
@[simp] theorem State.eng_setEng (s : State) (k k' : Nat) (x : Eng) :
    (s.setEng k x).eng k' = if k' = k then x else s.eng k' := Tab.get_set _ _ _ _ _
@[simp] theorem State.ctx_setCtx (s : State) (c c' : Nat) (x : Ctx) :
    (s.setCtx c x).ctx c' = if c' = c then x else s.ctx c' := Tab.get_set _ _ _ _ _
@[simp] theorem State.queue_setQueue (s : State) (q q' : Nat) (x : Queue) :
    (s.setQueue q x).queue q' = if q' = q then x else s.queue q' := Tab.get_set _ _ _ _ _
@[simp] theorem State.mobj_setMobj (s : State) (m m' : Nat) (x : MObj) :
    (s.setMobj m x).mobj m' = if m' = m then x else s.mobj m' := Tab.get_set _ _ _ _ _
@[simp] theorem State.fence_setFence (s : State) (k k' : Nat) (x : Fence) :
    (s.setFence k x).fence k' = if k' = k then x else s.fence k' := Tab.get_set _ _ _ _ _
@[simp] theorem State.sub_setSub (s : State) (t t' : Nat) (x : Sub) :
    (s.setSub t x).sub t' = if t' = t then x else s.sub t' := Tab.get_set _ _ _ _ _
@[simp] theorem State.prog_setProg (s : State) (k k' : Nat) (x : Prog) :
    (s.setProg k x).prog k' = if k' = k then x else s.prog k' := Tab.get_set _ _ _ _ _
@[simp] theorem State.win_setWin (s : State) (w w' : Nat) (x : Win) :
    (s.setWin w x).win w' = if w' = w then x else s.win w' := Tab.get_set _ _ _ _ _
@[simp] theorem State.func_setFunc (s : State) (f f' : Nat) (x : Func) :
    (s.setFunc f x).func f' = if f' = f then x else s.func f' := Tab.get_set _ _ _ _ _
@[simp] theorem State.part_setPart (s : State) (p p' : Nat) (x : Part) :
    (s.setPart p x).part p' = if p' = p then x else s.part p' := Tab.get_set _ _ _ _ _
@[simp] theorem State.hall_setHall (s : State) (h h' : Nat) (x : Hall) :
    (s.setHall h x).hall h' = if h' = h then x else s.hall h' := Tab.get_set _ _ _ _ _
@[simp] theorem State.modGal_eq (s : State) (g : Nat) (f : Gal → Gal) : s.modGal g f = s.setGal g (f (s.gal g)) := rfl
@[simp] theorem State.modEng_eq (s : State) (k : Nat) (f : Eng → Eng) : s.modEng k f = s.setEng k (f (s.eng k)) := rfl
@[simp] theorem State.modCtx_eq (s : State) (c : Nat) (f : Ctx → Ctx) : s.modCtx c f = s.setCtx c (f (s.ctx c)) := rfl
@[simp] theorem State.modQueue_eq (s : State) (q : Nat) (f : Queue → Queue) : s.modQueue q f = s.setQueue q (f (s.queue q)) := rfl
@[simp] theorem State.modSub_eq (s : State) (t : Nat) (f : Sub → Sub) : s.modSub t f = s.setSub t (f (s.sub t)) := rfl
@[simp] theorem State.modFunc_eq (s : State) (k : Nat) (f : Func → Func) : s.modFunc k f = s.setFunc k (f (s.func k)) := rfl
@[simp] theorem State.modHall_eq (s : State) (h : Nat) (f : Hall → Hall) : s.modHall h f = s.setHall h (f (s.hall h)) := rfl

-- Frames --------------------------------------------------------------------------------------------------------------

@[simp] theorem State.wr_gals (s : State) (f : Fld) (i v : Nat) : (s.wr f i v).gals = s.gals := rfl
@[simp] theorem State.wr_engs (s : State) (f : Fld) (i v : Nat) : (s.wr f i v).engs = s.engs := rfl
@[simp] theorem State.wr_pool (s : State) (f : Fld) (i v : Nat) : (s.wr f i v).pool = s.pool := rfl
@[simp] theorem State.wr_poolErr (s : State) (f : Fld) (i v : Nat) : (s.wr f i v).poolErr = s.poolErr := rfl
@[simp] theorem State.wr_softRows (s : State) (f : Fld) (i v : Nat) : (s.wr f i v).softRows = s.softRows := rfl
@[simp] theorem State.wr_softLanes (s : State) (f : Fld) (i v : Nat) : (s.wr f i v).softLanes = s.softLanes := rfl
@[simp] theorem State.wr_pmem (s : State) (f : Fld) (i v : Nat) : (s.wr f i v).pmem = s.pmem := rfl
@[simp] theorem State.wr_chans (s : State) (f : Fld) (i v : Nat) : (s.wr f i v).chans = s.chans := rfl
@[simp] theorem State.wr_lineErr (s : State) (f : Fld) (i v : Nat) : (s.wr f i v).lineErr = s.lineErr := rfl
@[simp] theorem State.wr_ownCache (s : State) (f : Fld) (i v : Nat) : (s.wr f i v).ownCache = s.ownCache := rfl
@[simp] theorem State.wr_ownPend (s : State) (f : Fld) (i v : Nat) : (s.wr f i v).ownPend = s.ownPend := rfl
@[simp] theorem State.wr_relays (s : State) (f : Fld) (i v : Nat) : (s.wr f i v).relays = s.relays := rfl
@[simp] theorem State.wr_fills (s : State) (f : Fld) (i v : Nat) : (s.wr f i v).fills = s.fills := rfl
@[simp] theorem State.wr_slots (s : State) (f : Fld) (i v : Nat) : (s.wr f i v).slots = s.slots := rfl
@[simp] theorem State.wr_retired (s : State) (f : Fld) (i v : Nat) : (s.wr f i v).retired = s.retired := rfl
@[simp] theorem State.wr_sec (s : State) (f : Fld) (i v : Nat) : (s.wr f i v).sec = s.sec := rfl
@[simp] theorem State.wr_flash (s : State) (f : Fld) (i v : Nat) : (s.wr f i v).flash = s.flash := rfl
@[simp] theorem State.wr_pwr (s : State) (f : Fld) (i v : Nat) : (s.wr f i v).pwr = s.pwr := rfl
@[simp] theorem State.wr_fw (s : State) (f : Fld) (i v : Nat) : (s.wr f i v).fw = s.fw := rfl
@[simp] theorem State.wr_board (s : State) (f : Fld) (i v : Nat) : (s.wr f i v).board = s.board := rfl
@[simp] theorem State.wr_host (s : State) (f : Fld) (i v : Nat) : (s.wr f i v).host = s.host := rfl
@[simp] theorem State.wr_ctxs (s : State) (f : Fld) (i v : Nat) : (s.wr f i v).ctxs = s.ctxs := rfl
@[simp] theorem State.wr_queues (s : State) (f : Fld) (i v : Nat) : (s.wr f i v).queues = s.queues := rfl
@[simp] theorem State.wr_mobjs (s : State) (f : Fld) (i v : Nat) : (s.wr f i v).mobjs = s.mobjs := rfl
@[simp] theorem State.wr_fences (s : State) (f : Fld) (i v : Nat) : (s.wr f i v).fences = s.fences := rfl
@[simp] theorem State.wr_subs (s : State) (f : Fld) (i v : Nat) : (s.wr f i v).subs = s.subs := rfl
@[simp] theorem State.wr_nextSub (s : State) (f : Fld) (i v : Nat) : (s.wr f i v).nextSub = s.nextSub := rfl
@[simp] theorem State.wr_nextSeq (s : State) (f : Fld) (i v : Nat) : (s.wr f i v).nextSeq = s.nextSeq := rfl
@[simp] theorem State.wr_progs (s : State) (f : Fld) (i v : Nat) : (s.wr f i v).progs = s.progs := rfl
@[simp] theorem State.wr_wins (s : State) (f : Fld) (i v : Nat) : (s.wr f i v).wins = s.wins := rfl
@[simp] theorem State.wr_funcs (s : State) (f : Fld) (i v : Nat) : (s.wr f i v).funcs = s.funcs := rfl
@[simp] theorem State.wr_lats (s : State) (f : Fld) (i v : Nat) : (s.wr f i v).lats = s.lats := rfl
@[simp] theorem State.wr_tokens (s : State) (f : Fld) (i v : Nat) : (s.wr f i v).tokens = s.tokens := rfl
@[simp] theorem State.wr_mlSwap (s : State) (f : Fld) (i v : Nat) : (s.wr f i v).mlSwap = s.mlSwap := rfl
@[simp] theorem State.wr_map (s : State) (f : Fld) (i v : Nat) : (s.wr f i v).map = s.map := rfl
@[simp] theorem State.wr_svy (s : State) (f : Fld) (i v : Nat) : (s.wr f i v).svy = s.svy := rfl
@[simp] theorem State.wr_ras (s : State) (f : Fld) (i v : Nat) : (s.wr f i v).ras = s.ras := rfl
@[simp] theorem State.wr_sesss (s : State) (f : Fld) (i v : Nat) : (s.wr f i v).sesss = s.sesss := rfl
@[simp] theorem State.wr_ports (s : State) (f : Fld) (i v : Nat) : (s.wr f i v).ports = s.ports := rfl
@[simp] theorem State.wr_reqs (s : State) (f : Fld) (i v : Nat) : (s.wr f i v).reqs = s.reqs := rfl
@[simp] theorem State.wr_heldReduce (s : State) (f : Fld) (i v : Nat) : (s.wr f i v).heldReduce = s.heldReduce := rfl
@[simp] theorem State.wr_flinks (s : State) (f : Fld) (i v : Nat) : (s.wr f i v).flinks = s.flinks := rfl
@[simp] theorem State.wr_seqs (s : State) (f : Fld) (i v : Nat) : (s.wr f i v).seqs = s.seqs := rfl
@[simp] theorem State.wr_pgrs (s : State) (f : Fld) (i v : Nat) : (s.wr f i v).pgrs = s.pgrs := rfl
@[simp] theorem State.wr_pgals (s : State) (f : Fld) (i v : Nat) : (s.wr f i v).pgals = s.pgals := rfl
@[simp] theorem State.wr_clocks (s : State) (f : Fld) (i v : Nat) : (s.wr f i v).clocks = s.clocks := rfl
@[simp] theorem State.wr_snapping (s : State) (f : Fld) (i v : Nat) : (s.wr f i v).snapping = s.snapping := rfl
@[simp] theorem State.wr_hostStop (s : State) (f : Fld) (i v : Nat) : (s.wr f i v).hostStop = s.hostStop := rfl
@[simp] theorem State.wr_out (s : State) (f : Fld) (i v : Nat) : (s.wr f i v).out = s.out := rfl
@[simp] theorem State.wr_tick (s : State) (f : Fld) (i v : Nat) : (s.wr f i v).tick = s.tick := rfl
@[simp] theorem State.wr_pending (s : State) (f : Fld) (i v : Nat) : (s.wr f i v).pending = s.pending := rfl
@[simp] theorem State.wr_gal_same (s : State) (f : Fld) (i v : Nat) (g' : Nat) : (s.wr f i v).gal g' = s.gal g' := rfl
@[simp] theorem State.wr_eng_same (s : State) (f : Fld) (i v : Nat) (k' : Nat) : (s.wr f i v).eng k' = s.eng k' := rfl
@[simp] theorem State.wr_ctx_same (s : State) (f : Fld) (i v : Nat) (c' : Nat) : (s.wr f i v).ctx c' = s.ctx c' := rfl
@[simp] theorem State.wr_queue_same (s : State) (f : Fld) (i v : Nat) (q' : Nat) : (s.wr f i v).queue q' = s.queue q' := rfl
@[simp] theorem State.wr_mobj_same (s : State) (f : Fld) (i v : Nat) (m' : Nat) : (s.wr f i v).mobj m' = s.mobj m' := rfl
@[simp] theorem State.wr_fence_same (s : State) (f : Fld) (i v : Nat) (k' : Nat) : (s.wr f i v).fence k' = s.fence k' := rfl
@[simp] theorem State.wr_sub_same (s : State) (f : Fld) (i v : Nat) (t' : Nat) : (s.wr f i v).sub t' = s.sub t' := rfl
@[simp] theorem State.wr_prog_same (s : State) (f : Fld) (i v : Nat) (k' : Nat) : (s.wr f i v).prog k' = s.prog k' := rfl
@[simp] theorem State.wr_win_same (s : State) (f : Fld) (i v : Nat) (w' : Nat) : (s.wr f i v).win w' = s.win w' := rfl
@[simp] theorem State.wr_func_same (s : State) (f : Fld) (i v : Nat) (f' : Nat) : (s.wr f i v).func f' = s.func f' := rfl
@[simp] theorem State.wr_part_same (s : State) (f : Fld) (i v : Nat) (p' : Nat) : (s.wr f i v).part p' = s.part p' := rfl
@[simp] theorem State.wr_hall_same (s : State) (f : Fld) (i v : Nat) (h' : Nat) : (s.wr f i v).hall h' = s.hall h' := rfl
@[simp] theorem State.setGal_regs (s : State) (g : Nat) (x : Gal) : (s.setGal g x).regs = s.regs := rfl
@[simp] theorem State.setGal_engs (s : State) (g : Nat) (x : Gal) : (s.setGal g x).engs = s.engs := rfl
@[simp] theorem State.setGal_pool (s : State) (g : Nat) (x : Gal) : (s.setGal g x).pool = s.pool := rfl
@[simp] theorem State.setGal_poolErr (s : State) (g : Nat) (x : Gal) : (s.setGal g x).poolErr = s.poolErr := rfl
@[simp] theorem State.setGal_softRows (s : State) (g : Nat) (x : Gal) : (s.setGal g x).softRows = s.softRows := rfl
@[simp] theorem State.setGal_softLanes (s : State) (g : Nat) (x : Gal) : (s.setGal g x).softLanes = s.softLanes := rfl
@[simp] theorem State.setGal_pmem (s : State) (g : Nat) (x : Gal) : (s.setGal g x).pmem = s.pmem := rfl
@[simp] theorem State.setGal_chans (s : State) (g : Nat) (x : Gal) : (s.setGal g x).chans = s.chans := rfl
@[simp] theorem State.setGal_lineErr (s : State) (g : Nat) (x : Gal) : (s.setGal g x).lineErr = s.lineErr := rfl
@[simp] theorem State.setGal_ownCache (s : State) (g : Nat) (x : Gal) : (s.setGal g x).ownCache = s.ownCache := rfl
@[simp] theorem State.setGal_ownPend (s : State) (g : Nat) (x : Gal) : (s.setGal g x).ownPend = s.ownPend := rfl
@[simp] theorem State.setGal_relays (s : State) (g : Nat) (x : Gal) : (s.setGal g x).relays = s.relays := rfl
@[simp] theorem State.setGal_fills (s : State) (g : Nat) (x : Gal) : (s.setGal g x).fills = s.fills := rfl
@[simp] theorem State.setGal_slots (s : State) (g : Nat) (x : Gal) : (s.setGal g x).slots = s.slots := rfl
@[simp] theorem State.setGal_retired (s : State) (g : Nat) (x : Gal) : (s.setGal g x).retired = s.retired := rfl
@[simp] theorem State.setGal_sec (s : State) (g : Nat) (x : Gal) : (s.setGal g x).sec = s.sec := rfl
@[simp] theorem State.setGal_flash (s : State) (g : Nat) (x : Gal) : (s.setGal g x).flash = s.flash := rfl
@[simp] theorem State.setGal_pwr (s : State) (g : Nat) (x : Gal) : (s.setGal g x).pwr = s.pwr := rfl
@[simp] theorem State.setGal_fw (s : State) (g : Nat) (x : Gal) : (s.setGal g x).fw = s.fw := rfl
@[simp] theorem State.setGal_board (s : State) (g : Nat) (x : Gal) : (s.setGal g x).board = s.board := rfl
@[simp] theorem State.setGal_host (s : State) (g : Nat) (x : Gal) : (s.setGal g x).host = s.host := rfl
@[simp] theorem State.setGal_ctxs (s : State) (g : Nat) (x : Gal) : (s.setGal g x).ctxs = s.ctxs := rfl
@[simp] theorem State.setGal_queues (s : State) (g : Nat) (x : Gal) : (s.setGal g x).queues = s.queues := rfl
@[simp] theorem State.setGal_mobjs (s : State) (g : Nat) (x : Gal) : (s.setGal g x).mobjs = s.mobjs := rfl
@[simp] theorem State.setGal_fences (s : State) (g : Nat) (x : Gal) : (s.setGal g x).fences = s.fences := rfl
@[simp] theorem State.setGal_subs (s : State) (g : Nat) (x : Gal) : (s.setGal g x).subs = s.subs := rfl
@[simp] theorem State.setGal_nextSub (s : State) (g : Nat) (x : Gal) : (s.setGal g x).nextSub = s.nextSub := rfl
@[simp] theorem State.setGal_nextSeq (s : State) (g : Nat) (x : Gal) : (s.setGal g x).nextSeq = s.nextSeq := rfl
@[simp] theorem State.setGal_progs (s : State) (g : Nat) (x : Gal) : (s.setGal g x).progs = s.progs := rfl
@[simp] theorem State.setGal_wins (s : State) (g : Nat) (x : Gal) : (s.setGal g x).wins = s.wins := rfl
@[simp] theorem State.setGal_funcs (s : State) (g : Nat) (x : Gal) : (s.setGal g x).funcs = s.funcs := rfl
@[simp] theorem State.setGal_lats (s : State) (g : Nat) (x : Gal) : (s.setGal g x).lats = s.lats := rfl
@[simp] theorem State.setGal_tokens (s : State) (g : Nat) (x : Gal) : (s.setGal g x).tokens = s.tokens := rfl
@[simp] theorem State.setGal_mlSwap (s : State) (g : Nat) (x : Gal) : (s.setGal g x).mlSwap = s.mlSwap := rfl
@[simp] theorem State.setGal_map (s : State) (g : Nat) (x : Gal) : (s.setGal g x).map = s.map := rfl
@[simp] theorem State.setGal_svy (s : State) (g : Nat) (x : Gal) : (s.setGal g x).svy = s.svy := rfl
@[simp] theorem State.setGal_ras (s : State) (g : Nat) (x : Gal) : (s.setGal g x).ras = s.ras := rfl
@[simp] theorem State.setGal_sesss (s : State) (g : Nat) (x : Gal) : (s.setGal g x).sesss = s.sesss := rfl
@[simp] theorem State.setGal_ports (s : State) (g : Nat) (x : Gal) : (s.setGal g x).ports = s.ports := rfl
@[simp] theorem State.setGal_reqs (s : State) (g : Nat) (x : Gal) : (s.setGal g x).reqs = s.reqs := rfl
@[simp] theorem State.setGal_heldReduce (s : State) (g : Nat) (x : Gal) : (s.setGal g x).heldReduce = s.heldReduce := rfl
@[simp] theorem State.setGal_flinks (s : State) (g : Nat) (x : Gal) : (s.setGal g x).flinks = s.flinks := rfl
@[simp] theorem State.setGal_seqs (s : State) (g : Nat) (x : Gal) : (s.setGal g x).seqs = s.seqs := rfl
@[simp] theorem State.setGal_pgrs (s : State) (g : Nat) (x : Gal) : (s.setGal g x).pgrs = s.pgrs := rfl
@[simp] theorem State.setGal_pgals (s : State) (g : Nat) (x : Gal) : (s.setGal g x).pgals = s.pgals := rfl
@[simp] theorem State.setGal_clocks (s : State) (g : Nat) (x : Gal) : (s.setGal g x).clocks = s.clocks := rfl
@[simp] theorem State.setGal_snapping (s : State) (g : Nat) (x : Gal) : (s.setGal g x).snapping = s.snapping := rfl
@[simp] theorem State.setGal_hostStop (s : State) (g : Nat) (x : Gal) : (s.setGal g x).hostStop = s.hostStop := rfl
@[simp] theorem State.setGal_out (s : State) (g : Nat) (x : Gal) : (s.setGal g x).out = s.out := rfl
@[simp] theorem State.setGal_tick (s : State) (g : Nat) (x : Gal) : (s.setGal g x).tick = s.tick := rfl
@[simp] theorem State.setGal_pending (s : State) (g : Nat) (x : Gal) : (s.setGal g x).pending = s.pending := rfl
@[simp] theorem State.setGal_rd_same (s : State) (g : Nat) (x : Gal) (f' : Fld) (i' : Nat) : (s.setGal g x).rd f' i' = s.rd f' i' := rfl
@[simp] theorem State.setGal_flag_same (s : State) (g : Nat) (x : Gal) (f' : Fld) (i' : Nat) : (s.setGal g x).flag f' i' = s.flag f' i' := rfl
@[simp] theorem State.setGal_eng_same (s : State) (g : Nat) (x : Gal) (k' : Nat) : (s.setGal g x).eng k' = s.eng k' := rfl
@[simp] theorem State.setGal_ctx_same (s : State) (g : Nat) (x : Gal) (c' : Nat) : (s.setGal g x).ctx c' = s.ctx c' := rfl
@[simp] theorem State.setGal_queue_same (s : State) (g : Nat) (x : Gal) (q' : Nat) : (s.setGal g x).queue q' = s.queue q' := rfl
@[simp] theorem State.setGal_mobj_same (s : State) (g : Nat) (x : Gal) (m' : Nat) : (s.setGal g x).mobj m' = s.mobj m' := rfl
@[simp] theorem State.setGal_fence_same (s : State) (g : Nat) (x : Gal) (k' : Nat) : (s.setGal g x).fence k' = s.fence k' := rfl
@[simp] theorem State.setGal_sub_same (s : State) (g : Nat) (x : Gal) (t' : Nat) : (s.setGal g x).sub t' = s.sub t' := rfl
@[simp] theorem State.setGal_prog_same (s : State) (g : Nat) (x : Gal) (k' : Nat) : (s.setGal g x).prog k' = s.prog k' := rfl
@[simp] theorem State.setGal_win_same (s : State) (g : Nat) (x : Gal) (w' : Nat) : (s.setGal g x).win w' = s.win w' := rfl
@[simp] theorem State.setGal_func_same (s : State) (g : Nat) (x : Gal) (f' : Nat) : (s.setGal g x).func f' = s.func f' := rfl
@[simp] theorem State.setGal_part_same (s : State) (g : Nat) (x : Gal) (p' : Nat) : (s.setGal g x).part p' = s.part p' := rfl
@[simp] theorem State.setGal_hall_same (s : State) (g : Nat) (x : Gal) (h' : Nat) : (s.setGal g x).hall h' = s.hall h' := rfl
@[simp] theorem State.setEng_regs (s : State) (k : Nat) (x : Eng) : (s.setEng k x).regs = s.regs := rfl
@[simp] theorem State.setEng_gals (s : State) (k : Nat) (x : Eng) : (s.setEng k x).gals = s.gals := rfl
@[simp] theorem State.setEng_pool (s : State) (k : Nat) (x : Eng) : (s.setEng k x).pool = s.pool := rfl
@[simp] theorem State.setEng_poolErr (s : State) (k : Nat) (x : Eng) : (s.setEng k x).poolErr = s.poolErr := rfl
@[simp] theorem State.setEng_softRows (s : State) (k : Nat) (x : Eng) : (s.setEng k x).softRows = s.softRows := rfl
@[simp] theorem State.setEng_softLanes (s : State) (k : Nat) (x : Eng) : (s.setEng k x).softLanes = s.softLanes := rfl
@[simp] theorem State.setEng_pmem (s : State) (k : Nat) (x : Eng) : (s.setEng k x).pmem = s.pmem := rfl
@[simp] theorem State.setEng_chans (s : State) (k : Nat) (x : Eng) : (s.setEng k x).chans = s.chans := rfl
@[simp] theorem State.setEng_lineErr (s : State) (k : Nat) (x : Eng) : (s.setEng k x).lineErr = s.lineErr := rfl
@[simp] theorem State.setEng_ownCache (s : State) (k : Nat) (x : Eng) : (s.setEng k x).ownCache = s.ownCache := rfl
@[simp] theorem State.setEng_ownPend (s : State) (k : Nat) (x : Eng) : (s.setEng k x).ownPend = s.ownPend := rfl
@[simp] theorem State.setEng_relays (s : State) (k : Nat) (x : Eng) : (s.setEng k x).relays = s.relays := rfl
@[simp] theorem State.setEng_fills (s : State) (k : Nat) (x : Eng) : (s.setEng k x).fills = s.fills := rfl
@[simp] theorem State.setEng_slots (s : State) (k : Nat) (x : Eng) : (s.setEng k x).slots = s.slots := rfl
@[simp] theorem State.setEng_retired (s : State) (k : Nat) (x : Eng) : (s.setEng k x).retired = s.retired := rfl
@[simp] theorem State.setEng_sec (s : State) (k : Nat) (x : Eng) : (s.setEng k x).sec = s.sec := rfl
@[simp] theorem State.setEng_flash (s : State) (k : Nat) (x : Eng) : (s.setEng k x).flash = s.flash := rfl
@[simp] theorem State.setEng_pwr (s : State) (k : Nat) (x : Eng) : (s.setEng k x).pwr = s.pwr := rfl
@[simp] theorem State.setEng_fw (s : State) (k : Nat) (x : Eng) : (s.setEng k x).fw = s.fw := rfl
@[simp] theorem State.setEng_board (s : State) (k : Nat) (x : Eng) : (s.setEng k x).board = s.board := rfl
@[simp] theorem State.setEng_host (s : State) (k : Nat) (x : Eng) : (s.setEng k x).host = s.host := rfl
@[simp] theorem State.setEng_ctxs (s : State) (k : Nat) (x : Eng) : (s.setEng k x).ctxs = s.ctxs := rfl
@[simp] theorem State.setEng_queues (s : State) (k : Nat) (x : Eng) : (s.setEng k x).queues = s.queues := rfl
@[simp] theorem State.setEng_mobjs (s : State) (k : Nat) (x : Eng) : (s.setEng k x).mobjs = s.mobjs := rfl
@[simp] theorem State.setEng_fences (s : State) (k : Nat) (x : Eng) : (s.setEng k x).fences = s.fences := rfl
@[simp] theorem State.setEng_subs (s : State) (k : Nat) (x : Eng) : (s.setEng k x).subs = s.subs := rfl
@[simp] theorem State.setEng_nextSub (s : State) (k : Nat) (x : Eng) : (s.setEng k x).nextSub = s.nextSub := rfl
@[simp] theorem State.setEng_nextSeq (s : State) (k : Nat) (x : Eng) : (s.setEng k x).nextSeq = s.nextSeq := rfl
@[simp] theorem State.setEng_progs (s : State) (k : Nat) (x : Eng) : (s.setEng k x).progs = s.progs := rfl
@[simp] theorem State.setEng_wins (s : State) (k : Nat) (x : Eng) : (s.setEng k x).wins = s.wins := rfl
@[simp] theorem State.setEng_funcs (s : State) (k : Nat) (x : Eng) : (s.setEng k x).funcs = s.funcs := rfl
@[simp] theorem State.setEng_lats (s : State) (k : Nat) (x : Eng) : (s.setEng k x).lats = s.lats := rfl
@[simp] theorem State.setEng_tokens (s : State) (k : Nat) (x : Eng) : (s.setEng k x).tokens = s.tokens := rfl
@[simp] theorem State.setEng_mlSwap (s : State) (k : Nat) (x : Eng) : (s.setEng k x).mlSwap = s.mlSwap := rfl
@[simp] theorem State.setEng_map (s : State) (k : Nat) (x : Eng) : (s.setEng k x).map = s.map := rfl
@[simp] theorem State.setEng_svy (s : State) (k : Nat) (x : Eng) : (s.setEng k x).svy = s.svy := rfl
@[simp] theorem State.setEng_ras (s : State) (k : Nat) (x : Eng) : (s.setEng k x).ras = s.ras := rfl
@[simp] theorem State.setEng_sesss (s : State) (k : Nat) (x : Eng) : (s.setEng k x).sesss = s.sesss := rfl
@[simp] theorem State.setEng_ports (s : State) (k : Nat) (x : Eng) : (s.setEng k x).ports = s.ports := rfl
@[simp] theorem State.setEng_reqs (s : State) (k : Nat) (x : Eng) : (s.setEng k x).reqs = s.reqs := rfl
@[simp] theorem State.setEng_heldReduce (s : State) (k : Nat) (x : Eng) : (s.setEng k x).heldReduce = s.heldReduce := rfl
@[simp] theorem State.setEng_flinks (s : State) (k : Nat) (x : Eng) : (s.setEng k x).flinks = s.flinks := rfl
@[simp] theorem State.setEng_seqs (s : State) (k : Nat) (x : Eng) : (s.setEng k x).seqs = s.seqs := rfl
@[simp] theorem State.setEng_pgrs (s : State) (k : Nat) (x : Eng) : (s.setEng k x).pgrs = s.pgrs := rfl
@[simp] theorem State.setEng_pgals (s : State) (k : Nat) (x : Eng) : (s.setEng k x).pgals = s.pgals := rfl
@[simp] theorem State.setEng_clocks (s : State) (k : Nat) (x : Eng) : (s.setEng k x).clocks = s.clocks := rfl
@[simp] theorem State.setEng_snapping (s : State) (k : Nat) (x : Eng) : (s.setEng k x).snapping = s.snapping := rfl
@[simp] theorem State.setEng_hostStop (s : State) (k : Nat) (x : Eng) : (s.setEng k x).hostStop = s.hostStop := rfl
@[simp] theorem State.setEng_out (s : State) (k : Nat) (x : Eng) : (s.setEng k x).out = s.out := rfl
@[simp] theorem State.setEng_tick (s : State) (k : Nat) (x : Eng) : (s.setEng k x).tick = s.tick := rfl
@[simp] theorem State.setEng_pending (s : State) (k : Nat) (x : Eng) : (s.setEng k x).pending = s.pending := rfl
@[simp] theorem State.setEng_rd_same (s : State) (k : Nat) (x : Eng) (f' : Fld) (i' : Nat) : (s.setEng k x).rd f' i' = s.rd f' i' := rfl
@[simp] theorem State.setEng_flag_same (s : State) (k : Nat) (x : Eng) (f' : Fld) (i' : Nat) : (s.setEng k x).flag f' i' = s.flag f' i' := rfl
@[simp] theorem State.setEng_gal_same (s : State) (k : Nat) (x : Eng) (g' : Nat) : (s.setEng k x).gal g' = s.gal g' := rfl
@[simp] theorem State.setEng_ctx_same (s : State) (k : Nat) (x : Eng) (c' : Nat) : (s.setEng k x).ctx c' = s.ctx c' := rfl
@[simp] theorem State.setEng_queue_same (s : State) (k : Nat) (x : Eng) (q' : Nat) : (s.setEng k x).queue q' = s.queue q' := rfl
@[simp] theorem State.setEng_mobj_same (s : State) (k : Nat) (x : Eng) (m' : Nat) : (s.setEng k x).mobj m' = s.mobj m' := rfl
@[simp] theorem State.setEng_fence_same (s : State) (k : Nat) (x : Eng) (k' : Nat) : (s.setEng k x).fence k' = s.fence k' := rfl
@[simp] theorem State.setEng_sub_same (s : State) (k : Nat) (x : Eng) (t' : Nat) : (s.setEng k x).sub t' = s.sub t' := rfl
@[simp] theorem State.setEng_prog_same (s : State) (k : Nat) (x : Eng) (k' : Nat) : (s.setEng k x).prog k' = s.prog k' := rfl
@[simp] theorem State.setEng_win_same (s : State) (k : Nat) (x : Eng) (w' : Nat) : (s.setEng k x).win w' = s.win w' := rfl
@[simp] theorem State.setEng_func_same (s : State) (k : Nat) (x : Eng) (f' : Nat) : (s.setEng k x).func f' = s.func f' := rfl
@[simp] theorem State.setEng_part_same (s : State) (k : Nat) (x : Eng) (p' : Nat) : (s.setEng k x).part p' = s.part p' := rfl
@[simp] theorem State.setEng_hall_same (s : State) (k : Nat) (x : Eng) (h' : Nat) : (s.setEng k x).hall h' = s.hall h' := rfl
@[simp] theorem State.setCtx_regs (s : State) (c : Nat) (x : Ctx) : (s.setCtx c x).regs = s.regs := rfl
@[simp] theorem State.setCtx_gals (s : State) (c : Nat) (x : Ctx) : (s.setCtx c x).gals = s.gals := rfl
@[simp] theorem State.setCtx_engs (s : State) (c : Nat) (x : Ctx) : (s.setCtx c x).engs = s.engs := rfl
@[simp] theorem State.setCtx_pool (s : State) (c : Nat) (x : Ctx) : (s.setCtx c x).pool = s.pool := rfl
@[simp] theorem State.setCtx_poolErr (s : State) (c : Nat) (x : Ctx) : (s.setCtx c x).poolErr = s.poolErr := rfl
@[simp] theorem State.setCtx_softRows (s : State) (c : Nat) (x : Ctx) : (s.setCtx c x).softRows = s.softRows := rfl
@[simp] theorem State.setCtx_softLanes (s : State) (c : Nat) (x : Ctx) : (s.setCtx c x).softLanes = s.softLanes := rfl
@[simp] theorem State.setCtx_pmem (s : State) (c : Nat) (x : Ctx) : (s.setCtx c x).pmem = s.pmem := rfl
@[simp] theorem State.setCtx_chans (s : State) (c : Nat) (x : Ctx) : (s.setCtx c x).chans = s.chans := rfl
@[simp] theorem State.setCtx_lineErr (s : State) (c : Nat) (x : Ctx) : (s.setCtx c x).lineErr = s.lineErr := rfl
@[simp] theorem State.setCtx_ownCache (s : State) (c : Nat) (x : Ctx) : (s.setCtx c x).ownCache = s.ownCache := rfl
@[simp] theorem State.setCtx_ownPend (s : State) (c : Nat) (x : Ctx) : (s.setCtx c x).ownPend = s.ownPend := rfl
@[simp] theorem State.setCtx_relays (s : State) (c : Nat) (x : Ctx) : (s.setCtx c x).relays = s.relays := rfl
@[simp] theorem State.setCtx_fills (s : State) (c : Nat) (x : Ctx) : (s.setCtx c x).fills = s.fills := rfl
@[simp] theorem State.setCtx_slots (s : State) (c : Nat) (x : Ctx) : (s.setCtx c x).slots = s.slots := rfl
@[simp] theorem State.setCtx_retired (s : State) (c : Nat) (x : Ctx) : (s.setCtx c x).retired = s.retired := rfl
@[simp] theorem State.setCtx_sec (s : State) (c : Nat) (x : Ctx) : (s.setCtx c x).sec = s.sec := rfl
@[simp] theorem State.setCtx_flash (s : State) (c : Nat) (x : Ctx) : (s.setCtx c x).flash = s.flash := rfl
@[simp] theorem State.setCtx_pwr (s : State) (c : Nat) (x : Ctx) : (s.setCtx c x).pwr = s.pwr := rfl
@[simp] theorem State.setCtx_fw (s : State) (c : Nat) (x : Ctx) : (s.setCtx c x).fw = s.fw := rfl
@[simp] theorem State.setCtx_board (s : State) (c : Nat) (x : Ctx) : (s.setCtx c x).board = s.board := rfl
@[simp] theorem State.setCtx_host (s : State) (c : Nat) (x : Ctx) : (s.setCtx c x).host = s.host := rfl
@[simp] theorem State.setCtx_queues (s : State) (c : Nat) (x : Ctx) : (s.setCtx c x).queues = s.queues := rfl
@[simp] theorem State.setCtx_mobjs (s : State) (c : Nat) (x : Ctx) : (s.setCtx c x).mobjs = s.mobjs := rfl
@[simp] theorem State.setCtx_fences (s : State) (c : Nat) (x : Ctx) : (s.setCtx c x).fences = s.fences := rfl
@[simp] theorem State.setCtx_subs (s : State) (c : Nat) (x : Ctx) : (s.setCtx c x).subs = s.subs := rfl
@[simp] theorem State.setCtx_nextSub (s : State) (c : Nat) (x : Ctx) : (s.setCtx c x).nextSub = s.nextSub := rfl
@[simp] theorem State.setCtx_nextSeq (s : State) (c : Nat) (x : Ctx) : (s.setCtx c x).nextSeq = s.nextSeq := rfl
@[simp] theorem State.setCtx_progs (s : State) (c : Nat) (x : Ctx) : (s.setCtx c x).progs = s.progs := rfl
@[simp] theorem State.setCtx_wins (s : State) (c : Nat) (x : Ctx) : (s.setCtx c x).wins = s.wins := rfl
@[simp] theorem State.setCtx_funcs (s : State) (c : Nat) (x : Ctx) : (s.setCtx c x).funcs = s.funcs := rfl
@[simp] theorem State.setCtx_lats (s : State) (c : Nat) (x : Ctx) : (s.setCtx c x).lats = s.lats := rfl
@[simp] theorem State.setCtx_tokens (s : State) (c : Nat) (x : Ctx) : (s.setCtx c x).tokens = s.tokens := rfl
@[simp] theorem State.setCtx_mlSwap (s : State) (c : Nat) (x : Ctx) : (s.setCtx c x).mlSwap = s.mlSwap := rfl
@[simp] theorem State.setCtx_map (s : State) (c : Nat) (x : Ctx) : (s.setCtx c x).map = s.map := rfl
@[simp] theorem State.setCtx_svy (s : State) (c : Nat) (x : Ctx) : (s.setCtx c x).svy = s.svy := rfl
@[simp] theorem State.setCtx_ras (s : State) (c : Nat) (x : Ctx) : (s.setCtx c x).ras = s.ras := rfl
@[simp] theorem State.setCtx_sesss (s : State) (c : Nat) (x : Ctx) : (s.setCtx c x).sesss = s.sesss := rfl
@[simp] theorem State.setCtx_ports (s : State) (c : Nat) (x : Ctx) : (s.setCtx c x).ports = s.ports := rfl
@[simp] theorem State.setCtx_reqs (s : State) (c : Nat) (x : Ctx) : (s.setCtx c x).reqs = s.reqs := rfl
@[simp] theorem State.setCtx_heldReduce (s : State) (c : Nat) (x : Ctx) : (s.setCtx c x).heldReduce = s.heldReduce := rfl
@[simp] theorem State.setCtx_flinks (s : State) (c : Nat) (x : Ctx) : (s.setCtx c x).flinks = s.flinks := rfl
@[simp] theorem State.setCtx_seqs (s : State) (c : Nat) (x : Ctx) : (s.setCtx c x).seqs = s.seqs := rfl
@[simp] theorem State.setCtx_pgrs (s : State) (c : Nat) (x : Ctx) : (s.setCtx c x).pgrs = s.pgrs := rfl
@[simp] theorem State.setCtx_pgals (s : State) (c : Nat) (x : Ctx) : (s.setCtx c x).pgals = s.pgals := rfl
@[simp] theorem State.setCtx_clocks (s : State) (c : Nat) (x : Ctx) : (s.setCtx c x).clocks = s.clocks := rfl
@[simp] theorem State.setCtx_snapping (s : State) (c : Nat) (x : Ctx) : (s.setCtx c x).snapping = s.snapping := rfl
@[simp] theorem State.setCtx_hostStop (s : State) (c : Nat) (x : Ctx) : (s.setCtx c x).hostStop = s.hostStop := rfl
@[simp] theorem State.setCtx_out (s : State) (c : Nat) (x : Ctx) : (s.setCtx c x).out = s.out := rfl
@[simp] theorem State.setCtx_tick (s : State) (c : Nat) (x : Ctx) : (s.setCtx c x).tick = s.tick := rfl
@[simp] theorem State.setCtx_pending (s : State) (c : Nat) (x : Ctx) : (s.setCtx c x).pending = s.pending := rfl
@[simp] theorem State.setCtx_rd_same (s : State) (c : Nat) (x : Ctx) (f' : Fld) (i' : Nat) : (s.setCtx c x).rd f' i' = s.rd f' i' := rfl
@[simp] theorem State.setCtx_flag_same (s : State) (c : Nat) (x : Ctx) (f' : Fld) (i' : Nat) : (s.setCtx c x).flag f' i' = s.flag f' i' := rfl
@[simp] theorem State.setCtx_gal_same (s : State) (c : Nat) (x : Ctx) (g' : Nat) : (s.setCtx c x).gal g' = s.gal g' := rfl
@[simp] theorem State.setCtx_eng_same (s : State) (c : Nat) (x : Ctx) (k' : Nat) : (s.setCtx c x).eng k' = s.eng k' := rfl
@[simp] theorem State.setCtx_queue_same (s : State) (c : Nat) (x : Ctx) (q' : Nat) : (s.setCtx c x).queue q' = s.queue q' := rfl
@[simp] theorem State.setCtx_mobj_same (s : State) (c : Nat) (x : Ctx) (m' : Nat) : (s.setCtx c x).mobj m' = s.mobj m' := rfl
@[simp] theorem State.setCtx_fence_same (s : State) (c : Nat) (x : Ctx) (k' : Nat) : (s.setCtx c x).fence k' = s.fence k' := rfl
@[simp] theorem State.setCtx_sub_same (s : State) (c : Nat) (x : Ctx) (t' : Nat) : (s.setCtx c x).sub t' = s.sub t' := rfl
@[simp] theorem State.setCtx_prog_same (s : State) (c : Nat) (x : Ctx) (k' : Nat) : (s.setCtx c x).prog k' = s.prog k' := rfl
@[simp] theorem State.setCtx_win_same (s : State) (c : Nat) (x : Ctx) (w' : Nat) : (s.setCtx c x).win w' = s.win w' := rfl
@[simp] theorem State.setCtx_func_same (s : State) (c : Nat) (x : Ctx) (f' : Nat) : (s.setCtx c x).func f' = s.func f' := rfl
@[simp] theorem State.setCtx_part_same (s : State) (c : Nat) (x : Ctx) (p' : Nat) : (s.setCtx c x).part p' = s.part p' := rfl
@[simp] theorem State.setCtx_hall_same (s : State) (c : Nat) (x : Ctx) (h' : Nat) : (s.setCtx c x).hall h' = s.hall h' := rfl
@[simp] theorem State.setQueue_regs (s : State) (q : Nat) (x : Queue) : (s.setQueue q x).regs = s.regs := rfl
@[simp] theorem State.setQueue_gals (s : State) (q : Nat) (x : Queue) : (s.setQueue q x).gals = s.gals := rfl
@[simp] theorem State.setQueue_engs (s : State) (q : Nat) (x : Queue) : (s.setQueue q x).engs = s.engs := rfl
@[simp] theorem State.setQueue_pool (s : State) (q : Nat) (x : Queue) : (s.setQueue q x).pool = s.pool := rfl
@[simp] theorem State.setQueue_poolErr (s : State) (q : Nat) (x : Queue) : (s.setQueue q x).poolErr = s.poolErr := rfl
@[simp] theorem State.setQueue_softRows (s : State) (q : Nat) (x : Queue) : (s.setQueue q x).softRows = s.softRows := rfl
@[simp] theorem State.setQueue_softLanes (s : State) (q : Nat) (x : Queue) : (s.setQueue q x).softLanes = s.softLanes := rfl
@[simp] theorem State.setQueue_pmem (s : State) (q : Nat) (x : Queue) : (s.setQueue q x).pmem = s.pmem := rfl
@[simp] theorem State.setQueue_chans (s : State) (q : Nat) (x : Queue) : (s.setQueue q x).chans = s.chans := rfl
@[simp] theorem State.setQueue_lineErr (s : State) (q : Nat) (x : Queue) : (s.setQueue q x).lineErr = s.lineErr := rfl
@[simp] theorem State.setQueue_ownCache (s : State) (q : Nat) (x : Queue) : (s.setQueue q x).ownCache = s.ownCache := rfl
@[simp] theorem State.setQueue_ownPend (s : State) (q : Nat) (x : Queue) : (s.setQueue q x).ownPend = s.ownPend := rfl
@[simp] theorem State.setQueue_relays (s : State) (q : Nat) (x : Queue) : (s.setQueue q x).relays = s.relays := rfl
@[simp] theorem State.setQueue_fills (s : State) (q : Nat) (x : Queue) : (s.setQueue q x).fills = s.fills := rfl
@[simp] theorem State.setQueue_slots (s : State) (q : Nat) (x : Queue) : (s.setQueue q x).slots = s.slots := rfl
@[simp] theorem State.setQueue_retired (s : State) (q : Nat) (x : Queue) : (s.setQueue q x).retired = s.retired := rfl
@[simp] theorem State.setQueue_sec (s : State) (q : Nat) (x : Queue) : (s.setQueue q x).sec = s.sec := rfl
@[simp] theorem State.setQueue_flash (s : State) (q : Nat) (x : Queue) : (s.setQueue q x).flash = s.flash := rfl
@[simp] theorem State.setQueue_pwr (s : State) (q : Nat) (x : Queue) : (s.setQueue q x).pwr = s.pwr := rfl
@[simp] theorem State.setQueue_fw (s : State) (q : Nat) (x : Queue) : (s.setQueue q x).fw = s.fw := rfl
@[simp] theorem State.setQueue_board (s : State) (q : Nat) (x : Queue) : (s.setQueue q x).board = s.board := rfl
@[simp] theorem State.setQueue_host (s : State) (q : Nat) (x : Queue) : (s.setQueue q x).host = s.host := rfl
@[simp] theorem State.setQueue_ctxs (s : State) (q : Nat) (x : Queue) : (s.setQueue q x).ctxs = s.ctxs := rfl
@[simp] theorem State.setQueue_mobjs (s : State) (q : Nat) (x : Queue) : (s.setQueue q x).mobjs = s.mobjs := rfl
@[simp] theorem State.setQueue_fences (s : State) (q : Nat) (x : Queue) : (s.setQueue q x).fences = s.fences := rfl
@[simp] theorem State.setQueue_subs (s : State) (q : Nat) (x : Queue) : (s.setQueue q x).subs = s.subs := rfl
@[simp] theorem State.setQueue_nextSub (s : State) (q : Nat) (x : Queue) : (s.setQueue q x).nextSub = s.nextSub := rfl
@[simp] theorem State.setQueue_nextSeq (s : State) (q : Nat) (x : Queue) : (s.setQueue q x).nextSeq = s.nextSeq := rfl
@[simp] theorem State.setQueue_progs (s : State) (q : Nat) (x : Queue) : (s.setQueue q x).progs = s.progs := rfl
@[simp] theorem State.setQueue_wins (s : State) (q : Nat) (x : Queue) : (s.setQueue q x).wins = s.wins := rfl
@[simp] theorem State.setQueue_funcs (s : State) (q : Nat) (x : Queue) : (s.setQueue q x).funcs = s.funcs := rfl
@[simp] theorem State.setQueue_lats (s : State) (q : Nat) (x : Queue) : (s.setQueue q x).lats = s.lats := rfl
@[simp] theorem State.setQueue_tokens (s : State) (q : Nat) (x : Queue) : (s.setQueue q x).tokens = s.tokens := rfl
@[simp] theorem State.setQueue_mlSwap (s : State) (q : Nat) (x : Queue) : (s.setQueue q x).mlSwap = s.mlSwap := rfl
@[simp] theorem State.setQueue_map (s : State) (q : Nat) (x : Queue) : (s.setQueue q x).map = s.map := rfl
@[simp] theorem State.setQueue_svy (s : State) (q : Nat) (x : Queue) : (s.setQueue q x).svy = s.svy := rfl
@[simp] theorem State.setQueue_ras (s : State) (q : Nat) (x : Queue) : (s.setQueue q x).ras = s.ras := rfl
@[simp] theorem State.setQueue_sesss (s : State) (q : Nat) (x : Queue) : (s.setQueue q x).sesss = s.sesss := rfl
@[simp] theorem State.setQueue_ports (s : State) (q : Nat) (x : Queue) : (s.setQueue q x).ports = s.ports := rfl
@[simp] theorem State.setQueue_reqs (s : State) (q : Nat) (x : Queue) : (s.setQueue q x).reqs = s.reqs := rfl
@[simp] theorem State.setQueue_heldReduce (s : State) (q : Nat) (x : Queue) : (s.setQueue q x).heldReduce = s.heldReduce := rfl
@[simp] theorem State.setQueue_flinks (s : State) (q : Nat) (x : Queue) : (s.setQueue q x).flinks = s.flinks := rfl
@[simp] theorem State.setQueue_seqs (s : State) (q : Nat) (x : Queue) : (s.setQueue q x).seqs = s.seqs := rfl
@[simp] theorem State.setQueue_pgrs (s : State) (q : Nat) (x : Queue) : (s.setQueue q x).pgrs = s.pgrs := rfl
@[simp] theorem State.setQueue_pgals (s : State) (q : Nat) (x : Queue) : (s.setQueue q x).pgals = s.pgals := rfl
@[simp] theorem State.setQueue_clocks (s : State) (q : Nat) (x : Queue) : (s.setQueue q x).clocks = s.clocks := rfl
@[simp] theorem State.setQueue_snapping (s : State) (q : Nat) (x : Queue) : (s.setQueue q x).snapping = s.snapping := rfl
@[simp] theorem State.setQueue_hostStop (s : State) (q : Nat) (x : Queue) : (s.setQueue q x).hostStop = s.hostStop := rfl
@[simp] theorem State.setQueue_out (s : State) (q : Nat) (x : Queue) : (s.setQueue q x).out = s.out := rfl
@[simp] theorem State.setQueue_tick (s : State) (q : Nat) (x : Queue) : (s.setQueue q x).tick = s.tick := rfl
@[simp] theorem State.setQueue_pending (s : State) (q : Nat) (x : Queue) : (s.setQueue q x).pending = s.pending := rfl
@[simp] theorem State.setQueue_rd_same (s : State) (q : Nat) (x : Queue) (f' : Fld) (i' : Nat) : (s.setQueue q x).rd f' i' = s.rd f' i' := rfl
@[simp] theorem State.setQueue_flag_same (s : State) (q : Nat) (x : Queue) (f' : Fld) (i' : Nat) : (s.setQueue q x).flag f' i' = s.flag f' i' := rfl
@[simp] theorem State.setQueue_gal_same (s : State) (q : Nat) (x : Queue) (g' : Nat) : (s.setQueue q x).gal g' = s.gal g' := rfl
@[simp] theorem State.setQueue_eng_same (s : State) (q : Nat) (x : Queue) (k' : Nat) : (s.setQueue q x).eng k' = s.eng k' := rfl
@[simp] theorem State.setQueue_ctx_same (s : State) (q : Nat) (x : Queue) (c' : Nat) : (s.setQueue q x).ctx c' = s.ctx c' := rfl
@[simp] theorem State.setQueue_mobj_same (s : State) (q : Nat) (x : Queue) (m' : Nat) : (s.setQueue q x).mobj m' = s.mobj m' := rfl
@[simp] theorem State.setQueue_fence_same (s : State) (q : Nat) (x : Queue) (k' : Nat) : (s.setQueue q x).fence k' = s.fence k' := rfl
@[simp] theorem State.setQueue_sub_same (s : State) (q : Nat) (x : Queue) (t' : Nat) : (s.setQueue q x).sub t' = s.sub t' := rfl
@[simp] theorem State.setQueue_prog_same (s : State) (q : Nat) (x : Queue) (k' : Nat) : (s.setQueue q x).prog k' = s.prog k' := rfl
@[simp] theorem State.setQueue_win_same (s : State) (q : Nat) (x : Queue) (w' : Nat) : (s.setQueue q x).win w' = s.win w' := rfl
@[simp] theorem State.setQueue_func_same (s : State) (q : Nat) (x : Queue) (f' : Nat) : (s.setQueue q x).func f' = s.func f' := rfl
@[simp] theorem State.setQueue_part_same (s : State) (q : Nat) (x : Queue) (p' : Nat) : (s.setQueue q x).part p' = s.part p' := rfl
@[simp] theorem State.setQueue_hall_same (s : State) (q : Nat) (x : Queue) (h' : Nat) : (s.setQueue q x).hall h' = s.hall h' := rfl
@[simp] theorem State.setMobj_regs (s : State) (m : Nat) (x : MObj) : (s.setMobj m x).regs = s.regs := rfl
@[simp] theorem State.setMobj_gals (s : State) (m : Nat) (x : MObj) : (s.setMobj m x).gals = s.gals := rfl
@[simp] theorem State.setMobj_engs (s : State) (m : Nat) (x : MObj) : (s.setMobj m x).engs = s.engs := rfl
@[simp] theorem State.setMobj_pool (s : State) (m : Nat) (x : MObj) : (s.setMobj m x).pool = s.pool := rfl
@[simp] theorem State.setMobj_poolErr (s : State) (m : Nat) (x : MObj) : (s.setMobj m x).poolErr = s.poolErr := rfl
@[simp] theorem State.setMobj_softRows (s : State) (m : Nat) (x : MObj) : (s.setMobj m x).softRows = s.softRows := rfl
@[simp] theorem State.setMobj_softLanes (s : State) (m : Nat) (x : MObj) : (s.setMobj m x).softLanes = s.softLanes := rfl
@[simp] theorem State.setMobj_pmem (s : State) (m : Nat) (x : MObj) : (s.setMobj m x).pmem = s.pmem := rfl
@[simp] theorem State.setMobj_chans (s : State) (m : Nat) (x : MObj) : (s.setMobj m x).chans = s.chans := rfl
@[simp] theorem State.setMobj_lineErr (s : State) (m : Nat) (x : MObj) : (s.setMobj m x).lineErr = s.lineErr := rfl
@[simp] theorem State.setMobj_ownCache (s : State) (m : Nat) (x : MObj) : (s.setMobj m x).ownCache = s.ownCache := rfl
@[simp] theorem State.setMobj_ownPend (s : State) (m : Nat) (x : MObj) : (s.setMobj m x).ownPend = s.ownPend := rfl
@[simp] theorem State.setMobj_relays (s : State) (m : Nat) (x : MObj) : (s.setMobj m x).relays = s.relays := rfl
@[simp] theorem State.setMobj_fills (s : State) (m : Nat) (x : MObj) : (s.setMobj m x).fills = s.fills := rfl
@[simp] theorem State.setMobj_slots (s : State) (m : Nat) (x : MObj) : (s.setMobj m x).slots = s.slots := rfl
@[simp] theorem State.setMobj_retired (s : State) (m : Nat) (x : MObj) : (s.setMobj m x).retired = s.retired := rfl
@[simp] theorem State.setMobj_sec (s : State) (m : Nat) (x : MObj) : (s.setMobj m x).sec = s.sec := rfl
@[simp] theorem State.setMobj_flash (s : State) (m : Nat) (x : MObj) : (s.setMobj m x).flash = s.flash := rfl
@[simp] theorem State.setMobj_pwr (s : State) (m : Nat) (x : MObj) : (s.setMobj m x).pwr = s.pwr := rfl
@[simp] theorem State.setMobj_fw (s : State) (m : Nat) (x : MObj) : (s.setMobj m x).fw = s.fw := rfl
@[simp] theorem State.setMobj_board (s : State) (m : Nat) (x : MObj) : (s.setMobj m x).board = s.board := rfl
@[simp] theorem State.setMobj_host (s : State) (m : Nat) (x : MObj) : (s.setMobj m x).host = s.host := rfl
@[simp] theorem State.setMobj_ctxs (s : State) (m : Nat) (x : MObj) : (s.setMobj m x).ctxs = s.ctxs := rfl
@[simp] theorem State.setMobj_queues (s : State) (m : Nat) (x : MObj) : (s.setMobj m x).queues = s.queues := rfl
@[simp] theorem State.setMobj_fences (s : State) (m : Nat) (x : MObj) : (s.setMobj m x).fences = s.fences := rfl
@[simp] theorem State.setMobj_subs (s : State) (m : Nat) (x : MObj) : (s.setMobj m x).subs = s.subs := rfl
@[simp] theorem State.setMobj_nextSub (s : State) (m : Nat) (x : MObj) : (s.setMobj m x).nextSub = s.nextSub := rfl
@[simp] theorem State.setMobj_nextSeq (s : State) (m : Nat) (x : MObj) : (s.setMobj m x).nextSeq = s.nextSeq := rfl
@[simp] theorem State.setMobj_progs (s : State) (m : Nat) (x : MObj) : (s.setMobj m x).progs = s.progs := rfl
@[simp] theorem State.setMobj_wins (s : State) (m : Nat) (x : MObj) : (s.setMobj m x).wins = s.wins := rfl
@[simp] theorem State.setMobj_funcs (s : State) (m : Nat) (x : MObj) : (s.setMobj m x).funcs = s.funcs := rfl
@[simp] theorem State.setMobj_lats (s : State) (m : Nat) (x : MObj) : (s.setMobj m x).lats = s.lats := rfl
@[simp] theorem State.setMobj_tokens (s : State) (m : Nat) (x : MObj) : (s.setMobj m x).tokens = s.tokens := rfl
@[simp] theorem State.setMobj_mlSwap (s : State) (m : Nat) (x : MObj) : (s.setMobj m x).mlSwap = s.mlSwap := rfl
@[simp] theorem State.setMobj_map (s : State) (m : Nat) (x : MObj) : (s.setMobj m x).map = s.map := rfl
@[simp] theorem State.setMobj_svy (s : State) (m : Nat) (x : MObj) : (s.setMobj m x).svy = s.svy := rfl
@[simp] theorem State.setMobj_ras (s : State) (m : Nat) (x : MObj) : (s.setMobj m x).ras = s.ras := rfl
@[simp] theorem State.setMobj_sesss (s : State) (m : Nat) (x : MObj) : (s.setMobj m x).sesss = s.sesss := rfl
@[simp] theorem State.setMobj_ports (s : State) (m : Nat) (x : MObj) : (s.setMobj m x).ports = s.ports := rfl
@[simp] theorem State.setMobj_reqs (s : State) (m : Nat) (x : MObj) : (s.setMobj m x).reqs = s.reqs := rfl
@[simp] theorem State.setMobj_heldReduce (s : State) (m : Nat) (x : MObj) : (s.setMobj m x).heldReduce = s.heldReduce := rfl
@[simp] theorem State.setMobj_flinks (s : State) (m : Nat) (x : MObj) : (s.setMobj m x).flinks = s.flinks := rfl
@[simp] theorem State.setMobj_seqs (s : State) (m : Nat) (x : MObj) : (s.setMobj m x).seqs = s.seqs := rfl
@[simp] theorem State.setMobj_pgrs (s : State) (m : Nat) (x : MObj) : (s.setMobj m x).pgrs = s.pgrs := rfl
@[simp] theorem State.setMobj_pgals (s : State) (m : Nat) (x : MObj) : (s.setMobj m x).pgals = s.pgals := rfl
@[simp] theorem State.setMobj_clocks (s : State) (m : Nat) (x : MObj) : (s.setMobj m x).clocks = s.clocks := rfl
@[simp] theorem State.setMobj_snapping (s : State) (m : Nat) (x : MObj) : (s.setMobj m x).snapping = s.snapping := rfl
@[simp] theorem State.setMobj_hostStop (s : State) (m : Nat) (x : MObj) : (s.setMobj m x).hostStop = s.hostStop := rfl
@[simp] theorem State.setMobj_out (s : State) (m : Nat) (x : MObj) : (s.setMobj m x).out = s.out := rfl
@[simp] theorem State.setMobj_tick (s : State) (m : Nat) (x : MObj) : (s.setMobj m x).tick = s.tick := rfl
@[simp] theorem State.setMobj_pending (s : State) (m : Nat) (x : MObj) : (s.setMobj m x).pending = s.pending := rfl
@[simp] theorem State.setMobj_rd_same (s : State) (m : Nat) (x : MObj) (f' : Fld) (i' : Nat) : (s.setMobj m x).rd f' i' = s.rd f' i' := rfl
@[simp] theorem State.setMobj_flag_same (s : State) (m : Nat) (x : MObj) (f' : Fld) (i' : Nat) : (s.setMobj m x).flag f' i' = s.flag f' i' := rfl
@[simp] theorem State.setMobj_gal_same (s : State) (m : Nat) (x : MObj) (g' : Nat) : (s.setMobj m x).gal g' = s.gal g' := rfl
@[simp] theorem State.setMobj_eng_same (s : State) (m : Nat) (x : MObj) (k' : Nat) : (s.setMobj m x).eng k' = s.eng k' := rfl
@[simp] theorem State.setMobj_ctx_same (s : State) (m : Nat) (x : MObj) (c' : Nat) : (s.setMobj m x).ctx c' = s.ctx c' := rfl
@[simp] theorem State.setMobj_queue_same (s : State) (m : Nat) (x : MObj) (q' : Nat) : (s.setMobj m x).queue q' = s.queue q' := rfl
@[simp] theorem State.setMobj_fence_same (s : State) (m : Nat) (x : MObj) (k' : Nat) : (s.setMobj m x).fence k' = s.fence k' := rfl
@[simp] theorem State.setMobj_sub_same (s : State) (m : Nat) (x : MObj) (t' : Nat) : (s.setMobj m x).sub t' = s.sub t' := rfl
@[simp] theorem State.setMobj_prog_same (s : State) (m : Nat) (x : MObj) (k' : Nat) : (s.setMobj m x).prog k' = s.prog k' := rfl
@[simp] theorem State.setMobj_win_same (s : State) (m : Nat) (x : MObj) (w' : Nat) : (s.setMobj m x).win w' = s.win w' := rfl
@[simp] theorem State.setMobj_func_same (s : State) (m : Nat) (x : MObj) (f' : Nat) : (s.setMobj m x).func f' = s.func f' := rfl
@[simp] theorem State.setMobj_part_same (s : State) (m : Nat) (x : MObj) (p' : Nat) : (s.setMobj m x).part p' = s.part p' := rfl
@[simp] theorem State.setMobj_hall_same (s : State) (m : Nat) (x : MObj) (h' : Nat) : (s.setMobj m x).hall h' = s.hall h' := rfl
@[simp] theorem State.setFence_regs (s : State) (k : Nat) (x : Fence) : (s.setFence k x).regs = s.regs := rfl
@[simp] theorem State.setFence_gals (s : State) (k : Nat) (x : Fence) : (s.setFence k x).gals = s.gals := rfl
@[simp] theorem State.setFence_engs (s : State) (k : Nat) (x : Fence) : (s.setFence k x).engs = s.engs := rfl
@[simp] theorem State.setFence_pool (s : State) (k : Nat) (x : Fence) : (s.setFence k x).pool = s.pool := rfl
@[simp] theorem State.setFence_poolErr (s : State) (k : Nat) (x : Fence) : (s.setFence k x).poolErr = s.poolErr := rfl
@[simp] theorem State.setFence_softRows (s : State) (k : Nat) (x : Fence) : (s.setFence k x).softRows = s.softRows := rfl
@[simp] theorem State.setFence_softLanes (s : State) (k : Nat) (x : Fence) : (s.setFence k x).softLanes = s.softLanes := rfl
@[simp] theorem State.setFence_pmem (s : State) (k : Nat) (x : Fence) : (s.setFence k x).pmem = s.pmem := rfl
@[simp] theorem State.setFence_chans (s : State) (k : Nat) (x : Fence) : (s.setFence k x).chans = s.chans := rfl
@[simp] theorem State.setFence_lineErr (s : State) (k : Nat) (x : Fence) : (s.setFence k x).lineErr = s.lineErr := rfl
@[simp] theorem State.setFence_ownCache (s : State) (k : Nat) (x : Fence) : (s.setFence k x).ownCache = s.ownCache := rfl
@[simp] theorem State.setFence_ownPend (s : State) (k : Nat) (x : Fence) : (s.setFence k x).ownPend = s.ownPend := rfl
@[simp] theorem State.setFence_relays (s : State) (k : Nat) (x : Fence) : (s.setFence k x).relays = s.relays := rfl
@[simp] theorem State.setFence_fills (s : State) (k : Nat) (x : Fence) : (s.setFence k x).fills = s.fills := rfl
@[simp] theorem State.setFence_slots (s : State) (k : Nat) (x : Fence) : (s.setFence k x).slots = s.slots := rfl
@[simp] theorem State.setFence_retired (s : State) (k : Nat) (x : Fence) : (s.setFence k x).retired = s.retired := rfl
@[simp] theorem State.setFence_sec (s : State) (k : Nat) (x : Fence) : (s.setFence k x).sec = s.sec := rfl
@[simp] theorem State.setFence_flash (s : State) (k : Nat) (x : Fence) : (s.setFence k x).flash = s.flash := rfl
@[simp] theorem State.setFence_pwr (s : State) (k : Nat) (x : Fence) : (s.setFence k x).pwr = s.pwr := rfl
@[simp] theorem State.setFence_fw (s : State) (k : Nat) (x : Fence) : (s.setFence k x).fw = s.fw := rfl
@[simp] theorem State.setFence_board (s : State) (k : Nat) (x : Fence) : (s.setFence k x).board = s.board := rfl
@[simp] theorem State.setFence_host (s : State) (k : Nat) (x : Fence) : (s.setFence k x).host = s.host := rfl
@[simp] theorem State.setFence_ctxs (s : State) (k : Nat) (x : Fence) : (s.setFence k x).ctxs = s.ctxs := rfl
@[simp] theorem State.setFence_queues (s : State) (k : Nat) (x : Fence) : (s.setFence k x).queues = s.queues := rfl
@[simp] theorem State.setFence_mobjs (s : State) (k : Nat) (x : Fence) : (s.setFence k x).mobjs = s.mobjs := rfl
@[simp] theorem State.setFence_subs (s : State) (k : Nat) (x : Fence) : (s.setFence k x).subs = s.subs := rfl
@[simp] theorem State.setFence_nextSub (s : State) (k : Nat) (x : Fence) : (s.setFence k x).nextSub = s.nextSub := rfl
@[simp] theorem State.setFence_nextSeq (s : State) (k : Nat) (x : Fence) : (s.setFence k x).nextSeq = s.nextSeq := rfl
@[simp] theorem State.setFence_progs (s : State) (k : Nat) (x : Fence) : (s.setFence k x).progs = s.progs := rfl
@[simp] theorem State.setFence_wins (s : State) (k : Nat) (x : Fence) : (s.setFence k x).wins = s.wins := rfl
@[simp] theorem State.setFence_funcs (s : State) (k : Nat) (x : Fence) : (s.setFence k x).funcs = s.funcs := rfl
@[simp] theorem State.setFence_lats (s : State) (k : Nat) (x : Fence) : (s.setFence k x).lats = s.lats := rfl
@[simp] theorem State.setFence_tokens (s : State) (k : Nat) (x : Fence) : (s.setFence k x).tokens = s.tokens := rfl
@[simp] theorem State.setFence_mlSwap (s : State) (k : Nat) (x : Fence) : (s.setFence k x).mlSwap = s.mlSwap := rfl
@[simp] theorem State.setFence_map (s : State) (k : Nat) (x : Fence) : (s.setFence k x).map = s.map := rfl
@[simp] theorem State.setFence_svy (s : State) (k : Nat) (x : Fence) : (s.setFence k x).svy = s.svy := rfl
@[simp] theorem State.setFence_ras (s : State) (k : Nat) (x : Fence) : (s.setFence k x).ras = s.ras := rfl
@[simp] theorem State.setFence_sesss (s : State) (k : Nat) (x : Fence) : (s.setFence k x).sesss = s.sesss := rfl
@[simp] theorem State.setFence_ports (s : State) (k : Nat) (x : Fence) : (s.setFence k x).ports = s.ports := rfl
@[simp] theorem State.setFence_reqs (s : State) (k : Nat) (x : Fence) : (s.setFence k x).reqs = s.reqs := rfl
@[simp] theorem State.setFence_heldReduce (s : State) (k : Nat) (x : Fence) : (s.setFence k x).heldReduce = s.heldReduce := rfl
@[simp] theorem State.setFence_flinks (s : State) (k : Nat) (x : Fence) : (s.setFence k x).flinks = s.flinks := rfl
@[simp] theorem State.setFence_seqs (s : State) (k : Nat) (x : Fence) : (s.setFence k x).seqs = s.seqs := rfl
@[simp] theorem State.setFence_pgrs (s : State) (k : Nat) (x : Fence) : (s.setFence k x).pgrs = s.pgrs := rfl
@[simp] theorem State.setFence_pgals (s : State) (k : Nat) (x : Fence) : (s.setFence k x).pgals = s.pgals := rfl
@[simp] theorem State.setFence_clocks (s : State) (k : Nat) (x : Fence) : (s.setFence k x).clocks = s.clocks := rfl
@[simp] theorem State.setFence_snapping (s : State) (k : Nat) (x : Fence) : (s.setFence k x).snapping = s.snapping := rfl
@[simp] theorem State.setFence_hostStop (s : State) (k : Nat) (x : Fence) : (s.setFence k x).hostStop = s.hostStop := rfl
@[simp] theorem State.setFence_out (s : State) (k : Nat) (x : Fence) : (s.setFence k x).out = s.out := rfl
@[simp] theorem State.setFence_tick (s : State) (k : Nat) (x : Fence) : (s.setFence k x).tick = s.tick := rfl
@[simp] theorem State.setFence_pending (s : State) (k : Nat) (x : Fence) : (s.setFence k x).pending = s.pending := rfl
@[simp] theorem State.setFence_rd_same (s : State) (k : Nat) (x : Fence) (f' : Fld) (i' : Nat) : (s.setFence k x).rd f' i' = s.rd f' i' := rfl
@[simp] theorem State.setFence_flag_same (s : State) (k : Nat) (x : Fence) (f' : Fld) (i' : Nat) : (s.setFence k x).flag f' i' = s.flag f' i' := rfl
@[simp] theorem State.setFence_gal_same (s : State) (k : Nat) (x : Fence) (g' : Nat) : (s.setFence k x).gal g' = s.gal g' := rfl
@[simp] theorem State.setFence_eng_same (s : State) (k : Nat) (x : Fence) (k' : Nat) : (s.setFence k x).eng k' = s.eng k' := rfl
@[simp] theorem State.setFence_ctx_same (s : State) (k : Nat) (x : Fence) (c' : Nat) : (s.setFence k x).ctx c' = s.ctx c' := rfl
@[simp] theorem State.setFence_queue_same (s : State) (k : Nat) (x : Fence) (q' : Nat) : (s.setFence k x).queue q' = s.queue q' := rfl
@[simp] theorem State.setFence_mobj_same (s : State) (k : Nat) (x : Fence) (m' : Nat) : (s.setFence k x).mobj m' = s.mobj m' := rfl
@[simp] theorem State.setFence_sub_same (s : State) (k : Nat) (x : Fence) (t' : Nat) : (s.setFence k x).sub t' = s.sub t' := rfl
@[simp] theorem State.setFence_prog_same (s : State) (k : Nat) (x : Fence) (k' : Nat) : (s.setFence k x).prog k' = s.prog k' := rfl
@[simp] theorem State.setFence_win_same (s : State) (k : Nat) (x : Fence) (w' : Nat) : (s.setFence k x).win w' = s.win w' := rfl
@[simp] theorem State.setFence_func_same (s : State) (k : Nat) (x : Fence) (f' : Nat) : (s.setFence k x).func f' = s.func f' := rfl
@[simp] theorem State.setFence_part_same (s : State) (k : Nat) (x : Fence) (p' : Nat) : (s.setFence k x).part p' = s.part p' := rfl
@[simp] theorem State.setFence_hall_same (s : State) (k : Nat) (x : Fence) (h' : Nat) : (s.setFence k x).hall h' = s.hall h' := rfl
@[simp] theorem State.setSub_regs (s : State) (t : Nat) (x : Sub) : (s.setSub t x).regs = s.regs := rfl
@[simp] theorem State.setSub_gals (s : State) (t : Nat) (x : Sub) : (s.setSub t x).gals = s.gals := rfl
@[simp] theorem State.setSub_engs (s : State) (t : Nat) (x : Sub) : (s.setSub t x).engs = s.engs := rfl
@[simp] theorem State.setSub_pool (s : State) (t : Nat) (x : Sub) : (s.setSub t x).pool = s.pool := rfl
@[simp] theorem State.setSub_poolErr (s : State) (t : Nat) (x : Sub) : (s.setSub t x).poolErr = s.poolErr := rfl
@[simp] theorem State.setSub_softRows (s : State) (t : Nat) (x : Sub) : (s.setSub t x).softRows = s.softRows := rfl
@[simp] theorem State.setSub_softLanes (s : State) (t : Nat) (x : Sub) : (s.setSub t x).softLanes = s.softLanes := rfl
@[simp] theorem State.setSub_pmem (s : State) (t : Nat) (x : Sub) : (s.setSub t x).pmem = s.pmem := rfl
@[simp] theorem State.setSub_chans (s : State) (t : Nat) (x : Sub) : (s.setSub t x).chans = s.chans := rfl
@[simp] theorem State.setSub_lineErr (s : State) (t : Nat) (x : Sub) : (s.setSub t x).lineErr = s.lineErr := rfl
@[simp] theorem State.setSub_ownCache (s : State) (t : Nat) (x : Sub) : (s.setSub t x).ownCache = s.ownCache := rfl
@[simp] theorem State.setSub_ownPend (s : State) (t : Nat) (x : Sub) : (s.setSub t x).ownPend = s.ownPend := rfl
@[simp] theorem State.setSub_relays (s : State) (t : Nat) (x : Sub) : (s.setSub t x).relays = s.relays := rfl
@[simp] theorem State.setSub_fills (s : State) (t : Nat) (x : Sub) : (s.setSub t x).fills = s.fills := rfl
@[simp] theorem State.setSub_slots (s : State) (t : Nat) (x : Sub) : (s.setSub t x).slots = s.slots := rfl
@[simp] theorem State.setSub_retired (s : State) (t : Nat) (x : Sub) : (s.setSub t x).retired = s.retired := rfl
@[simp] theorem State.setSub_sec (s : State) (t : Nat) (x : Sub) : (s.setSub t x).sec = s.sec := rfl
@[simp] theorem State.setSub_flash (s : State) (t : Nat) (x : Sub) : (s.setSub t x).flash = s.flash := rfl
@[simp] theorem State.setSub_pwr (s : State) (t : Nat) (x : Sub) : (s.setSub t x).pwr = s.pwr := rfl
@[simp] theorem State.setSub_fw (s : State) (t : Nat) (x : Sub) : (s.setSub t x).fw = s.fw := rfl
@[simp] theorem State.setSub_board (s : State) (t : Nat) (x : Sub) : (s.setSub t x).board = s.board := rfl
@[simp] theorem State.setSub_host (s : State) (t : Nat) (x : Sub) : (s.setSub t x).host = s.host := rfl
@[simp] theorem State.setSub_ctxs (s : State) (t : Nat) (x : Sub) : (s.setSub t x).ctxs = s.ctxs := rfl
@[simp] theorem State.setSub_queues (s : State) (t : Nat) (x : Sub) : (s.setSub t x).queues = s.queues := rfl
@[simp] theorem State.setSub_mobjs (s : State) (t : Nat) (x : Sub) : (s.setSub t x).mobjs = s.mobjs := rfl
@[simp] theorem State.setSub_fences (s : State) (t : Nat) (x : Sub) : (s.setSub t x).fences = s.fences := rfl
@[simp] theorem State.setSub_nextSub (s : State) (t : Nat) (x : Sub) : (s.setSub t x).nextSub = s.nextSub := rfl
@[simp] theorem State.setSub_nextSeq (s : State) (t : Nat) (x : Sub) : (s.setSub t x).nextSeq = s.nextSeq := rfl
@[simp] theorem State.setSub_progs (s : State) (t : Nat) (x : Sub) : (s.setSub t x).progs = s.progs := rfl
@[simp] theorem State.setSub_wins (s : State) (t : Nat) (x : Sub) : (s.setSub t x).wins = s.wins := rfl
@[simp] theorem State.setSub_funcs (s : State) (t : Nat) (x : Sub) : (s.setSub t x).funcs = s.funcs := rfl
@[simp] theorem State.setSub_lats (s : State) (t : Nat) (x : Sub) : (s.setSub t x).lats = s.lats := rfl
@[simp] theorem State.setSub_tokens (s : State) (t : Nat) (x : Sub) : (s.setSub t x).tokens = s.tokens := rfl
@[simp] theorem State.setSub_mlSwap (s : State) (t : Nat) (x : Sub) : (s.setSub t x).mlSwap = s.mlSwap := rfl
@[simp] theorem State.setSub_map (s : State) (t : Nat) (x : Sub) : (s.setSub t x).map = s.map := rfl
@[simp] theorem State.setSub_svy (s : State) (t : Nat) (x : Sub) : (s.setSub t x).svy = s.svy := rfl
@[simp] theorem State.setSub_ras (s : State) (t : Nat) (x : Sub) : (s.setSub t x).ras = s.ras := rfl
@[simp] theorem State.setSub_sesss (s : State) (t : Nat) (x : Sub) : (s.setSub t x).sesss = s.sesss := rfl
@[simp] theorem State.setSub_ports (s : State) (t : Nat) (x : Sub) : (s.setSub t x).ports = s.ports := rfl
@[simp] theorem State.setSub_reqs (s : State) (t : Nat) (x : Sub) : (s.setSub t x).reqs = s.reqs := rfl
@[simp] theorem State.setSub_heldReduce (s : State) (t : Nat) (x : Sub) : (s.setSub t x).heldReduce = s.heldReduce := rfl
@[simp] theorem State.setSub_flinks (s : State) (t : Nat) (x : Sub) : (s.setSub t x).flinks = s.flinks := rfl
@[simp] theorem State.setSub_seqs (s : State) (t : Nat) (x : Sub) : (s.setSub t x).seqs = s.seqs := rfl
@[simp] theorem State.setSub_pgrs (s : State) (t : Nat) (x : Sub) : (s.setSub t x).pgrs = s.pgrs := rfl
@[simp] theorem State.setSub_pgals (s : State) (t : Nat) (x : Sub) : (s.setSub t x).pgals = s.pgals := rfl
@[simp] theorem State.setSub_clocks (s : State) (t : Nat) (x : Sub) : (s.setSub t x).clocks = s.clocks := rfl
@[simp] theorem State.setSub_snapping (s : State) (t : Nat) (x : Sub) : (s.setSub t x).snapping = s.snapping := rfl
@[simp] theorem State.setSub_hostStop (s : State) (t : Nat) (x : Sub) : (s.setSub t x).hostStop = s.hostStop := rfl
@[simp] theorem State.setSub_out (s : State) (t : Nat) (x : Sub) : (s.setSub t x).out = s.out := rfl
@[simp] theorem State.setSub_tick (s : State) (t : Nat) (x : Sub) : (s.setSub t x).tick = s.tick := rfl
@[simp] theorem State.setSub_pending (s : State) (t : Nat) (x : Sub) : (s.setSub t x).pending = s.pending := rfl
@[simp] theorem State.setSub_rd_same (s : State) (t : Nat) (x : Sub) (f' : Fld) (i' : Nat) : (s.setSub t x).rd f' i' = s.rd f' i' := rfl
@[simp] theorem State.setSub_flag_same (s : State) (t : Nat) (x : Sub) (f' : Fld) (i' : Nat) : (s.setSub t x).flag f' i' = s.flag f' i' := rfl
@[simp] theorem State.setSub_gal_same (s : State) (t : Nat) (x : Sub) (g' : Nat) : (s.setSub t x).gal g' = s.gal g' := rfl
@[simp] theorem State.setSub_eng_same (s : State) (t : Nat) (x : Sub) (k' : Nat) : (s.setSub t x).eng k' = s.eng k' := rfl
@[simp] theorem State.setSub_ctx_same (s : State) (t : Nat) (x : Sub) (c' : Nat) : (s.setSub t x).ctx c' = s.ctx c' := rfl
@[simp] theorem State.setSub_queue_same (s : State) (t : Nat) (x : Sub) (q' : Nat) : (s.setSub t x).queue q' = s.queue q' := rfl
@[simp] theorem State.setSub_mobj_same (s : State) (t : Nat) (x : Sub) (m' : Nat) : (s.setSub t x).mobj m' = s.mobj m' := rfl
@[simp] theorem State.setSub_fence_same (s : State) (t : Nat) (x : Sub) (k' : Nat) : (s.setSub t x).fence k' = s.fence k' := rfl
@[simp] theorem State.setSub_prog_same (s : State) (t : Nat) (x : Sub) (k' : Nat) : (s.setSub t x).prog k' = s.prog k' := rfl
@[simp] theorem State.setSub_win_same (s : State) (t : Nat) (x : Sub) (w' : Nat) : (s.setSub t x).win w' = s.win w' := rfl
@[simp] theorem State.setSub_func_same (s : State) (t : Nat) (x : Sub) (f' : Nat) : (s.setSub t x).func f' = s.func f' := rfl
@[simp] theorem State.setSub_part_same (s : State) (t : Nat) (x : Sub) (p' : Nat) : (s.setSub t x).part p' = s.part p' := rfl
@[simp] theorem State.setSub_hall_same (s : State) (t : Nat) (x : Sub) (h' : Nat) : (s.setSub t x).hall h' = s.hall h' := rfl
@[simp] theorem State.setProg_regs (s : State) (k : Nat) (x : Prog) : (s.setProg k x).regs = s.regs := rfl
@[simp] theorem State.setProg_gals (s : State) (k : Nat) (x : Prog) : (s.setProg k x).gals = s.gals := rfl
@[simp] theorem State.setProg_engs (s : State) (k : Nat) (x : Prog) : (s.setProg k x).engs = s.engs := rfl
@[simp] theorem State.setProg_pool (s : State) (k : Nat) (x : Prog) : (s.setProg k x).pool = s.pool := rfl
@[simp] theorem State.setProg_poolErr (s : State) (k : Nat) (x : Prog) : (s.setProg k x).poolErr = s.poolErr := rfl
@[simp] theorem State.setProg_softRows (s : State) (k : Nat) (x : Prog) : (s.setProg k x).softRows = s.softRows := rfl
@[simp] theorem State.setProg_softLanes (s : State) (k : Nat) (x : Prog) : (s.setProg k x).softLanes = s.softLanes := rfl
@[simp] theorem State.setProg_pmem (s : State) (k : Nat) (x : Prog) : (s.setProg k x).pmem = s.pmem := rfl
@[simp] theorem State.setProg_chans (s : State) (k : Nat) (x : Prog) : (s.setProg k x).chans = s.chans := rfl
@[simp] theorem State.setProg_lineErr (s : State) (k : Nat) (x : Prog) : (s.setProg k x).lineErr = s.lineErr := rfl
@[simp] theorem State.setProg_ownCache (s : State) (k : Nat) (x : Prog) : (s.setProg k x).ownCache = s.ownCache := rfl
@[simp] theorem State.setProg_ownPend (s : State) (k : Nat) (x : Prog) : (s.setProg k x).ownPend = s.ownPend := rfl
@[simp] theorem State.setProg_relays (s : State) (k : Nat) (x : Prog) : (s.setProg k x).relays = s.relays := rfl
@[simp] theorem State.setProg_fills (s : State) (k : Nat) (x : Prog) : (s.setProg k x).fills = s.fills := rfl
@[simp] theorem State.setProg_slots (s : State) (k : Nat) (x : Prog) : (s.setProg k x).slots = s.slots := rfl
@[simp] theorem State.setProg_retired (s : State) (k : Nat) (x : Prog) : (s.setProg k x).retired = s.retired := rfl
@[simp] theorem State.setProg_sec (s : State) (k : Nat) (x : Prog) : (s.setProg k x).sec = s.sec := rfl
@[simp] theorem State.setProg_flash (s : State) (k : Nat) (x : Prog) : (s.setProg k x).flash = s.flash := rfl
@[simp] theorem State.setProg_pwr (s : State) (k : Nat) (x : Prog) : (s.setProg k x).pwr = s.pwr := rfl
@[simp] theorem State.setProg_fw (s : State) (k : Nat) (x : Prog) : (s.setProg k x).fw = s.fw := rfl
@[simp] theorem State.setProg_board (s : State) (k : Nat) (x : Prog) : (s.setProg k x).board = s.board := rfl
@[simp] theorem State.setProg_host (s : State) (k : Nat) (x : Prog) : (s.setProg k x).host = s.host := rfl
@[simp] theorem State.setProg_ctxs (s : State) (k : Nat) (x : Prog) : (s.setProg k x).ctxs = s.ctxs := rfl
@[simp] theorem State.setProg_queues (s : State) (k : Nat) (x : Prog) : (s.setProg k x).queues = s.queues := rfl
@[simp] theorem State.setProg_mobjs (s : State) (k : Nat) (x : Prog) : (s.setProg k x).mobjs = s.mobjs := rfl
@[simp] theorem State.setProg_fences (s : State) (k : Nat) (x : Prog) : (s.setProg k x).fences = s.fences := rfl
@[simp] theorem State.setProg_subs (s : State) (k : Nat) (x : Prog) : (s.setProg k x).subs = s.subs := rfl
@[simp] theorem State.setProg_nextSub (s : State) (k : Nat) (x : Prog) : (s.setProg k x).nextSub = s.nextSub := rfl
@[simp] theorem State.setProg_nextSeq (s : State) (k : Nat) (x : Prog) : (s.setProg k x).nextSeq = s.nextSeq := rfl
@[simp] theorem State.setProg_wins (s : State) (k : Nat) (x : Prog) : (s.setProg k x).wins = s.wins := rfl
@[simp] theorem State.setProg_funcs (s : State) (k : Nat) (x : Prog) : (s.setProg k x).funcs = s.funcs := rfl
@[simp] theorem State.setProg_lats (s : State) (k : Nat) (x : Prog) : (s.setProg k x).lats = s.lats := rfl
@[simp] theorem State.setProg_tokens (s : State) (k : Nat) (x : Prog) : (s.setProg k x).tokens = s.tokens := rfl
@[simp] theorem State.setProg_mlSwap (s : State) (k : Nat) (x : Prog) : (s.setProg k x).mlSwap = s.mlSwap := rfl
@[simp] theorem State.setProg_map (s : State) (k : Nat) (x : Prog) : (s.setProg k x).map = s.map := rfl
@[simp] theorem State.setProg_svy (s : State) (k : Nat) (x : Prog) : (s.setProg k x).svy = s.svy := rfl
@[simp] theorem State.setProg_ras (s : State) (k : Nat) (x : Prog) : (s.setProg k x).ras = s.ras := rfl
@[simp] theorem State.setProg_sesss (s : State) (k : Nat) (x : Prog) : (s.setProg k x).sesss = s.sesss := rfl
@[simp] theorem State.setProg_ports (s : State) (k : Nat) (x : Prog) : (s.setProg k x).ports = s.ports := rfl
@[simp] theorem State.setProg_reqs (s : State) (k : Nat) (x : Prog) : (s.setProg k x).reqs = s.reqs := rfl
@[simp] theorem State.setProg_heldReduce (s : State) (k : Nat) (x : Prog) : (s.setProg k x).heldReduce = s.heldReduce := rfl
@[simp] theorem State.setProg_flinks (s : State) (k : Nat) (x : Prog) : (s.setProg k x).flinks = s.flinks := rfl
@[simp] theorem State.setProg_seqs (s : State) (k : Nat) (x : Prog) : (s.setProg k x).seqs = s.seqs := rfl
@[simp] theorem State.setProg_pgrs (s : State) (k : Nat) (x : Prog) : (s.setProg k x).pgrs = s.pgrs := rfl
@[simp] theorem State.setProg_pgals (s : State) (k : Nat) (x : Prog) : (s.setProg k x).pgals = s.pgals := rfl
@[simp] theorem State.setProg_clocks (s : State) (k : Nat) (x : Prog) : (s.setProg k x).clocks = s.clocks := rfl
@[simp] theorem State.setProg_snapping (s : State) (k : Nat) (x : Prog) : (s.setProg k x).snapping = s.snapping := rfl
@[simp] theorem State.setProg_hostStop (s : State) (k : Nat) (x : Prog) : (s.setProg k x).hostStop = s.hostStop := rfl
@[simp] theorem State.setProg_out (s : State) (k : Nat) (x : Prog) : (s.setProg k x).out = s.out := rfl
@[simp] theorem State.setProg_tick (s : State) (k : Nat) (x : Prog) : (s.setProg k x).tick = s.tick := rfl
@[simp] theorem State.setProg_pending (s : State) (k : Nat) (x : Prog) : (s.setProg k x).pending = s.pending := rfl
@[simp] theorem State.setProg_rd_same (s : State) (k : Nat) (x : Prog) (f' : Fld) (i' : Nat) : (s.setProg k x).rd f' i' = s.rd f' i' := rfl
@[simp] theorem State.setProg_flag_same (s : State) (k : Nat) (x : Prog) (f' : Fld) (i' : Nat) : (s.setProg k x).flag f' i' = s.flag f' i' := rfl
@[simp] theorem State.setProg_gal_same (s : State) (k : Nat) (x : Prog) (g' : Nat) : (s.setProg k x).gal g' = s.gal g' := rfl
@[simp] theorem State.setProg_eng_same (s : State) (k : Nat) (x : Prog) (k' : Nat) : (s.setProg k x).eng k' = s.eng k' := rfl
@[simp] theorem State.setProg_ctx_same (s : State) (k : Nat) (x : Prog) (c' : Nat) : (s.setProg k x).ctx c' = s.ctx c' := rfl
@[simp] theorem State.setProg_queue_same (s : State) (k : Nat) (x : Prog) (q' : Nat) : (s.setProg k x).queue q' = s.queue q' := rfl
@[simp] theorem State.setProg_mobj_same (s : State) (k : Nat) (x : Prog) (m' : Nat) : (s.setProg k x).mobj m' = s.mobj m' := rfl
@[simp] theorem State.setProg_fence_same (s : State) (k : Nat) (x : Prog) (k' : Nat) : (s.setProg k x).fence k' = s.fence k' := rfl
@[simp] theorem State.setProg_sub_same (s : State) (k : Nat) (x : Prog) (t' : Nat) : (s.setProg k x).sub t' = s.sub t' := rfl
@[simp] theorem State.setProg_win_same (s : State) (k : Nat) (x : Prog) (w' : Nat) : (s.setProg k x).win w' = s.win w' := rfl
@[simp] theorem State.setProg_func_same (s : State) (k : Nat) (x : Prog) (f' : Nat) : (s.setProg k x).func f' = s.func f' := rfl
@[simp] theorem State.setProg_part_same (s : State) (k : Nat) (x : Prog) (p' : Nat) : (s.setProg k x).part p' = s.part p' := rfl
@[simp] theorem State.setProg_hall_same (s : State) (k : Nat) (x : Prog) (h' : Nat) : (s.setProg k x).hall h' = s.hall h' := rfl
@[simp] theorem State.setWin_regs (s : State) (w : Nat) (x : Win) : (s.setWin w x).regs = s.regs := rfl
@[simp] theorem State.setWin_gals (s : State) (w : Nat) (x : Win) : (s.setWin w x).gals = s.gals := rfl
@[simp] theorem State.setWin_engs (s : State) (w : Nat) (x : Win) : (s.setWin w x).engs = s.engs := rfl
@[simp] theorem State.setWin_pool (s : State) (w : Nat) (x : Win) : (s.setWin w x).pool = s.pool := rfl
@[simp] theorem State.setWin_poolErr (s : State) (w : Nat) (x : Win) : (s.setWin w x).poolErr = s.poolErr := rfl
@[simp] theorem State.setWin_softRows (s : State) (w : Nat) (x : Win) : (s.setWin w x).softRows = s.softRows := rfl
@[simp] theorem State.setWin_softLanes (s : State) (w : Nat) (x : Win) : (s.setWin w x).softLanes = s.softLanes := rfl
@[simp] theorem State.setWin_pmem (s : State) (w : Nat) (x : Win) : (s.setWin w x).pmem = s.pmem := rfl
@[simp] theorem State.setWin_chans (s : State) (w : Nat) (x : Win) : (s.setWin w x).chans = s.chans := rfl
@[simp] theorem State.setWin_lineErr (s : State) (w : Nat) (x : Win) : (s.setWin w x).lineErr = s.lineErr := rfl
@[simp] theorem State.setWin_ownCache (s : State) (w : Nat) (x : Win) : (s.setWin w x).ownCache = s.ownCache := rfl
@[simp] theorem State.setWin_ownPend (s : State) (w : Nat) (x : Win) : (s.setWin w x).ownPend = s.ownPend := rfl
@[simp] theorem State.setWin_relays (s : State) (w : Nat) (x : Win) : (s.setWin w x).relays = s.relays := rfl
@[simp] theorem State.setWin_fills (s : State) (w : Nat) (x : Win) : (s.setWin w x).fills = s.fills := rfl
@[simp] theorem State.setWin_slots (s : State) (w : Nat) (x : Win) : (s.setWin w x).slots = s.slots := rfl
@[simp] theorem State.setWin_retired (s : State) (w : Nat) (x : Win) : (s.setWin w x).retired = s.retired := rfl
@[simp] theorem State.setWin_sec (s : State) (w : Nat) (x : Win) : (s.setWin w x).sec = s.sec := rfl
@[simp] theorem State.setWin_flash (s : State) (w : Nat) (x : Win) : (s.setWin w x).flash = s.flash := rfl
@[simp] theorem State.setWin_pwr (s : State) (w : Nat) (x : Win) : (s.setWin w x).pwr = s.pwr := rfl
@[simp] theorem State.setWin_fw (s : State) (w : Nat) (x : Win) : (s.setWin w x).fw = s.fw := rfl
@[simp] theorem State.setWin_board (s : State) (w : Nat) (x : Win) : (s.setWin w x).board = s.board := rfl
@[simp] theorem State.setWin_host (s : State) (w : Nat) (x : Win) : (s.setWin w x).host = s.host := rfl
@[simp] theorem State.setWin_ctxs (s : State) (w : Nat) (x : Win) : (s.setWin w x).ctxs = s.ctxs := rfl
@[simp] theorem State.setWin_queues (s : State) (w : Nat) (x : Win) : (s.setWin w x).queues = s.queues := rfl
@[simp] theorem State.setWin_mobjs (s : State) (w : Nat) (x : Win) : (s.setWin w x).mobjs = s.mobjs := rfl
@[simp] theorem State.setWin_fences (s : State) (w : Nat) (x : Win) : (s.setWin w x).fences = s.fences := rfl
@[simp] theorem State.setWin_subs (s : State) (w : Nat) (x : Win) : (s.setWin w x).subs = s.subs := rfl
@[simp] theorem State.setWin_nextSub (s : State) (w : Nat) (x : Win) : (s.setWin w x).nextSub = s.nextSub := rfl
@[simp] theorem State.setWin_nextSeq (s : State) (w : Nat) (x : Win) : (s.setWin w x).nextSeq = s.nextSeq := rfl
@[simp] theorem State.setWin_progs (s : State) (w : Nat) (x : Win) : (s.setWin w x).progs = s.progs := rfl
@[simp] theorem State.setWin_funcs (s : State) (w : Nat) (x : Win) : (s.setWin w x).funcs = s.funcs := rfl
@[simp] theorem State.setWin_lats (s : State) (w : Nat) (x : Win) : (s.setWin w x).lats = s.lats := rfl
@[simp] theorem State.setWin_tokens (s : State) (w : Nat) (x : Win) : (s.setWin w x).tokens = s.tokens := rfl
@[simp] theorem State.setWin_mlSwap (s : State) (w : Nat) (x : Win) : (s.setWin w x).mlSwap = s.mlSwap := rfl
@[simp] theorem State.setWin_map (s : State) (w : Nat) (x : Win) : (s.setWin w x).map = s.map := rfl
@[simp] theorem State.setWin_svy (s : State) (w : Nat) (x : Win) : (s.setWin w x).svy = s.svy := rfl
@[simp] theorem State.setWin_ras (s : State) (w : Nat) (x : Win) : (s.setWin w x).ras = s.ras := rfl
@[simp] theorem State.setWin_sesss (s : State) (w : Nat) (x : Win) : (s.setWin w x).sesss = s.sesss := rfl
@[simp] theorem State.setWin_ports (s : State) (w : Nat) (x : Win) : (s.setWin w x).ports = s.ports := rfl
@[simp] theorem State.setWin_reqs (s : State) (w : Nat) (x : Win) : (s.setWin w x).reqs = s.reqs := rfl
@[simp] theorem State.setWin_heldReduce (s : State) (w : Nat) (x : Win) : (s.setWin w x).heldReduce = s.heldReduce := rfl
@[simp] theorem State.setWin_flinks (s : State) (w : Nat) (x : Win) : (s.setWin w x).flinks = s.flinks := rfl
@[simp] theorem State.setWin_seqs (s : State) (w : Nat) (x : Win) : (s.setWin w x).seqs = s.seqs := rfl
@[simp] theorem State.setWin_pgrs (s : State) (w : Nat) (x : Win) : (s.setWin w x).pgrs = s.pgrs := rfl
@[simp] theorem State.setWin_pgals (s : State) (w : Nat) (x : Win) : (s.setWin w x).pgals = s.pgals := rfl
@[simp] theorem State.setWin_clocks (s : State) (w : Nat) (x : Win) : (s.setWin w x).clocks = s.clocks := rfl
@[simp] theorem State.setWin_snapping (s : State) (w : Nat) (x : Win) : (s.setWin w x).snapping = s.snapping := rfl
@[simp] theorem State.setWin_hostStop (s : State) (w : Nat) (x : Win) : (s.setWin w x).hostStop = s.hostStop := rfl
@[simp] theorem State.setWin_out (s : State) (w : Nat) (x : Win) : (s.setWin w x).out = s.out := rfl
@[simp] theorem State.setWin_tick (s : State) (w : Nat) (x : Win) : (s.setWin w x).tick = s.tick := rfl
@[simp] theorem State.setWin_pending (s : State) (w : Nat) (x : Win) : (s.setWin w x).pending = s.pending := rfl
@[simp] theorem State.setWin_rd_same (s : State) (w : Nat) (x : Win) (f' : Fld) (i' : Nat) : (s.setWin w x).rd f' i' = s.rd f' i' := rfl
@[simp] theorem State.setWin_flag_same (s : State) (w : Nat) (x : Win) (f' : Fld) (i' : Nat) : (s.setWin w x).flag f' i' = s.flag f' i' := rfl
@[simp] theorem State.setWin_gal_same (s : State) (w : Nat) (x : Win) (g' : Nat) : (s.setWin w x).gal g' = s.gal g' := rfl
@[simp] theorem State.setWin_eng_same (s : State) (w : Nat) (x : Win) (k' : Nat) : (s.setWin w x).eng k' = s.eng k' := rfl
@[simp] theorem State.setWin_ctx_same (s : State) (w : Nat) (x : Win) (c' : Nat) : (s.setWin w x).ctx c' = s.ctx c' := rfl
@[simp] theorem State.setWin_queue_same (s : State) (w : Nat) (x : Win) (q' : Nat) : (s.setWin w x).queue q' = s.queue q' := rfl
@[simp] theorem State.setWin_mobj_same (s : State) (w : Nat) (x : Win) (m' : Nat) : (s.setWin w x).mobj m' = s.mobj m' := rfl
@[simp] theorem State.setWin_fence_same (s : State) (w : Nat) (x : Win) (k' : Nat) : (s.setWin w x).fence k' = s.fence k' := rfl
@[simp] theorem State.setWin_sub_same (s : State) (w : Nat) (x : Win) (t' : Nat) : (s.setWin w x).sub t' = s.sub t' := rfl
@[simp] theorem State.setWin_prog_same (s : State) (w : Nat) (x : Win) (k' : Nat) : (s.setWin w x).prog k' = s.prog k' := rfl
@[simp] theorem State.setWin_func_same (s : State) (w : Nat) (x : Win) (f' : Nat) : (s.setWin w x).func f' = s.func f' := rfl
@[simp] theorem State.setWin_part_same (s : State) (w : Nat) (x : Win) (p' : Nat) : (s.setWin w x).part p' = s.part p' := rfl
@[simp] theorem State.setWin_hall_same (s : State) (w : Nat) (x : Win) (h' : Nat) : (s.setWin w x).hall h' = s.hall h' := rfl
@[simp] theorem State.setFunc_regs (s : State) (f : Nat) (x : Func) : (s.setFunc f x).regs = s.regs := rfl
@[simp] theorem State.setFunc_gals (s : State) (f : Nat) (x : Func) : (s.setFunc f x).gals = s.gals := rfl
@[simp] theorem State.setFunc_engs (s : State) (f : Nat) (x : Func) : (s.setFunc f x).engs = s.engs := rfl
@[simp] theorem State.setFunc_pool (s : State) (f : Nat) (x : Func) : (s.setFunc f x).pool = s.pool := rfl
@[simp] theorem State.setFunc_poolErr (s : State) (f : Nat) (x : Func) : (s.setFunc f x).poolErr = s.poolErr := rfl
@[simp] theorem State.setFunc_softRows (s : State) (f : Nat) (x : Func) : (s.setFunc f x).softRows = s.softRows := rfl
@[simp] theorem State.setFunc_softLanes (s : State) (f : Nat) (x : Func) : (s.setFunc f x).softLanes = s.softLanes := rfl
@[simp] theorem State.setFunc_pmem (s : State) (f : Nat) (x : Func) : (s.setFunc f x).pmem = s.pmem := rfl
@[simp] theorem State.setFunc_chans (s : State) (f : Nat) (x : Func) : (s.setFunc f x).chans = s.chans := rfl
@[simp] theorem State.setFunc_lineErr (s : State) (f : Nat) (x : Func) : (s.setFunc f x).lineErr = s.lineErr := rfl
@[simp] theorem State.setFunc_ownCache (s : State) (f : Nat) (x : Func) : (s.setFunc f x).ownCache = s.ownCache := rfl
@[simp] theorem State.setFunc_ownPend (s : State) (f : Nat) (x : Func) : (s.setFunc f x).ownPend = s.ownPend := rfl
@[simp] theorem State.setFunc_relays (s : State) (f : Nat) (x : Func) : (s.setFunc f x).relays = s.relays := rfl
@[simp] theorem State.setFunc_fills (s : State) (f : Nat) (x : Func) : (s.setFunc f x).fills = s.fills := rfl
@[simp] theorem State.setFunc_slots (s : State) (f : Nat) (x : Func) : (s.setFunc f x).slots = s.slots := rfl
@[simp] theorem State.setFunc_retired (s : State) (f : Nat) (x : Func) : (s.setFunc f x).retired = s.retired := rfl
@[simp] theorem State.setFunc_sec (s : State) (f : Nat) (x : Func) : (s.setFunc f x).sec = s.sec := rfl
@[simp] theorem State.setFunc_flash (s : State) (f : Nat) (x : Func) : (s.setFunc f x).flash = s.flash := rfl
@[simp] theorem State.setFunc_pwr (s : State) (f : Nat) (x : Func) : (s.setFunc f x).pwr = s.pwr := rfl
@[simp] theorem State.setFunc_fw (s : State) (f : Nat) (x : Func) : (s.setFunc f x).fw = s.fw := rfl
@[simp] theorem State.setFunc_board (s : State) (f : Nat) (x : Func) : (s.setFunc f x).board = s.board := rfl
@[simp] theorem State.setFunc_host (s : State) (f : Nat) (x : Func) : (s.setFunc f x).host = s.host := rfl
@[simp] theorem State.setFunc_ctxs (s : State) (f : Nat) (x : Func) : (s.setFunc f x).ctxs = s.ctxs := rfl
@[simp] theorem State.setFunc_queues (s : State) (f : Nat) (x : Func) : (s.setFunc f x).queues = s.queues := rfl
@[simp] theorem State.setFunc_mobjs (s : State) (f : Nat) (x : Func) : (s.setFunc f x).mobjs = s.mobjs := rfl
@[simp] theorem State.setFunc_fences (s : State) (f : Nat) (x : Func) : (s.setFunc f x).fences = s.fences := rfl
@[simp] theorem State.setFunc_subs (s : State) (f : Nat) (x : Func) : (s.setFunc f x).subs = s.subs := rfl
@[simp] theorem State.setFunc_nextSub (s : State) (f : Nat) (x : Func) : (s.setFunc f x).nextSub = s.nextSub := rfl
@[simp] theorem State.setFunc_nextSeq (s : State) (f : Nat) (x : Func) : (s.setFunc f x).nextSeq = s.nextSeq := rfl
@[simp] theorem State.setFunc_progs (s : State) (f : Nat) (x : Func) : (s.setFunc f x).progs = s.progs := rfl
@[simp] theorem State.setFunc_wins (s : State) (f : Nat) (x : Func) : (s.setFunc f x).wins = s.wins := rfl
@[simp] theorem State.setFunc_lats (s : State) (f : Nat) (x : Func) : (s.setFunc f x).lats = s.lats := rfl
@[simp] theorem State.setFunc_tokens (s : State) (f : Nat) (x : Func) : (s.setFunc f x).tokens = s.tokens := rfl
@[simp] theorem State.setFunc_mlSwap (s : State) (f : Nat) (x : Func) : (s.setFunc f x).mlSwap = s.mlSwap := rfl
@[simp] theorem State.setFunc_map (s : State) (f : Nat) (x : Func) : (s.setFunc f x).map = s.map := rfl
@[simp] theorem State.setFunc_svy (s : State) (f : Nat) (x : Func) : (s.setFunc f x).svy = s.svy := rfl
@[simp] theorem State.setFunc_ras (s : State) (f : Nat) (x : Func) : (s.setFunc f x).ras = s.ras := rfl
@[simp] theorem State.setFunc_sesss (s : State) (f : Nat) (x : Func) : (s.setFunc f x).sesss = s.sesss := rfl
@[simp] theorem State.setFunc_ports (s : State) (f : Nat) (x : Func) : (s.setFunc f x).ports = s.ports := rfl
@[simp] theorem State.setFunc_reqs (s : State) (f : Nat) (x : Func) : (s.setFunc f x).reqs = s.reqs := rfl
@[simp] theorem State.setFunc_heldReduce (s : State) (f : Nat) (x : Func) : (s.setFunc f x).heldReduce = s.heldReduce := rfl
@[simp] theorem State.setFunc_flinks (s : State) (f : Nat) (x : Func) : (s.setFunc f x).flinks = s.flinks := rfl
@[simp] theorem State.setFunc_seqs (s : State) (f : Nat) (x : Func) : (s.setFunc f x).seqs = s.seqs := rfl
@[simp] theorem State.setFunc_pgrs (s : State) (f : Nat) (x : Func) : (s.setFunc f x).pgrs = s.pgrs := rfl
@[simp] theorem State.setFunc_pgals (s : State) (f : Nat) (x : Func) : (s.setFunc f x).pgals = s.pgals := rfl
@[simp] theorem State.setFunc_clocks (s : State) (f : Nat) (x : Func) : (s.setFunc f x).clocks = s.clocks := rfl
@[simp] theorem State.setFunc_snapping (s : State) (f : Nat) (x : Func) : (s.setFunc f x).snapping = s.snapping := rfl
@[simp] theorem State.setFunc_hostStop (s : State) (f : Nat) (x : Func) : (s.setFunc f x).hostStop = s.hostStop := rfl
@[simp] theorem State.setFunc_out (s : State) (f : Nat) (x : Func) : (s.setFunc f x).out = s.out := rfl
@[simp] theorem State.setFunc_tick (s : State) (f : Nat) (x : Func) : (s.setFunc f x).tick = s.tick := rfl
@[simp] theorem State.setFunc_pending (s : State) (f : Nat) (x : Func) : (s.setFunc f x).pending = s.pending := rfl
@[simp] theorem State.setFunc_rd_same (s : State) (f : Nat) (x : Func) (f' : Fld) (i' : Nat) : (s.setFunc f x).rd f' i' = s.rd f' i' := rfl
@[simp] theorem State.setFunc_flag_same (s : State) (f : Nat) (x : Func) (f' : Fld) (i' : Nat) : (s.setFunc f x).flag f' i' = s.flag f' i' := rfl
@[simp] theorem State.setFunc_gal_same (s : State) (f : Nat) (x : Func) (g' : Nat) : (s.setFunc f x).gal g' = s.gal g' := rfl
@[simp] theorem State.setFunc_eng_same (s : State) (f : Nat) (x : Func) (k' : Nat) : (s.setFunc f x).eng k' = s.eng k' := rfl
@[simp] theorem State.setFunc_ctx_same (s : State) (f : Nat) (x : Func) (c' : Nat) : (s.setFunc f x).ctx c' = s.ctx c' := rfl
@[simp] theorem State.setFunc_queue_same (s : State) (f : Nat) (x : Func) (q' : Nat) : (s.setFunc f x).queue q' = s.queue q' := rfl
@[simp] theorem State.setFunc_mobj_same (s : State) (f : Nat) (x : Func) (m' : Nat) : (s.setFunc f x).mobj m' = s.mobj m' := rfl
@[simp] theorem State.setFunc_fence_same (s : State) (f : Nat) (x : Func) (k' : Nat) : (s.setFunc f x).fence k' = s.fence k' := rfl
@[simp] theorem State.setFunc_sub_same (s : State) (f : Nat) (x : Func) (t' : Nat) : (s.setFunc f x).sub t' = s.sub t' := rfl
@[simp] theorem State.setFunc_prog_same (s : State) (f : Nat) (x : Func) (k' : Nat) : (s.setFunc f x).prog k' = s.prog k' := rfl
@[simp] theorem State.setFunc_win_same (s : State) (f : Nat) (x : Func) (w' : Nat) : (s.setFunc f x).win w' = s.win w' := rfl
@[simp] theorem State.setFunc_part_same (s : State) (f : Nat) (x : Func) (p' : Nat) : (s.setFunc f x).part p' = s.part p' := rfl
@[simp] theorem State.setFunc_hall_same (s : State) (f : Nat) (x : Func) (h' : Nat) : (s.setFunc f x).hall h' = s.hall h' := rfl
@[simp] theorem State.setPart_regs (s : State) (p : Nat) (x : Part) : (s.setPart p x).regs = s.regs := rfl
@[simp] theorem State.setPart_gals (s : State) (p : Nat) (x : Part) : (s.setPart p x).gals = s.gals := rfl
@[simp] theorem State.setPart_engs (s : State) (p : Nat) (x : Part) : (s.setPart p x).engs = s.engs := rfl
@[simp] theorem State.setPart_pool (s : State) (p : Nat) (x : Part) : (s.setPart p x).pool = s.pool := rfl
@[simp] theorem State.setPart_poolErr (s : State) (p : Nat) (x : Part) : (s.setPart p x).poolErr = s.poolErr := rfl
@[simp] theorem State.setPart_softRows (s : State) (p : Nat) (x : Part) : (s.setPart p x).softRows = s.softRows := rfl
@[simp] theorem State.setPart_softLanes (s : State) (p : Nat) (x : Part) : (s.setPart p x).softLanes = s.softLanes := rfl
@[simp] theorem State.setPart_pmem (s : State) (p : Nat) (x : Part) : (s.setPart p x).pmem = s.pmem := rfl
@[simp] theorem State.setPart_chans (s : State) (p : Nat) (x : Part) : (s.setPart p x).chans = s.chans := rfl
@[simp] theorem State.setPart_lineErr (s : State) (p : Nat) (x : Part) : (s.setPart p x).lineErr = s.lineErr := rfl
@[simp] theorem State.setPart_ownCache (s : State) (p : Nat) (x : Part) : (s.setPart p x).ownCache = s.ownCache := rfl
@[simp] theorem State.setPart_ownPend (s : State) (p : Nat) (x : Part) : (s.setPart p x).ownPend = s.ownPend := rfl
@[simp] theorem State.setPart_relays (s : State) (p : Nat) (x : Part) : (s.setPart p x).relays = s.relays := rfl
@[simp] theorem State.setPart_fills (s : State) (p : Nat) (x : Part) : (s.setPart p x).fills = s.fills := rfl
@[simp] theorem State.setPart_slots (s : State) (p : Nat) (x : Part) : (s.setPart p x).slots = s.slots := rfl
@[simp] theorem State.setPart_retired (s : State) (p : Nat) (x : Part) : (s.setPart p x).retired = s.retired := rfl
@[simp] theorem State.setPart_sec (s : State) (p : Nat) (x : Part) : (s.setPart p x).sec = s.sec := rfl
@[simp] theorem State.setPart_flash (s : State) (p : Nat) (x : Part) : (s.setPart p x).flash = s.flash := rfl
@[simp] theorem State.setPart_pwr (s : State) (p : Nat) (x : Part) : (s.setPart p x).pwr = s.pwr := rfl
@[simp] theorem State.setPart_fw (s : State) (p : Nat) (x : Part) : (s.setPart p x).fw = s.fw := rfl
@[simp] theorem State.setPart_board (s : State) (p : Nat) (x : Part) : (s.setPart p x).board = s.board := rfl
@[simp] theorem State.setPart_host (s : State) (p : Nat) (x : Part) : (s.setPart p x).host = s.host := rfl
@[simp] theorem State.setPart_ctxs (s : State) (p : Nat) (x : Part) : (s.setPart p x).ctxs = s.ctxs := rfl
@[simp] theorem State.setPart_queues (s : State) (p : Nat) (x : Part) : (s.setPart p x).queues = s.queues := rfl
@[simp] theorem State.setPart_mobjs (s : State) (p : Nat) (x : Part) : (s.setPart p x).mobjs = s.mobjs := rfl
@[simp] theorem State.setPart_fences (s : State) (p : Nat) (x : Part) : (s.setPart p x).fences = s.fences := rfl
@[simp] theorem State.setPart_subs (s : State) (p : Nat) (x : Part) : (s.setPart p x).subs = s.subs := rfl
@[simp] theorem State.setPart_nextSub (s : State) (p : Nat) (x : Part) : (s.setPart p x).nextSub = s.nextSub := rfl
@[simp] theorem State.setPart_nextSeq (s : State) (p : Nat) (x : Part) : (s.setPart p x).nextSeq = s.nextSeq := rfl
@[simp] theorem State.setPart_progs (s : State) (p : Nat) (x : Part) : (s.setPart p x).progs = s.progs := rfl
@[simp] theorem State.setPart_wins (s : State) (p : Nat) (x : Part) : (s.setPart p x).wins = s.wins := rfl
@[simp] theorem State.setPart_funcs (s : State) (p : Nat) (x : Part) : (s.setPart p x).funcs = s.funcs := rfl
@[simp] theorem State.setPart_lats (s : State) (p : Nat) (x : Part) : (s.setPart p x).lats = s.lats := rfl
@[simp] theorem State.setPart_tokens (s : State) (p : Nat) (x : Part) : (s.setPart p x).tokens = s.tokens := rfl
@[simp] theorem State.setPart_mlSwap (s : State) (p : Nat) (x : Part) : (s.setPart p x).mlSwap = s.mlSwap := rfl
@[simp] theorem State.setPart_svy (s : State) (p : Nat) (x : Part) : (s.setPart p x).svy = s.svy := rfl
@[simp] theorem State.setPart_ras (s : State) (p : Nat) (x : Part) : (s.setPart p x).ras = s.ras := rfl
@[simp] theorem State.setPart_sesss (s : State) (p : Nat) (x : Part) : (s.setPart p x).sesss = s.sesss := rfl
@[simp] theorem State.setPart_ports (s : State) (p : Nat) (x : Part) : (s.setPart p x).ports = s.ports := rfl
@[simp] theorem State.setPart_reqs (s : State) (p : Nat) (x : Part) : (s.setPart p x).reqs = s.reqs := rfl
@[simp] theorem State.setPart_heldReduce (s : State) (p : Nat) (x : Part) : (s.setPart p x).heldReduce = s.heldReduce := rfl
@[simp] theorem State.setPart_flinks (s : State) (p : Nat) (x : Part) : (s.setPart p x).flinks = s.flinks := rfl
@[simp] theorem State.setPart_seqs (s : State) (p : Nat) (x : Part) : (s.setPart p x).seqs = s.seqs := rfl
@[simp] theorem State.setPart_pgrs (s : State) (p : Nat) (x : Part) : (s.setPart p x).pgrs = s.pgrs := rfl
@[simp] theorem State.setPart_pgals (s : State) (p : Nat) (x : Part) : (s.setPart p x).pgals = s.pgals := rfl
@[simp] theorem State.setPart_clocks (s : State) (p : Nat) (x : Part) : (s.setPart p x).clocks = s.clocks := rfl
@[simp] theorem State.setPart_snapping (s : State) (p : Nat) (x : Part) : (s.setPart p x).snapping = s.snapping := rfl
@[simp] theorem State.setPart_hostStop (s : State) (p : Nat) (x : Part) : (s.setPart p x).hostStop = s.hostStop := rfl
@[simp] theorem State.setPart_out (s : State) (p : Nat) (x : Part) : (s.setPart p x).out = s.out := rfl
@[simp] theorem State.setPart_tick (s : State) (p : Nat) (x : Part) : (s.setPart p x).tick = s.tick := rfl
@[simp] theorem State.setPart_pending (s : State) (p : Nat) (x : Part) : (s.setPart p x).pending = s.pending := rfl
@[simp] theorem State.setPart_mapdev (s : State) (p : Nat) (x : Part) : (s.setPart p x).map.dev = s.map.dev := rfl
@[simp] theorem State.setPart_rd_same (s : State) (p : Nat) (x : Part) (f' : Fld) (i' : Nat) : (s.setPart p x).rd f' i' = s.rd f' i' := rfl
@[simp] theorem State.setPart_flag_same (s : State) (p : Nat) (x : Part) (f' : Fld) (i' : Nat) : (s.setPart p x).flag f' i' = s.flag f' i' := rfl
@[simp] theorem State.setPart_gal_same (s : State) (p : Nat) (x : Part) (g' : Nat) : (s.setPart p x).gal g' = s.gal g' := rfl
@[simp] theorem State.setPart_eng_same (s : State) (p : Nat) (x : Part) (k' : Nat) : (s.setPart p x).eng k' = s.eng k' := rfl
@[simp] theorem State.setPart_ctx_same (s : State) (p : Nat) (x : Part) (c' : Nat) : (s.setPart p x).ctx c' = s.ctx c' := rfl
@[simp] theorem State.setPart_queue_same (s : State) (p : Nat) (x : Part) (q' : Nat) : (s.setPart p x).queue q' = s.queue q' := rfl
@[simp] theorem State.setPart_mobj_same (s : State) (p : Nat) (x : Part) (m' : Nat) : (s.setPart p x).mobj m' = s.mobj m' := rfl
@[simp] theorem State.setPart_fence_same (s : State) (p : Nat) (x : Part) (k' : Nat) : (s.setPart p x).fence k' = s.fence k' := rfl
@[simp] theorem State.setPart_sub_same (s : State) (p : Nat) (x : Part) (t' : Nat) : (s.setPart p x).sub t' = s.sub t' := rfl
@[simp] theorem State.setPart_prog_same (s : State) (p : Nat) (x : Part) (k' : Nat) : (s.setPart p x).prog k' = s.prog k' := rfl
@[simp] theorem State.setPart_win_same (s : State) (p : Nat) (x : Part) (w' : Nat) : (s.setPart p x).win w' = s.win w' := rfl
@[simp] theorem State.setPart_func_same (s : State) (p : Nat) (x : Part) (f' : Nat) : (s.setPart p x).func f' = s.func f' := rfl
@[simp] theorem State.setPart_hall_same (s : State) (p : Nat) (x : Part) (h' : Nat) : (s.setPart p x).hall h' = s.hall h' := rfl
@[simp] theorem State.setHall_regs (s : State) (h : Nat) (x : Hall) : (s.setHall h x).regs = s.regs := rfl
@[simp] theorem State.setHall_gals (s : State) (h : Nat) (x : Hall) : (s.setHall h x).gals = s.gals := rfl
@[simp] theorem State.setHall_engs (s : State) (h : Nat) (x : Hall) : (s.setHall h x).engs = s.engs := rfl
@[simp] theorem State.setHall_pool (s : State) (h : Nat) (x : Hall) : (s.setHall h x).pool = s.pool := rfl
@[simp] theorem State.setHall_poolErr (s : State) (h : Nat) (x : Hall) : (s.setHall h x).poolErr = s.poolErr := rfl
@[simp] theorem State.setHall_softRows (s : State) (h : Nat) (x : Hall) : (s.setHall h x).softRows = s.softRows := rfl
@[simp] theorem State.setHall_softLanes (s : State) (h : Nat) (x : Hall) : (s.setHall h x).softLanes = s.softLanes := rfl
@[simp] theorem State.setHall_pmem (s : State) (h : Nat) (x : Hall) : (s.setHall h x).pmem = s.pmem := rfl
@[simp] theorem State.setHall_chans (s : State) (h : Nat) (x : Hall) : (s.setHall h x).chans = s.chans := rfl
@[simp] theorem State.setHall_lineErr (s : State) (h : Nat) (x : Hall) : (s.setHall h x).lineErr = s.lineErr := rfl
@[simp] theorem State.setHall_ownCache (s : State) (h : Nat) (x : Hall) : (s.setHall h x).ownCache = s.ownCache := rfl
@[simp] theorem State.setHall_ownPend (s : State) (h : Nat) (x : Hall) : (s.setHall h x).ownPend = s.ownPend := rfl
@[simp] theorem State.setHall_relays (s : State) (h : Nat) (x : Hall) : (s.setHall h x).relays = s.relays := rfl
@[simp] theorem State.setHall_fills (s : State) (h : Nat) (x : Hall) : (s.setHall h x).fills = s.fills := rfl
@[simp] theorem State.setHall_slots (s : State) (h : Nat) (x : Hall) : (s.setHall h x).slots = s.slots := rfl
@[simp] theorem State.setHall_retired (s : State) (h : Nat) (x : Hall) : (s.setHall h x).retired = s.retired := rfl
@[simp] theorem State.setHall_sec (s : State) (h : Nat) (x : Hall) : (s.setHall h x).sec = s.sec := rfl
@[simp] theorem State.setHall_flash (s : State) (h : Nat) (x : Hall) : (s.setHall h x).flash = s.flash := rfl
@[simp] theorem State.setHall_fw (s : State) (h : Nat) (x : Hall) : (s.setHall h x).fw = s.fw := rfl
@[simp] theorem State.setHall_board (s : State) (h : Nat) (x : Hall) : (s.setHall h x).board = s.board := rfl
@[simp] theorem State.setHall_host (s : State) (h : Nat) (x : Hall) : (s.setHall h x).host = s.host := rfl
@[simp] theorem State.setHall_ctxs (s : State) (h : Nat) (x : Hall) : (s.setHall h x).ctxs = s.ctxs := rfl
@[simp] theorem State.setHall_queues (s : State) (h : Nat) (x : Hall) : (s.setHall h x).queues = s.queues := rfl
@[simp] theorem State.setHall_mobjs (s : State) (h : Nat) (x : Hall) : (s.setHall h x).mobjs = s.mobjs := rfl
@[simp] theorem State.setHall_fences (s : State) (h : Nat) (x : Hall) : (s.setHall h x).fences = s.fences := rfl
@[simp] theorem State.setHall_subs (s : State) (h : Nat) (x : Hall) : (s.setHall h x).subs = s.subs := rfl
@[simp] theorem State.setHall_nextSub (s : State) (h : Nat) (x : Hall) : (s.setHall h x).nextSub = s.nextSub := rfl
@[simp] theorem State.setHall_nextSeq (s : State) (h : Nat) (x : Hall) : (s.setHall h x).nextSeq = s.nextSeq := rfl
@[simp] theorem State.setHall_progs (s : State) (h : Nat) (x : Hall) : (s.setHall h x).progs = s.progs := rfl
@[simp] theorem State.setHall_wins (s : State) (h : Nat) (x : Hall) : (s.setHall h x).wins = s.wins := rfl
@[simp] theorem State.setHall_funcs (s : State) (h : Nat) (x : Hall) : (s.setHall h x).funcs = s.funcs := rfl
@[simp] theorem State.setHall_lats (s : State) (h : Nat) (x : Hall) : (s.setHall h x).lats = s.lats := rfl
@[simp] theorem State.setHall_tokens (s : State) (h : Nat) (x : Hall) : (s.setHall h x).tokens = s.tokens := rfl
@[simp] theorem State.setHall_mlSwap (s : State) (h : Nat) (x : Hall) : (s.setHall h x).mlSwap = s.mlSwap := rfl
@[simp] theorem State.setHall_map (s : State) (h : Nat) (x : Hall) : (s.setHall h x).map = s.map := rfl
@[simp] theorem State.setHall_svy (s : State) (h : Nat) (x : Hall) : (s.setHall h x).svy = s.svy := rfl
@[simp] theorem State.setHall_ras (s : State) (h : Nat) (x : Hall) : (s.setHall h x).ras = s.ras := rfl
@[simp] theorem State.setHall_sesss (s : State) (h : Nat) (x : Hall) : (s.setHall h x).sesss = s.sesss := rfl
@[simp] theorem State.setHall_ports (s : State) (h : Nat) (x : Hall) : (s.setHall h x).ports = s.ports := rfl
@[simp] theorem State.setHall_reqs (s : State) (h : Nat) (x : Hall) : (s.setHall h x).reqs = s.reqs := rfl
@[simp] theorem State.setHall_heldReduce (s : State) (h : Nat) (x : Hall) : (s.setHall h x).heldReduce = s.heldReduce := rfl
@[simp] theorem State.setHall_flinks (s : State) (h : Nat) (x : Hall) : (s.setHall h x).flinks = s.flinks := rfl
@[simp] theorem State.setHall_seqs (s : State) (h : Nat) (x : Hall) : (s.setHall h x).seqs = s.seqs := rfl
@[simp] theorem State.setHall_pgrs (s : State) (h : Nat) (x : Hall) : (s.setHall h x).pgrs = s.pgrs := rfl
@[simp] theorem State.setHall_pgals (s : State) (h : Nat) (x : Hall) : (s.setHall h x).pgals = s.pgals := rfl
@[simp] theorem State.setHall_clocks (s : State) (h : Nat) (x : Hall) : (s.setHall h x).clocks = s.clocks := rfl
@[simp] theorem State.setHall_snapping (s : State) (h : Nat) (x : Hall) : (s.setHall h x).snapping = s.snapping := rfl
@[simp] theorem State.setHall_hostStop (s : State) (h : Nat) (x : Hall) : (s.setHall h x).hostStop = s.hostStop := rfl
@[simp] theorem State.setHall_out (s : State) (h : Nat) (x : Hall) : (s.setHall h x).out = s.out := rfl
@[simp] theorem State.setHall_tick (s : State) (h : Nat) (x : Hall) : (s.setHall h x).tick = s.tick := rfl
@[simp] theorem State.setHall_pending (s : State) (h : Nat) (x : Hall) : (s.setHall h x).pending = s.pending := rfl
@[simp] theorem State.setHall_stop (s : State) (h : Nat) (x : Hall) : (s.setHall h x).pwr.stop = s.pwr.stop := rfl
@[simp] theorem State.setHall_rd_same (s : State) (h : Nat) (x : Hall) (f' : Fld) (i' : Nat) : (s.setHall h x).rd f' i' = s.rd f' i' := rfl
@[simp] theorem State.setHall_flag_same (s : State) (h : Nat) (x : Hall) (f' : Fld) (i' : Nat) : (s.setHall h x).flag f' i' = s.flag f' i' := rfl
@[simp] theorem State.setHall_gal_same (s : State) (h : Nat) (x : Hall) (g' : Nat) : (s.setHall h x).gal g' = s.gal g' := rfl
@[simp] theorem State.setHall_eng_same (s : State) (h : Nat) (x : Hall) (k' : Nat) : (s.setHall h x).eng k' = s.eng k' := rfl
@[simp] theorem State.setHall_ctx_same (s : State) (h : Nat) (x : Hall) (c' : Nat) : (s.setHall h x).ctx c' = s.ctx c' := rfl
@[simp] theorem State.setHall_queue_same (s : State) (h : Nat) (x : Hall) (q' : Nat) : (s.setHall h x).queue q' = s.queue q' := rfl
@[simp] theorem State.setHall_mobj_same (s : State) (h : Nat) (x : Hall) (m' : Nat) : (s.setHall h x).mobj m' = s.mobj m' := rfl
@[simp] theorem State.setHall_fence_same (s : State) (h : Nat) (x : Hall) (k' : Nat) : (s.setHall h x).fence k' = s.fence k' := rfl
@[simp] theorem State.setHall_sub_same (s : State) (h : Nat) (x : Hall) (t' : Nat) : (s.setHall h x).sub t' = s.sub t' := rfl
@[simp] theorem State.setHall_prog_same (s : State) (h : Nat) (x : Hall) (k' : Nat) : (s.setHall h x).prog k' = s.prog k' := rfl
@[simp] theorem State.setHall_win_same (s : State) (h : Nat) (x : Hall) (w' : Nat) : (s.setHall h x).win w' = s.win w' := rfl
@[simp] theorem State.setHall_func_same (s : State) (h : Nat) (x : Hall) (f' : Nat) : (s.setHall h x).func f' = s.func f' := rfl
@[simp] theorem State.setHall_part_same (s : State) (h : Nat) (x : Hall) (p' : Nat) : (s.setHall h x).part p' = s.part p' := rfl
@[simp] theorem State.emit_regs (s : State) (o : Out) : (s.emit o).regs = s.regs := rfl
@[simp] theorem State.emit_gals (s : State) (o : Out) : (s.emit o).gals = s.gals := rfl
@[simp] theorem State.emit_engs (s : State) (o : Out) : (s.emit o).engs = s.engs := rfl
@[simp] theorem State.emit_pool (s : State) (o : Out) : (s.emit o).pool = s.pool := rfl
@[simp] theorem State.emit_poolErr (s : State) (o : Out) : (s.emit o).poolErr = s.poolErr := rfl
@[simp] theorem State.emit_softRows (s : State) (o : Out) : (s.emit o).softRows = s.softRows := rfl
@[simp] theorem State.emit_softLanes (s : State) (o : Out) : (s.emit o).softLanes = s.softLanes := rfl
@[simp] theorem State.emit_pmem (s : State) (o : Out) : (s.emit o).pmem = s.pmem := rfl
@[simp] theorem State.emit_chans (s : State) (o : Out) : (s.emit o).chans = s.chans := rfl
@[simp] theorem State.emit_lineErr (s : State) (o : Out) : (s.emit o).lineErr = s.lineErr := rfl
@[simp] theorem State.emit_ownCache (s : State) (o : Out) : (s.emit o).ownCache = s.ownCache := rfl
@[simp] theorem State.emit_ownPend (s : State) (o : Out) : (s.emit o).ownPend = s.ownPend := rfl
@[simp] theorem State.emit_relays (s : State) (o : Out) : (s.emit o).relays = s.relays := rfl
@[simp] theorem State.emit_fills (s : State) (o : Out) : (s.emit o).fills = s.fills := rfl
@[simp] theorem State.emit_slots (s : State) (o : Out) : (s.emit o).slots = s.slots := rfl
@[simp] theorem State.emit_retired (s : State) (o : Out) : (s.emit o).retired = s.retired := rfl
@[simp] theorem State.emit_sec (s : State) (o : Out) : (s.emit o).sec = s.sec := rfl
@[simp] theorem State.emit_flash (s : State) (o : Out) : (s.emit o).flash = s.flash := rfl
@[simp] theorem State.emit_pwr (s : State) (o : Out) : (s.emit o).pwr = s.pwr := rfl
@[simp] theorem State.emit_fw (s : State) (o : Out) : (s.emit o).fw = s.fw := rfl
@[simp] theorem State.emit_board (s : State) (o : Out) : (s.emit o).board = s.board := rfl
@[simp] theorem State.emit_host (s : State) (o : Out) : (s.emit o).host = s.host := rfl
@[simp] theorem State.emit_ctxs (s : State) (o : Out) : (s.emit o).ctxs = s.ctxs := rfl
@[simp] theorem State.emit_queues (s : State) (o : Out) : (s.emit o).queues = s.queues := rfl
@[simp] theorem State.emit_mobjs (s : State) (o : Out) : (s.emit o).mobjs = s.mobjs := rfl
@[simp] theorem State.emit_fences (s : State) (o : Out) : (s.emit o).fences = s.fences := rfl
@[simp] theorem State.emit_subs (s : State) (o : Out) : (s.emit o).subs = s.subs := rfl
@[simp] theorem State.emit_nextSub (s : State) (o : Out) : (s.emit o).nextSub = s.nextSub := rfl
@[simp] theorem State.emit_nextSeq (s : State) (o : Out) : (s.emit o).nextSeq = s.nextSeq := rfl
@[simp] theorem State.emit_progs (s : State) (o : Out) : (s.emit o).progs = s.progs := rfl
@[simp] theorem State.emit_wins (s : State) (o : Out) : (s.emit o).wins = s.wins := rfl
@[simp] theorem State.emit_funcs (s : State) (o : Out) : (s.emit o).funcs = s.funcs := rfl
@[simp] theorem State.emit_lats (s : State) (o : Out) : (s.emit o).lats = s.lats := rfl
@[simp] theorem State.emit_tokens (s : State) (o : Out) : (s.emit o).tokens = s.tokens := rfl
@[simp] theorem State.emit_mlSwap (s : State) (o : Out) : (s.emit o).mlSwap = s.mlSwap := rfl
@[simp] theorem State.emit_map (s : State) (o : Out) : (s.emit o).map = s.map := rfl
@[simp] theorem State.emit_svy (s : State) (o : Out) : (s.emit o).svy = s.svy := rfl
@[simp] theorem State.emit_ras (s : State) (o : Out) : (s.emit o).ras = s.ras := rfl
@[simp] theorem State.emit_sesss (s : State) (o : Out) : (s.emit o).sesss = s.sesss := rfl
@[simp] theorem State.emit_ports (s : State) (o : Out) : (s.emit o).ports = s.ports := rfl
@[simp] theorem State.emit_reqs (s : State) (o : Out) : (s.emit o).reqs = s.reqs := rfl
@[simp] theorem State.emit_heldReduce (s : State) (o : Out) : (s.emit o).heldReduce = s.heldReduce := rfl
@[simp] theorem State.emit_flinks (s : State) (o : Out) : (s.emit o).flinks = s.flinks := rfl
@[simp] theorem State.emit_seqs (s : State) (o : Out) : (s.emit o).seqs = s.seqs := rfl
@[simp] theorem State.emit_pgrs (s : State) (o : Out) : (s.emit o).pgrs = s.pgrs := rfl
@[simp] theorem State.emit_pgals (s : State) (o : Out) : (s.emit o).pgals = s.pgals := rfl
@[simp] theorem State.emit_clocks (s : State) (o : Out) : (s.emit o).clocks = s.clocks := rfl
@[simp] theorem State.emit_snapping (s : State) (o : Out) : (s.emit o).snapping = s.snapping := rfl
@[simp] theorem State.emit_hostStop (s : State) (o : Out) : (s.emit o).hostStop = s.hostStop := rfl
@[simp] theorem State.emit_tick (s : State) (o : Out) : (s.emit o).tick = s.tick := rfl
@[simp] theorem State.emit_pending (s : State) (o : Out) : (s.emit o).pending = s.pending := rfl
@[simp] theorem State.emit_rd_same (s : State) (o : Out) (f' : Fld) (i' : Nat) : (s.emit o).rd f' i' = s.rd f' i' := rfl
@[simp] theorem State.emit_flag_same (s : State) (o : Out) (f' : Fld) (i' : Nat) : (s.emit o).flag f' i' = s.flag f' i' := rfl
@[simp] theorem State.emit_gal_same (s : State) (o : Out) (g' : Nat) : (s.emit o).gal g' = s.gal g' := rfl
@[simp] theorem State.emit_eng_same (s : State) (o : Out) (k' : Nat) : (s.emit o).eng k' = s.eng k' := rfl
@[simp] theorem State.emit_ctx_same (s : State) (o : Out) (c' : Nat) : (s.emit o).ctx c' = s.ctx c' := rfl
@[simp] theorem State.emit_queue_same (s : State) (o : Out) (q' : Nat) : (s.emit o).queue q' = s.queue q' := rfl
@[simp] theorem State.emit_mobj_same (s : State) (o : Out) (m' : Nat) : (s.emit o).mobj m' = s.mobj m' := rfl
@[simp] theorem State.emit_fence_same (s : State) (o : Out) (k' : Nat) : (s.emit o).fence k' = s.fence k' := rfl
@[simp] theorem State.emit_sub_same (s : State) (o : Out) (t' : Nat) : (s.emit o).sub t' = s.sub t' := rfl
@[simp] theorem State.emit_prog_same (s : State) (o : Out) (k' : Nat) : (s.emit o).prog k' = s.prog k' := rfl
@[simp] theorem State.emit_win_same (s : State) (o : Out) (w' : Nat) : (s.emit o).win w' = s.win w' := rfl
@[simp] theorem State.emit_func_same (s : State) (o : Out) (f' : Nat) : (s.emit o).func f' = s.func f' := rfl
@[simp] theorem State.emit_part_same (s : State) (o : Out) (p' : Nat) : (s.emit o).part p' = s.part p' := rfl
@[simp] theorem State.emit_hall_same (s : State) (o : Out) (h' : Nat) : (s.emit o).hall h' = s.hall h' := rfl
@[simp] theorem State.ticked_regs (s : State) : (s.ticked).regs = s.regs := rfl
@[simp] theorem State.ticked_gals (s : State) : (s.ticked).gals = s.gals := rfl
@[simp] theorem State.ticked_engs (s : State) : (s.ticked).engs = s.engs := rfl
@[simp] theorem State.ticked_pool (s : State) : (s.ticked).pool = s.pool := rfl
@[simp] theorem State.ticked_poolErr (s : State) : (s.ticked).poolErr = s.poolErr := rfl
@[simp] theorem State.ticked_softRows (s : State) : (s.ticked).softRows = s.softRows := rfl
@[simp] theorem State.ticked_softLanes (s : State) : (s.ticked).softLanes = s.softLanes := rfl
@[simp] theorem State.ticked_pmem (s : State) : (s.ticked).pmem = s.pmem := rfl
@[simp] theorem State.ticked_chans (s : State) : (s.ticked).chans = s.chans := rfl
@[simp] theorem State.ticked_lineErr (s : State) : (s.ticked).lineErr = s.lineErr := rfl
@[simp] theorem State.ticked_ownCache (s : State) : (s.ticked).ownCache = s.ownCache := rfl
@[simp] theorem State.ticked_ownPend (s : State) : (s.ticked).ownPend = s.ownPend := rfl
@[simp] theorem State.ticked_relays (s : State) : (s.ticked).relays = s.relays := rfl
@[simp] theorem State.ticked_fills (s : State) : (s.ticked).fills = s.fills := rfl
@[simp] theorem State.ticked_slots (s : State) : (s.ticked).slots = s.slots := rfl
@[simp] theorem State.ticked_retired (s : State) : (s.ticked).retired = s.retired := rfl
@[simp] theorem State.ticked_sec (s : State) : (s.ticked).sec = s.sec := rfl
@[simp] theorem State.ticked_flash (s : State) : (s.ticked).flash = s.flash := rfl
@[simp] theorem State.ticked_pwr (s : State) : (s.ticked).pwr = s.pwr := rfl
@[simp] theorem State.ticked_fw (s : State) : (s.ticked).fw = s.fw := rfl
@[simp] theorem State.ticked_board (s : State) : (s.ticked).board = s.board := rfl
@[simp] theorem State.ticked_host (s : State) : (s.ticked).host = s.host := rfl
@[simp] theorem State.ticked_ctxs (s : State) : (s.ticked).ctxs = s.ctxs := rfl
@[simp] theorem State.ticked_queues (s : State) : (s.ticked).queues = s.queues := rfl
@[simp] theorem State.ticked_mobjs (s : State) : (s.ticked).mobjs = s.mobjs := rfl
@[simp] theorem State.ticked_fences (s : State) : (s.ticked).fences = s.fences := rfl
@[simp] theorem State.ticked_subs (s : State) : (s.ticked).subs = s.subs := rfl
@[simp] theorem State.ticked_nextSub (s : State) : (s.ticked).nextSub = s.nextSub := rfl
@[simp] theorem State.ticked_nextSeq (s : State) : (s.ticked).nextSeq = s.nextSeq := rfl
@[simp] theorem State.ticked_progs (s : State) : (s.ticked).progs = s.progs := rfl
@[simp] theorem State.ticked_wins (s : State) : (s.ticked).wins = s.wins := rfl
@[simp] theorem State.ticked_funcs (s : State) : (s.ticked).funcs = s.funcs := rfl
@[simp] theorem State.ticked_lats (s : State) : (s.ticked).lats = s.lats := rfl
@[simp] theorem State.ticked_tokens (s : State) : (s.ticked).tokens = s.tokens := rfl
@[simp] theorem State.ticked_mlSwap (s : State) : (s.ticked).mlSwap = s.mlSwap := rfl
@[simp] theorem State.ticked_map (s : State) : (s.ticked).map = s.map := rfl
@[simp] theorem State.ticked_svy (s : State) : (s.ticked).svy = s.svy := rfl
@[simp] theorem State.ticked_ras (s : State) : (s.ticked).ras = s.ras := rfl
@[simp] theorem State.ticked_sesss (s : State) : (s.ticked).sesss = s.sesss := rfl
@[simp] theorem State.ticked_ports (s : State) : (s.ticked).ports = s.ports := rfl
@[simp] theorem State.ticked_reqs (s : State) : (s.ticked).reqs = s.reqs := rfl
@[simp] theorem State.ticked_heldReduce (s : State) : (s.ticked).heldReduce = s.heldReduce := rfl
@[simp] theorem State.ticked_flinks (s : State) : (s.ticked).flinks = s.flinks := rfl
@[simp] theorem State.ticked_seqs (s : State) : (s.ticked).seqs = s.seqs := rfl
@[simp] theorem State.ticked_pgrs (s : State) : (s.ticked).pgrs = s.pgrs := rfl
@[simp] theorem State.ticked_pgals (s : State) : (s.ticked).pgals = s.pgals := rfl
@[simp] theorem State.ticked_clocks (s : State) : (s.ticked).clocks = s.clocks := rfl
@[simp] theorem State.ticked_snapping (s : State) : (s.ticked).snapping = s.snapping := rfl
@[simp] theorem State.ticked_hostStop (s : State) : (s.ticked).hostStop = s.hostStop := rfl
@[simp] theorem State.ticked_out (s : State) : (s.ticked).out = s.out := rfl
@[simp] theorem State.ticked_pending (s : State) : (s.ticked).pending = s.pending := rfl
@[simp] theorem State.ticked_rd_same (s : State) (f' : Fld) (i' : Nat) : (s.ticked).rd f' i' = s.rd f' i' := rfl
@[simp] theorem State.ticked_flag_same (s : State) (f' : Fld) (i' : Nat) : (s.ticked).flag f' i' = s.flag f' i' := rfl
@[simp] theorem State.ticked_gal_same (s : State) (g' : Nat) : (s.ticked).gal g' = s.gal g' := rfl
@[simp] theorem State.ticked_eng_same (s : State) (k' : Nat) : (s.ticked).eng k' = s.eng k' := rfl
@[simp] theorem State.ticked_ctx_same (s : State) (c' : Nat) : (s.ticked).ctx c' = s.ctx c' := rfl
@[simp] theorem State.ticked_queue_same (s : State) (q' : Nat) : (s.ticked).queue q' = s.queue q' := rfl
@[simp] theorem State.ticked_mobj_same (s : State) (m' : Nat) : (s.ticked).mobj m' = s.mobj m' := rfl
@[simp] theorem State.ticked_fence_same (s : State) (k' : Nat) : (s.ticked).fence k' = s.fence k' := rfl
@[simp] theorem State.ticked_sub_same (s : State) (t' : Nat) : (s.ticked).sub t' = s.sub t' := rfl
@[simp] theorem State.ticked_prog_same (s : State) (k' : Nat) : (s.ticked).prog k' = s.prog k' := rfl
@[simp] theorem State.ticked_win_same (s : State) (w' : Nat) : (s.ticked).win w' = s.win w' := rfl
@[simp] theorem State.ticked_func_same (s : State) (f' : Nat) : (s.ticked).func f' = s.func f' := rfl
@[simp] theorem State.ticked_part_same (s : State) (p' : Nat) : (s.ticked).part p' = s.part p' := rfl
@[simp] theorem State.ticked_hall_same (s : State) (h' : Nat) : (s.ticked).hall h' = s.hall h' := rfl
@[simp] theorem State.poolWr_regs (s : State) (g off : Nat) (l : List Byte) : (s.poolWr g off l).regs = s.regs := rfl
@[simp] theorem State.poolWr_gals (s : State) (g off : Nat) (l : List Byte) : (s.poolWr g off l).gals = s.gals := rfl
@[simp] theorem State.poolWr_engs (s : State) (g off : Nat) (l : List Byte) : (s.poolWr g off l).engs = s.engs := rfl
@[simp] theorem State.poolWr_poolErr (s : State) (g off : Nat) (l : List Byte) : (s.poolWr g off l).poolErr = s.poolErr := rfl
@[simp] theorem State.poolWr_softRows (s : State) (g off : Nat) (l : List Byte) : (s.poolWr g off l).softRows = s.softRows := rfl
@[simp] theorem State.poolWr_softLanes (s : State) (g off : Nat) (l : List Byte) : (s.poolWr g off l).softLanes = s.softLanes := rfl
@[simp] theorem State.poolWr_pmem (s : State) (g off : Nat) (l : List Byte) : (s.poolWr g off l).pmem = s.pmem := rfl
@[simp] theorem State.poolWr_chans (s : State) (g off : Nat) (l : List Byte) : (s.poolWr g off l).chans = s.chans := rfl
@[simp] theorem State.poolWr_lineErr (s : State) (g off : Nat) (l : List Byte) : (s.poolWr g off l).lineErr = s.lineErr := rfl
@[simp] theorem State.poolWr_ownCache (s : State) (g off : Nat) (l : List Byte) : (s.poolWr g off l).ownCache = s.ownCache := rfl
@[simp] theorem State.poolWr_ownPend (s : State) (g off : Nat) (l : List Byte) : (s.poolWr g off l).ownPend = s.ownPend := rfl
@[simp] theorem State.poolWr_relays (s : State) (g off : Nat) (l : List Byte) : (s.poolWr g off l).relays = s.relays := rfl
@[simp] theorem State.poolWr_fills (s : State) (g off : Nat) (l : List Byte) : (s.poolWr g off l).fills = s.fills := rfl
@[simp] theorem State.poolWr_slots (s : State) (g off : Nat) (l : List Byte) : (s.poolWr g off l).slots = s.slots := rfl
@[simp] theorem State.poolWr_retired (s : State) (g off : Nat) (l : List Byte) : (s.poolWr g off l).retired = s.retired := rfl
@[simp] theorem State.poolWr_sec (s : State) (g off : Nat) (l : List Byte) : (s.poolWr g off l).sec = s.sec := rfl
@[simp] theorem State.poolWr_flash (s : State) (g off : Nat) (l : List Byte) : (s.poolWr g off l).flash = s.flash := rfl
@[simp] theorem State.poolWr_pwr (s : State) (g off : Nat) (l : List Byte) : (s.poolWr g off l).pwr = s.pwr := rfl
@[simp] theorem State.poolWr_fw (s : State) (g off : Nat) (l : List Byte) : (s.poolWr g off l).fw = s.fw := rfl
@[simp] theorem State.poolWr_board (s : State) (g off : Nat) (l : List Byte) : (s.poolWr g off l).board = s.board := rfl
@[simp] theorem State.poolWr_host (s : State) (g off : Nat) (l : List Byte) : (s.poolWr g off l).host = s.host := rfl
@[simp] theorem State.poolWr_ctxs (s : State) (g off : Nat) (l : List Byte) : (s.poolWr g off l).ctxs = s.ctxs := rfl
@[simp] theorem State.poolWr_queues (s : State) (g off : Nat) (l : List Byte) : (s.poolWr g off l).queues = s.queues := rfl
@[simp] theorem State.poolWr_mobjs (s : State) (g off : Nat) (l : List Byte) : (s.poolWr g off l).mobjs = s.mobjs := rfl
@[simp] theorem State.poolWr_fences (s : State) (g off : Nat) (l : List Byte) : (s.poolWr g off l).fences = s.fences := rfl
@[simp] theorem State.poolWr_subs (s : State) (g off : Nat) (l : List Byte) : (s.poolWr g off l).subs = s.subs := rfl
@[simp] theorem State.poolWr_nextSub (s : State) (g off : Nat) (l : List Byte) : (s.poolWr g off l).nextSub = s.nextSub := rfl
@[simp] theorem State.poolWr_nextSeq (s : State) (g off : Nat) (l : List Byte) : (s.poolWr g off l).nextSeq = s.nextSeq := rfl
@[simp] theorem State.poolWr_progs (s : State) (g off : Nat) (l : List Byte) : (s.poolWr g off l).progs = s.progs := rfl
@[simp] theorem State.poolWr_wins (s : State) (g off : Nat) (l : List Byte) : (s.poolWr g off l).wins = s.wins := rfl
@[simp] theorem State.poolWr_funcs (s : State) (g off : Nat) (l : List Byte) : (s.poolWr g off l).funcs = s.funcs := rfl
@[simp] theorem State.poolWr_lats (s : State) (g off : Nat) (l : List Byte) : (s.poolWr g off l).lats = s.lats := rfl
@[simp] theorem State.poolWr_tokens (s : State) (g off : Nat) (l : List Byte) : (s.poolWr g off l).tokens = s.tokens := rfl
@[simp] theorem State.poolWr_mlSwap (s : State) (g off : Nat) (l : List Byte) : (s.poolWr g off l).mlSwap = s.mlSwap := rfl
@[simp] theorem State.poolWr_map (s : State) (g off : Nat) (l : List Byte) : (s.poolWr g off l).map = s.map := rfl
@[simp] theorem State.poolWr_svy (s : State) (g off : Nat) (l : List Byte) : (s.poolWr g off l).svy = s.svy := rfl
@[simp] theorem State.poolWr_ras (s : State) (g off : Nat) (l : List Byte) : (s.poolWr g off l).ras = s.ras := rfl
@[simp] theorem State.poolWr_sesss (s : State) (g off : Nat) (l : List Byte) : (s.poolWr g off l).sesss = s.sesss := rfl
@[simp] theorem State.poolWr_ports (s : State) (g off : Nat) (l : List Byte) : (s.poolWr g off l).ports = s.ports := rfl
@[simp] theorem State.poolWr_reqs (s : State) (g off : Nat) (l : List Byte) : (s.poolWr g off l).reqs = s.reqs := rfl
@[simp] theorem State.poolWr_heldReduce (s : State) (g off : Nat) (l : List Byte) : (s.poolWr g off l).heldReduce = s.heldReduce := rfl
@[simp] theorem State.poolWr_flinks (s : State) (g off : Nat) (l : List Byte) : (s.poolWr g off l).flinks = s.flinks := rfl
@[simp] theorem State.poolWr_seqs (s : State) (g off : Nat) (l : List Byte) : (s.poolWr g off l).seqs = s.seqs := rfl
@[simp] theorem State.poolWr_pgrs (s : State) (g off : Nat) (l : List Byte) : (s.poolWr g off l).pgrs = s.pgrs := rfl
@[simp] theorem State.poolWr_pgals (s : State) (g off : Nat) (l : List Byte) : (s.poolWr g off l).pgals = s.pgals := rfl
@[simp] theorem State.poolWr_clocks (s : State) (g off : Nat) (l : List Byte) : (s.poolWr g off l).clocks = s.clocks := rfl
@[simp] theorem State.poolWr_snapping (s : State) (g off : Nat) (l : List Byte) : (s.poolWr g off l).snapping = s.snapping := rfl
@[simp] theorem State.poolWr_hostStop (s : State) (g off : Nat) (l : List Byte) : (s.poolWr g off l).hostStop = s.hostStop := rfl
@[simp] theorem State.poolWr_out (s : State) (g off : Nat) (l : List Byte) : (s.poolWr g off l).out = s.out := rfl
@[simp] theorem State.poolWr_tick (s : State) (g off : Nat) (l : List Byte) : (s.poolWr g off l).tick = s.tick := rfl
@[simp] theorem State.poolWr_pending (s : State) (g off : Nat) (l : List Byte) : (s.poolWr g off l).pending = s.pending := rfl
@[simp] theorem State.poolWr_rd_same (s : State) (g off : Nat) (l : List Byte) (f' : Fld) (i' : Nat) : (s.poolWr g off l).rd f' i' = s.rd f' i' := rfl
@[simp] theorem State.poolWr_flag_same (s : State) (g off : Nat) (l : List Byte) (f' : Fld) (i' : Nat) : (s.poolWr g off l).flag f' i' = s.flag f' i' := rfl
@[simp] theorem State.poolWr_gal_same (s : State) (g off : Nat) (l : List Byte) (g' : Nat) : (s.poolWr g off l).gal g' = s.gal g' := rfl
@[simp] theorem State.poolWr_eng_same (s : State) (g off : Nat) (l : List Byte) (k' : Nat) : (s.poolWr g off l).eng k' = s.eng k' := rfl
@[simp] theorem State.poolWr_ctx_same (s : State) (g off : Nat) (l : List Byte) (c' : Nat) : (s.poolWr g off l).ctx c' = s.ctx c' := rfl
@[simp] theorem State.poolWr_queue_same (s : State) (g off : Nat) (l : List Byte) (q' : Nat) : (s.poolWr g off l).queue q' = s.queue q' := rfl
@[simp] theorem State.poolWr_mobj_same (s : State) (g off : Nat) (l : List Byte) (m' : Nat) : (s.poolWr g off l).mobj m' = s.mobj m' := rfl
@[simp] theorem State.poolWr_fence_same (s : State) (g off : Nat) (l : List Byte) (k' : Nat) : (s.poolWr g off l).fence k' = s.fence k' := rfl
@[simp] theorem State.poolWr_sub_same (s : State) (g off : Nat) (l : List Byte) (t' : Nat) : (s.poolWr g off l).sub t' = s.sub t' := rfl
@[simp] theorem State.poolWr_prog_same (s : State) (g off : Nat) (l : List Byte) (k' : Nat) : (s.poolWr g off l).prog k' = s.prog k' := rfl
@[simp] theorem State.poolWr_win_same (s : State) (g off : Nat) (l : List Byte) (w' : Nat) : (s.poolWr g off l).win w' = s.win w' := rfl
@[simp] theorem State.poolWr_func_same (s : State) (g off : Nat) (l : List Byte) (f' : Nat) : (s.poolWr g off l).func f' = s.func f' := rfl
@[simp] theorem State.poolWr_part_same (s : State) (g off : Nat) (l : List Byte) (p' : Nat) : (s.poolWr g off l).part p' = s.part p' := rfl
@[simp] theorem State.poolWr_hall_same (s : State) (g off : Nat) (l : List Byte) (h' : Nat) : (s.poolWr g off l).hall h' = s.hall h' := rfl
@[simp] theorem State.poolZero_regs (s : State) (g off n : Nat) : (s.poolZero g off n).regs = s.regs := rfl
@[simp] theorem State.poolZero_gals (s : State) (g off n : Nat) : (s.poolZero g off n).gals = s.gals := rfl
@[simp] theorem State.poolZero_engs (s : State) (g off n : Nat) : (s.poolZero g off n).engs = s.engs := rfl
@[simp] theorem State.poolZero_poolErr (s : State) (g off n : Nat) : (s.poolZero g off n).poolErr = s.poolErr := rfl
@[simp] theorem State.poolZero_softRows (s : State) (g off n : Nat) : (s.poolZero g off n).softRows = s.softRows := rfl
@[simp] theorem State.poolZero_softLanes (s : State) (g off n : Nat) : (s.poolZero g off n).softLanes = s.softLanes := rfl
@[simp] theorem State.poolZero_pmem (s : State) (g off n : Nat) : (s.poolZero g off n).pmem = s.pmem := rfl
@[simp] theorem State.poolZero_chans (s : State) (g off n : Nat) : (s.poolZero g off n).chans = s.chans := rfl
@[simp] theorem State.poolZero_lineErr (s : State) (g off n : Nat) : (s.poolZero g off n).lineErr = s.lineErr := rfl
@[simp] theorem State.poolZero_ownCache (s : State) (g off n : Nat) : (s.poolZero g off n).ownCache = s.ownCache := rfl
@[simp] theorem State.poolZero_ownPend (s : State) (g off n : Nat) : (s.poolZero g off n).ownPend = s.ownPend := rfl
@[simp] theorem State.poolZero_relays (s : State) (g off n : Nat) : (s.poolZero g off n).relays = s.relays := rfl
@[simp] theorem State.poolZero_fills (s : State) (g off n : Nat) : (s.poolZero g off n).fills = s.fills := rfl
@[simp] theorem State.poolZero_slots (s : State) (g off n : Nat) : (s.poolZero g off n).slots = s.slots := rfl
@[simp] theorem State.poolZero_retired (s : State) (g off n : Nat) : (s.poolZero g off n).retired = s.retired := rfl
@[simp] theorem State.poolZero_sec (s : State) (g off n : Nat) : (s.poolZero g off n).sec = s.sec := rfl
@[simp] theorem State.poolZero_flash (s : State) (g off n : Nat) : (s.poolZero g off n).flash = s.flash := rfl
@[simp] theorem State.poolZero_pwr (s : State) (g off n : Nat) : (s.poolZero g off n).pwr = s.pwr := rfl
@[simp] theorem State.poolZero_fw (s : State) (g off n : Nat) : (s.poolZero g off n).fw = s.fw := rfl
@[simp] theorem State.poolZero_board (s : State) (g off n : Nat) : (s.poolZero g off n).board = s.board := rfl
@[simp] theorem State.poolZero_host (s : State) (g off n : Nat) : (s.poolZero g off n).host = s.host := rfl
@[simp] theorem State.poolZero_ctxs (s : State) (g off n : Nat) : (s.poolZero g off n).ctxs = s.ctxs := rfl
@[simp] theorem State.poolZero_queues (s : State) (g off n : Nat) : (s.poolZero g off n).queues = s.queues := rfl
@[simp] theorem State.poolZero_mobjs (s : State) (g off n : Nat) : (s.poolZero g off n).mobjs = s.mobjs := rfl
@[simp] theorem State.poolZero_fences (s : State) (g off n : Nat) : (s.poolZero g off n).fences = s.fences := rfl
@[simp] theorem State.poolZero_subs (s : State) (g off n : Nat) : (s.poolZero g off n).subs = s.subs := rfl
@[simp] theorem State.poolZero_nextSub (s : State) (g off n : Nat) : (s.poolZero g off n).nextSub = s.nextSub := rfl
@[simp] theorem State.poolZero_nextSeq (s : State) (g off n : Nat) : (s.poolZero g off n).nextSeq = s.nextSeq := rfl
@[simp] theorem State.poolZero_progs (s : State) (g off n : Nat) : (s.poolZero g off n).progs = s.progs := rfl
@[simp] theorem State.poolZero_wins (s : State) (g off n : Nat) : (s.poolZero g off n).wins = s.wins := rfl
@[simp] theorem State.poolZero_funcs (s : State) (g off n : Nat) : (s.poolZero g off n).funcs = s.funcs := rfl
@[simp] theorem State.poolZero_lats (s : State) (g off n : Nat) : (s.poolZero g off n).lats = s.lats := rfl
@[simp] theorem State.poolZero_tokens (s : State) (g off n : Nat) : (s.poolZero g off n).tokens = s.tokens := rfl
@[simp] theorem State.poolZero_mlSwap (s : State) (g off n : Nat) : (s.poolZero g off n).mlSwap = s.mlSwap := rfl
@[simp] theorem State.poolZero_map (s : State) (g off n : Nat) : (s.poolZero g off n).map = s.map := rfl
@[simp] theorem State.poolZero_svy (s : State) (g off n : Nat) : (s.poolZero g off n).svy = s.svy := rfl
@[simp] theorem State.poolZero_ras (s : State) (g off n : Nat) : (s.poolZero g off n).ras = s.ras := rfl
@[simp] theorem State.poolZero_sesss (s : State) (g off n : Nat) : (s.poolZero g off n).sesss = s.sesss := rfl
@[simp] theorem State.poolZero_ports (s : State) (g off n : Nat) : (s.poolZero g off n).ports = s.ports := rfl
@[simp] theorem State.poolZero_reqs (s : State) (g off n : Nat) : (s.poolZero g off n).reqs = s.reqs := rfl
@[simp] theorem State.poolZero_heldReduce (s : State) (g off n : Nat) : (s.poolZero g off n).heldReduce = s.heldReduce := rfl
@[simp] theorem State.poolZero_flinks (s : State) (g off n : Nat) : (s.poolZero g off n).flinks = s.flinks := rfl
@[simp] theorem State.poolZero_seqs (s : State) (g off n : Nat) : (s.poolZero g off n).seqs = s.seqs := rfl
@[simp] theorem State.poolZero_pgrs (s : State) (g off n : Nat) : (s.poolZero g off n).pgrs = s.pgrs := rfl
@[simp] theorem State.poolZero_pgals (s : State) (g off n : Nat) : (s.poolZero g off n).pgals = s.pgals := rfl
@[simp] theorem State.poolZero_clocks (s : State) (g off n : Nat) : (s.poolZero g off n).clocks = s.clocks := rfl
@[simp] theorem State.poolZero_snapping (s : State) (g off n : Nat) : (s.poolZero g off n).snapping = s.snapping := rfl
@[simp] theorem State.poolZero_hostStop (s : State) (g off n : Nat) : (s.poolZero g off n).hostStop = s.hostStop := rfl
@[simp] theorem State.poolZero_out (s : State) (g off n : Nat) : (s.poolZero g off n).out = s.out := rfl
@[simp] theorem State.poolZero_tick (s : State) (g off n : Nat) : (s.poolZero g off n).tick = s.tick := rfl
@[simp] theorem State.poolZero_pending (s : State) (g off n : Nat) : (s.poolZero g off n).pending = s.pending := rfl
@[simp] theorem State.poolZero_rd_same (s : State) (g off n : Nat) (f' : Fld) (i' : Nat) : (s.poolZero g off n).rd f' i' = s.rd f' i' := rfl
@[simp] theorem State.poolZero_flag_same (s : State) (g off n : Nat) (f' : Fld) (i' : Nat) : (s.poolZero g off n).flag f' i' = s.flag f' i' := rfl
@[simp] theorem State.poolZero_gal_same (s : State) (g off n : Nat) (g' : Nat) : (s.poolZero g off n).gal g' = s.gal g' := rfl
@[simp] theorem State.poolZero_eng_same (s : State) (g off n : Nat) (k' : Nat) : (s.poolZero g off n).eng k' = s.eng k' := rfl
@[simp] theorem State.poolZero_ctx_same (s : State) (g off n : Nat) (c' : Nat) : (s.poolZero g off n).ctx c' = s.ctx c' := rfl
@[simp] theorem State.poolZero_queue_same (s : State) (g off n : Nat) (q' : Nat) : (s.poolZero g off n).queue q' = s.queue q' := rfl
@[simp] theorem State.poolZero_mobj_same (s : State) (g off n : Nat) (m' : Nat) : (s.poolZero g off n).mobj m' = s.mobj m' := rfl
@[simp] theorem State.poolZero_fence_same (s : State) (g off n : Nat) (k' : Nat) : (s.poolZero g off n).fence k' = s.fence k' := rfl
@[simp] theorem State.poolZero_sub_same (s : State) (g off n : Nat) (t' : Nat) : (s.poolZero g off n).sub t' = s.sub t' := rfl
@[simp] theorem State.poolZero_prog_same (s : State) (g off n : Nat) (k' : Nat) : (s.poolZero g off n).prog k' = s.prog k' := rfl
@[simp] theorem State.poolZero_win_same (s : State) (g off n : Nat) (w' : Nat) : (s.poolZero g off n).win w' = s.win w' := rfl
@[simp] theorem State.poolZero_func_same (s : State) (g off n : Nat) (f' : Nat) : (s.poolZero g off n).func f' = s.func f' := rfl
@[simp] theorem State.poolZero_part_same (s : State) (g off n : Nat) (p' : Nat) : (s.poolZero g off n).part p' = s.part p' := rfl
@[simp] theorem State.poolZero_hall_same (s : State) (g off n : Nat) (h' : Nat) : (s.poolZero g off n).hall h' = s.hall h' := rfl

@[simp] theorem State.setGal_gals (s : State) (g : Nat) (x : Gal) : (s.setGal g x).gals = s.gals.set .idle g x := rfl
@[simp] theorem State.emit_out (s : State) (o : Out) : (s.emit o).out = s.out ++ [o] := rfl
@[simp] theorem State.ticked_tick (s : State) : s.ticked.tick = s.tick + 1 := rfl

end Sys2Proof.Machine
end

