-- ==== Sys2Proof/Laws/Issue.lean ====
section
/-! SUPPORT. What a command answers once it is well-formed and the part is not stopped, and what the issue of a bundle with one slot can do. -/

namespace Sys2Proof.Machine

theorem gate_next (s k : State) {ok : Bool} (h : ok = true) (hs : s.pwr.stop = 0) : gate s ok k = .next k := by
  simp [gate, h, hs]

theorem gateRead_next (s k : State) {ok : Bool} (h : ok = true) (hs : s.pwr.stop ≤ 1) : gateRead s ok k = .next k := by
  simp [gateRead, h, hs]

theorem checked_next (s k : State) {c : Instr} (h : c.wf = true) (hs : s.pwr.stop = 0) : checked s c k = .next k :=
  gate_next s k h hs

/-- An illegal slot traps. -/
theorem issueOne_illegal (s : State) (g : Nat) (a : SlotAct) (hr : s.bundleDue g) (hl : a.legal = false) :
    s.issueOne g a = (s.deliver g).raiseTrap g a.n tILLEGAL 0 ((s.deliver g).gal g).pc := by
  obtain ⟨_, _, h3, h4, h5, h6, h7, h8, h9, h10⟩ := hr
  have hn : ¬ (1024 ≤ ((s.deliver g).gal g).sinceMark) := by omega
  simp [State.issueOne, State.issueBundle, h3, h4, h5, h6, h7, h8, hn, h10, evalSlots, hl]

/-- A legal slot whose predicate is false does nothing. -/
theorem issueOne_false (s : State) (g : Nat) (a : SlotAct) (hr : s.bundleDue g) (hl : a.legal = true)
    (hp : (s.deliver g).predTrue g a.p = false) : s.issueOne g a = s.bundleDone g (s.deliver g) := by
  obtain ⟨_, _, h3, h4, h5, h6, h7, h8, h9, h10⟩ := hr
  have hn : ¬ (1024 ≤ ((s.deliver g).gal g).sinceMark) := by omega
  simp [State.issueOne, State.issueBundle, h3, h4, h5, h6, h7, h8, hn, h10, evalSlots, hl, hp, State.afterIssue, State.bundleDone]

/-- A slot that acts. -/
theorem issueOne_ok (s : State) (g : Nat) (a : SlotAct) (t : State) (m : Option Mark) (hr : s.canIssue g a.p) (hl : a.legal = true)
    (ha : a.act (s.deliver g) = .ok t m) : s.issueOne g a = (s.bundleDone g t).afterIssue g m := by
  obtain ⟨⟨_, _, h3, h4, h5, h6, h7, h8, h9, h10⟩, hp⟩ := hr
  have hn : ¬ (1024 ≤ ((s.deliver g).gal g).sinceMark) := by omega
  simp [State.issueOne, State.issueBundle, h3, h4, h5, h6, h7, h8, hn, h10, evalSlots, hl, hp, ha, State.bundleDone]

/-- A slot that traps. -/
theorem issueOne_trap (s : State) (g : Nat) (a : SlotAct) (c i : Nat) (side : State → State) (hr : s.canIssue g a.p)
    (hl : a.legal = true) (ha : a.act (s.deliver g) = .trap c i side) :
    s.issueOne g a = (side (s.deliver g)).raiseTrap g a.n c i ((s.deliver g).gal g).pc := by
  obtain ⟨⟨_, _, h3, h4, h5, h6, h7, h8, h9, h10⟩, hp⟩ := hr
  have hn : ¬ (1024 ≤ ((s.deliver g).gal g).sinceMark) := by omega
  simp [State.issueOne, State.issueBundle, h3, h4, h5, h6, h7, h8, hn, h10, evalSlots, hl, hp, ha]

end Sys2Proof.Machine
end

