-- ==== Sys2Proof/Laws/Pool.lean ====
section
/-! SUPPORT. What an access of a program to its pool does when every check passes, and when one fails. -/

namespace Sys2Proof.Machine

/-- Without a wipe, a bank that is not being cleared is alive. -/
theorem bankDead_false (s : State) (g : Nat) (l : List Nat) (hw : s.flag .GAL_POOL_CFG_wipe g = false)
    (h : l.any (fun b => s.flag .GAL_BANK_OWNER_busy (64 * g + b)) = false) : l.any (s.bankDead g) = false := by
  rw [List.any_eq_false] at h ⊢
  intro b hb
  simpa [State.bankDead, hw] using h b hb

theorem poolRead_plain (s : State) (g off len rank ctx : Nat) (he : s.poolErr = []) (hw : s.flag .GAL_POOL_CFG_wipe g = false)
    (hb : s.banksReady g off len) : s.poolRead g off len rank ctx = (.ok (s.poolRd g off len), s) := by
  unfold State.poolRead
  rw [he, hw, bankDead_false s g _ hw hb]
  rfl

theorem poolWrite_plain (s : State) (g off rank ctx : Nat) (b : List Byte) (he : s.poolErr = [])
    (hw : s.flag .GAL_POOL_CFG_wipe g = false) (hb : s.banksReady g off b.length) :
    s.poolWrite g off rank ctx b = (.ok [], s.poolWr g off b) := by
  have hd := bankDead_false s g _ hw hb
  unfold State.poolWrite
  dsimp only
  rw [he, hw, hd]
  rfl

theorem arbitrate_plain (s : State) (g : Nat) (l : List Nat) (h : s.poolPlain g) : s.arbitrate g l = s := by
  obtain ⟨_, _, h1, h2, h3, h4⟩ := h
  simp [State.arbitrate, h1, h2, h3, h4]

/-- A range that passes every check. -/
theorem memChecked_ok (s : State) (g off len al : Nat) (k : State → SlotRes) (h : s.rangeOk g off len al) :
    memChecked g off len al k s = k s := by
  obtain ⟨h1, h2, h3, _⟩ := h
  simp only [State.regionFree, Bool.and_eq_true, Bool.not_eq_true'] at h1
  simp [memChecked, h1.1.1, h1.1.2, h1.2, h2, h3]

theorem memChecked_region (s : State) (g off len al : Nat) (k : State → SlotRes) (h : s.regionFree g off len = false) :
    memChecked g off len al k s = .plain tPOOL_BOUNDS := by
  have : (!inWindow off len (s.winBase g) (s.winLimit g) || s.inSems g off len || s.inPager g off len) = true := by
    cases h1 : inWindow off len (s.winBase g) (s.winLimit g) <;> cases h2 : s.inSems g off len <;> cases h3 : s.inPager g off len <;>
      simp [State.regionFree, h1, h2, h3] at h ⊢
  simp [memChecked, this]

theorem memChecked_viols (s : State) (g off len al : Nat) (k : State → SlotRes) (h : s.regionFree g off len = true)
    (hv : s.bankViols g off len (s.taskCtx g) ≠ []) :
    memChecked g off len al k s = .trap tPOOL_BOUNDS 0 (fun s' => s'.setViols g (s.bankViols g off len (s.taskCtx g))) := by
  simp only [State.regionFree, Bool.and_eq_true, Bool.not_eq_true'] at h
  simp [memChecked, h.1.1, h.1.2, h.2, hv]

theorem memChecked_align (s : State) (g off len al : Nat) (k : State → SlotRes) (h : s.regionFree g off len = true)
    (hv : s.bankViols g off len (s.taskCtx g) = []) (ha : off % al ≠ 0) : memChecked g off len al k s = .plain tALIGN := by
  simp only [State.regionFree, Bool.and_eq_true, Bool.not_eq_true'] at h
  simp [memChecked, h.1.1, h.1.2, h.2, hv, ha]

theorem seqRead_plain (s : State) (g off len : Nat) (k : List Byte → State → SlotRes) (h : s.poolPlain g)
    (hb : s.banksReady g off len) : seqRead g off len k s = k (s.poolRd g off len) s := by
  simp only [seqRead, arbitrate_plain s g _ h, poolRead_plain s g off len _ _ h.1 h.2.1 hb]

theorem seqWrite_plain (s : State) (g off : Nat) (b : List Byte) (k : State → SlotRes) (h : s.poolPlain g)
    (hb : s.banksReady g off b.length) : seqWrite g off b k s = k (s.poolWr g off b) := by
  simp only [seqWrite, arbitrate_plain s g _ h, poolWrite_plain s g off _ _ b h.1 h.2.1 hb]

theorem natLe_length (n v : Nat) : (natLe n v).length = n := by
  induction n generalizing v with
  | zero => rfl
  | succ n ih => simp [natLe, ih]

theorem leNat_natLe (n v : Nat) (h : v < 256 ^ n) : leNat (natLe n v) = v := by
  induction n generalizing v with
  | zero => simp at h; subst h; rfl
  | succ n ih =>
    rw [natLe, leNat, ih (v / 256) (by rw [Nat.pow_succ] at h; omega)]
    simp; omega

theorem Tab_getMany_length {α : Type} (d : α) (t : Tab α) (k n : Nat) : (Tab.getMany d t k n).length = n := by
  induction n generalizing k with
  | zero => rfl
  | succ n ih => simp [Tab.getMany, ih]

theorem Tab_setMany_get {α : Type} [DecidableEq α] (d : α) (l : List α) (t : Tab α) (k x : Nat) :
    (t.setMany d k l).get d x = if h : k ≤ x ∧ x < k + l.length then l[x - k]'(by omega) else t.get d x := by
  induction l generalizing t k with
  | nil =>
    rw [dif_neg (by simp)]
    rfl
  | cons v l ih =>
    rw [Tab.setMany, ih, Tab.get_set]
    by_cases hx : x = k
    · subst hx; simp
    · by_cases h1 : k + 1 ≤ x ∧ x < k + 1 + l.length
      · rw [dif_pos h1, dif_pos (by simp only [List.length_cons]; omega)]
        rw [List.getElem_cons, dif_neg (by omega)]
        congr 1
      · rw [dif_neg h1, if_neg hx, dif_neg (by simp only [List.length_cons]; omega)]

theorem Tab_getMany_eq {α : Type} (d : α) (t : Tab α) (k n : Nat) :
    Tab.getMany d t k n = (List.range n).map (fun i => t.get d (k + i)) := by
  induction n generalizing k with
  | zero => rfl
  | succ n ih =>
    rw [Tab.getMany, ih, List.range_succ_eq_map]
    simp [Nat.add_comm, Nat.add_left_comm]

/-- What is written is read back. -/
theorem memRead_memWrite (m : List Host.Cell) (a : Nat) (l : List Byte) : memRead (memWrite m a l) a l.length = l := by
  rw [memRead, memWrite, Tab_getMany_eq]
  apply List.ext_getElem
  · simp
  · intro i h1 h2
    simp only [List.length_map, List.length_range] at h1
    simp only [List.getElem_map, List.getElem_range]
    rw [Tab_setMany_get, dif_pos (by omega)]
    simp

/-- Bytes outside the range written read as before. -/
theorem memRead_memWrite_other (m : List Host.Cell) (a b n : Nat) (l : List Byte) (h : b + n ≤ a ∨ a + l.length ≤ b) :
    memRead (memWrite m a l) b n = memRead m b n := by
  rw [memRead, memWrite, memRead, Tab_getMany_eq, Tab_getMany_eq]
  apply List.map_congr_left
  intro i hi
  rw [List.mem_range] at hi
  rw [Tab_setMany_get, dif_neg (by omega)]

end Sys2Proof.Machine
end

