-- ==== Sys2Proof/Laws/Vector.lean ====
section
/-! SUPPORT. The lanes of vector words: what packing a list of lanes leaves in each lane, and the lanes a word is read as. -/

namespace Sys2Proof.Machine

theorem packSum_lane (w : Nat) (xs : List Nat) (l : Nat) :
    (xs.foldr (fun v acc => v % 2 ^ w + 2 ^ w * acc) 0) >>> (w * l) % 2 ^ w = xs.getD l 0 % 2 ^ w := by
  induction xs generalizing l with
  | nil => simp
  | cons x xs ih =>
    have hp : 0 < 2 ^ w := Nat.two_pow_pos w
    cases l with
    | zero => simp [Nat.add_mul_mod_self_left]
    | succ l =>
      rw [List.foldr_cons, List.getD_cons_succ, ← ih l, Nat.mul_succ, Nat.add_comm (w * l) w, Nat.shiftRight_add]
      congr 2
      rw [Nat.shiftRight_eq_div_pow, Nat.add_mul_div_left _ _ hp, Nat.div_eq_of_lt (Nat.mod_lt _ hp), Nat.zero_add]

/-- Lane l of a packed list. -/
theorem laneOf_packLanes (ty : Nat) (xs : List Nat) (l : Nat) (h : l < laneN ty) :
    laneOf ty (packLanes (laneW ty) xs) l = xs.getD l 0 % 2 ^ laneW ty := by
  have hw : laneW ty * l + laneW ty ≤ 4096 := by
    unfold laneN at h
    unfold laneW
    split at h <;> simp_all <;> omega
  rw [← packSum_lane]
  unfold laneOf packLanes
  rw [BitVec.toNat_ofNat]
  generalize xs.foldr _ 0 = n
  apply Nat.eq_of_testBit_eq
  intro i
  simp only [Nat.testBit_mod_two_pow, Nat.testBit_shiftRight]
  by_cases hi : i < laneW ty
  · have : laneW ty * l + i < 4096 := by omega
    simp [hi, this]
  · simp [hi]

/-- The lanes of a register, by number. -/
theorem vlanes_getD (s : State) (g r c ty l : Nat) (h : l < laneN ty) :
    (s.vlanes g r c ty).getD l 0 = laneOf ty (s.vreg g r c) l := by
  simp [State.vlanes, lanesOf, laneOf, List.getD, h]

theorem map1_getD (f : Nat → Nat → FpRes) (xs : List Nat) (l : Nat) (h : l < xs.length) :
    ((map1 f xs).map FpRes.bits).getD l 0 = (f l (xs.getD l 0)).bits := by
  simp [map1, List.getD, h]

theorem vlanes_length (s : State) (g r c ty : Nat) : (s.vlanes g r c ty).length = laneN ty := by
  simp [State.vlanes, lanesOf]

/-- A vector result by lane. -/
theorem putV_lanes (g vd lat ty : Nat) (f : Nat → List FpRes) (d : State) :
    ∃ (fl : Nat) (w : Nat → VWord), putV g vd lat (laneW ty) f d = .ok (d.pendRes g 2 lat fl (.v vd (w 0) (w 1) (w 2) (w 3))) none
      ∧ ∀ c < 4, ∀ l < laneN ty, laneOf ty (w c) l = ((f c).map FpRes.bits).getD l 0 % 2 ^ laneW ty := by
  refine ⟨_, fun c => packLanes (laneW ty) ((((List.range 4).map f).getD c []).map FpRes.bits), rfl, ?_⟩
  intro c hc l hl
  rw [laneOf_packLanes _ _ _ hl]
  have : ((List.range 4).map f).getD c [] = f c := by simp [List.getD, hc]
  rw [this]

end Sys2Proof.Machine
end

