-- ==== Sys2Proof/Tests/Slice0.lean ====
section
/-! SUPPORT. Tests of the model: commands that name a unit the part has not, words of instructions written out from their encodings,
numbers worked by hand from the spec, and for every statement with hypotheses a state and operands that meet them. -/

namespace Sys2Proof.Tests

open Sys2Proof.Machine

set_option maxRecDepth 20000
set_option Elab.async false

-- States ------------------------------------------------------------------------------------------------------------------

/-- A state with some register fields set. -/
def withRegs (l : List (Fld × Nat × Nat)) (s : State) : State := l.foldl (fun s e => s.wr e.1 e.2.1 e.2.2) s

/-- The start-up is over and the PCI Express link is up. -/
def up (s : State) : State := withRegs [(.DEV_STAT_step, 0, 10)] { s with board := { s.board with pcie := true } }

/-- Partition 0, of slices 0 and 1, served by function 1. -/
def part0 : Part :=
  { Part.absent with
    defined := true, func := 1, ctxQuota := 4, qQuota := 4, fenceQuota := 4, winQuota := 4, slices := [0, 1], octets := [0, 1],
    order := [0, 1], exts := [0], w := 1, seqQuota := 8, pgrPages := 4, pgrBase := 256, phbmBase := 0x8000, phbmFrames := 16,
    peers := [⟨7, 0, 1⟩] }

/-- Context 5 of partition 0, live, with a page table at 0x10000 that maps the first GiB of its addresses to the first GiB of the
partition's memory, pinned and writable. -/
def ctx5 : Ctx := { Ctx.free with st := 2, prt := 0, func := 1, root := some 0x10000, weight := 1, epoch := 3 }
def withPart (s : State) : State :=
  { s with map := ⟨[(0, part0)], .default⟩, pmem := [(0x10000, 0x01), (0x10001, 0x10), (0x10002, 0x01), (0x11000, 0x0B)], ctxs := [(5, ctx5)] }

/-- Gallery 0 runs task 1 of context 5 alone in its span, on a pool of zeros, with a window from 0 to 16 MiB. -/
def task1 : Sub := { Sub.none with stage := .placed, isTask := true, ctx := 5, span := 1, started := true, gals := [0] }
def runs (x : Gal) : State :=
  withRegs [(.GAL_SEQ_CTRL_run, 0, 1), (.GAL_SPAN_len, 0, 1), (.GAL_TASK_WIN_limit, 0, 0x1000000)]
    (({ State.reset with subs := [(1, task1)] }).setGal 0 { x with task := some 1, started := true })

/-- A gallery in mid-program: a scalar and an address of every sign, a result due now and one on its way. -/
def mid : Gal :=
  { Gal.idle with
    pc := 64, lcycle := 9, s := [(1, 256), (2, 0xFFFFFFFFFFFFFFF9), (3, 67)], a := [(1, 0x1000), (2, 0xFFFFFFFFFFFF), (3, 0x40000)],
    p := [(1, true)], pend := [⟨9, 0, .s 4 77, 0⟩, ⟨12, 0, .s 5 1, 0⟩] }
def quiet : Gal := { mid with pend := [] }

def always : Pred := ⟨0, false⟩
def if1 : Pred := ⟨1, false⟩

-- Slots --------------------------------------------------------------------------------------------------------------------

theorem test_canIssue : (runs mid).canIssue 0 always ∧ (runs mid).canIssue 0 if1 ∧ (runs quiet).canIssue 0 always := by
  unfold State.canIssue State.bundleDue; decide

/-- ScalarOperations: format RI with every destination field the clauses name, RDCTL with each control. -/
theorem test_ScalarOperations_met :
    (RI.ok ⟨.s0, always, 4, 0, 0xFFFFF⟩ = true ∧ RI.ok ⟨.s0, if1, 4, 0, -0x200000⟩ = true)
      ∧ ∀ k ∈ [0, 1, 2, 3], RI.ok ⟨.s0, always, 4, 0, k⟩ = true := by decide

theorem test_AddressesAndPredicates_met : RI.ok ⟨.s1, always, 6, 2, -0x2000⟩ = true ∧ RIP.ok ⟨.s1, always, 6, 2, 0x1FFF⟩ = true := by decide

/-- ControlAndMarks, CallStack: neither in a delay bundle nor in a loop; a return stack with room, full, empty; a target in the window. -/
theorem test_ControlAndMarks_met :
    (∀ k ∈ [-0x200000, 0, 1, 256, 65535, 0xFFFFF], CT.ok ⟨always, 0, k⟩ = true ∧ CT.ok ⟨always, 1, k⟩ = true)
      ∧ (((runs mid).deliver 0).gal 0).delay = none ∧ (((runs mid).deliver 0).gal 0).loops = []
      ∧ (((runs { mid with rets := [32, 64] }).deliver 0).gal 0).rets = [32, 64]
      ∧ inWindow (((runs mid).deliver 0).areg 0 1).toNat 32 (((runs mid).deliver 0).winBase 0) (((runs mid).deliver 0).winLimit 0) = true
      ∧ (((runs mid).deliver 0).areg 0 1).toNat % 32 = 0
      ∧ ((runs quiet).deliver 0).markOk 0 = true ∧ ((runs quiet).deliver 0).flag .GAL_SEQ_TRAP_valid 0 = false := by decide

theorem test_CallStack_met :
    (∀ l ∈ [[1, 2, 3, 4, 5, 6, 7, 8], [1, 2, 3, 4, 5, 6, 7], []], (((runs { mid with rets := l }).deliver 0).gal 0).rets = l
        ∧ (((runs { mid with rets := l }).deliver 0).gal 0).delay = none ∧ (((runs { mid with rets := l }).deliver 0).gal 0).loops = [])
      ∧ (runs { mid with rets := [1, 2, 3, 4, 5, 6, 7, 8] }).canIssue 0 always := by
  unfold State.canIssue State.bundleDue; decide

/-- SlotOutcomes: an illegal slot, a predicate that is false, an effect and a trap. -/
def notP1 : Pred := ⟨1, true⟩
theorem test_SlotOutcomes_met :
    (runs mid).bundleDue 0
      ∧ (slotAct (.vadd 0 ⟨always, 1, 2, 3, 4, 0, 0, 0, 0⟩)).any (fun a => !a.legal) = true
      ∧ (slotAct (.add 0 ⟨.s0, notP1, 1, 2, 3⟩)).any (fun a => a.legal && !((runs mid).deliver 0).predTrue 0 a.p) = true
      ∧ (slotAct (.add 0 ⟨.s0, always, 1, 2, 3⟩)).any (fun a => a.legal && ((runs mid).deliver 0).predTrue 0 a.p
          && (match a.act ((runs mid).deliver 0) with | .ok _ _ => true | _ => false)) = true
      ∧ (slotAct (.trap 0 ⟨always, 0, 3⟩)).any (fun a => a.legal && ((runs mid).deliver 0).predTrue 0 a.p
          && (match a.act ((runs mid).deliver 0) with | .trap _ _ _ => true | _ => false)) = true := by
  unfold State.bundleDue; decide

/-- ResultsArrive: nothing in flight; results in flight only to other registers. -/
theorem test_ResultsArrive_met :
    (((runs quiet).deliver 0).gal 0).pend = [] ∧ (∀ e ∈ ((runs mid).gal 0).pend, e.res.target ≠ (Result.s 3 0).target)
      ∧ (∀ e ∈ ((runs mid).gal 0).pend, e.res.target ≠ (Result.a 3 0).target) ∧ (∀ e ∈ ((runs mid).gal 0).pend, e.res.target ≠ (Result.p 3 true).target) := by
  decide

/-- VectorOperations, VectorMasksAndAcross, VectorConversions: legal fields of each clause, in each type and at the end of the registers. -/
theorem test_Vector_met :
    (vArith ⟨always, 63, 63, 63, 63, 2, 1, 31, 0⟩ = true ∧ vArith ⟨always, 0, 1, 2, 0, 0, 2, 0, 0⟩ = true)
      ∧ vTwo ⟨always, 63, 1, 2, 0, 0, 2, 0, 0⟩ = true ∧ vOne ⟨always, 15, 1, 0, 0, 0, 0, 0, 0⟩ = true
      ∧ vFpOne ⟨always, 15, 1, 0, 0, 2, 1, 31, 0⟩ = true ∧ vWhole ⟨always, 0, 1, 2, 0, 0, 0, 0, 0⟩ = true
      ∧ vNoRm ⟨always, 0, 1, 2, 3, 0, 1, 0, 0⟩ = true
      ∧ (∀ k ∈ [(0 : Fin 16), 1], vCvtOk ⟨always, 3, 1, 2, 0, 2, 0, 31, k⟩ = true) ∧ (∀ k ∈ [(2 : Fin 16), 3, 4, 5], vCvtOk ⟨always, 3, 1, 0, 0, 0, 0, 0, k⟩ = true)
      ∧ (∀ k ∈ [(6 : Fin 16), 7], vCvtOk ⟨always, 3, 1, 0, 0, 1, 0, 0, k⟩ = true) ∧ (∀ k ∈ [(8 : Fin 16), 9], vCvtOk ⟨always, 3, 1, 0, 0, 2, 3, 4, k⟩ = true)
      ∧ ∀ k ∈ [(10 : Fin 16), 11], vCvtOk ⟨always, 3, 1, 0, 0, 0, 3, 0, k⟩ = true := by decide

-- Memory and engine posts ----------------------------------------------------------------------------------------------------

/-- PoolAccesses: an access at a bank boundary; a region outside the window, a bank of another context, an address off its alignment. -/
def loads : State := runs quiet
def owned : State := withRegs [(.GAL_BANK_OWNER_valid, 32, 1), (.GAL_BANK_OWNER_ctx, 32, 6)] loads
theorem test_PoolAccesses_met :
    MemOp.ok ⟨always, 31, 1, 0x1FFFFFF⟩ = true ∧ AtmOp.ok ⟨always, 4, 1, 2, -0x100000⟩ = true ∧ (loads.deliver 0).poolPlain 0
      ∧ (∀ e ∈ [(2048, 128), (512, 128), (8, 8), (4, 4)], (loads.deliver 0).rangeOk 0 0x1000 e.1 e.2)
      ∧ (loads.deliver 0).regionFree 0 0x1000000 4 = false ∧ (loads.deliver 0).regionFree 0 0x1001 8 = true
      ∧ (loads.deliver 0).bankViols 0 0x1001 8 5 = [] ∧ 0x1001 % 4 ≠ 0
      ∧ (owned.deliver 0).regionFree 0 0x1000 8 = true ∧ (owned.deliver 0).bankViols 0 0x1000 8 ((owned.deliver 0).taskCtx 0) ≠ [] := by
  unfold State.poolPlain State.rangeOk State.banksReady; decide

/-- FarMoves: 16 moves outstanding; lengths on both sides of the bounds; a translated, an untranslated, a window address; moves whose data
has come, to and from device memory and through a window. -/
def move1 : FarMove := ⟨true, 0x1000, 0x40000, 256, 9, 1, none, 0⟩
def reach : State :=
  { withPart (runs quiet) with wins := [(3, { Win.free with kind := 2, ctx := 5, peer := 7, size := 0x10000, rights := 3 })] }
def moving (f : FarMove) : State := { withPart (runs { quiet with fars := [f] }) with nextSeq := 2 }
theorem test_FarMoves_met :
    reach.canIssue 0 always ∧ (runs { quiet with fars := List.replicate 16 move1 }).canIssue 0 always
      ∧ (reach.deliver 0).rangeOk 0 0x1000 256 128
      ∧ (reach.deliver 0).farOk 5 0x40000 256 true = true ∧ (reach.deliver 0).farOk 5 0x40000000 256 false = false
      ∧ (reach.deliver 0).winOk 5 3 0x100 128 0 = true ∧ (reach.deliver 0).winOk 5 2 0 128 1 = false ∧ (reach.deliver 0).poolPlain 0 := by
  unfold State.canIssue State.bundleDue State.poolPlain State.rangeOk State.banksReady; decide
def arrives (get : Bool) (win : Option Nat) : Bool :=
  let f : FarMove := { move1 with get := get, win := win, len := 128 }
  let s := moving f
  let w := (s.dropReqs (.far 0 1)).modGal 0 (fun x => { x with fars := x.fars.eraseIdx 0 })
  s.running 0 && (s.gal 0).fars[0]? == some f && f.err == 0 && s.reqsDone (.far 0 1) && !s.reqsBad (.far 0 1) && !s.hostHeld 5 f.fa f.len
    && (match win, get with
      | none, true => (match w.farRead 0 5 f.fa f.len with
        | (.ok b, u) => (match u.poolWrite 0 f.pa 7 5 b with | (.ok [], _) => true | _ => false)
        | _ => false)
      | none, false => (match w.poolRead 0 f.pa f.len 7 5 with
        | (.ok b, u) => (match u.farWrite 0 5 f.fa b with | (.ok [], _) => true | _ => false)
        | _ => false)
      | some _, true => (match w.poolWrite 0 f.pa 7 5 (s.reqsData (.far 0 1)) with | (.ok [], _) => true | _ => false)
      | some _, false => true)
theorem test_FarMoves_end_met :
    arrives true none = true ∧ arrives false none = true ∧ arrives true (some 3) = true ∧ arrives false (some 3) = true := by
  decide +kernel

/-- Semaphores: a pool at rest; a target inside the span and one beyond it; a mark that may pass at the head; a wait elsewhere in a span. -/
theorem test_Semaphores_met :
    (loads.deliver 0).banksReady 0 ((loads.deliver 0).semOff 0 65535) 8 ∧ loads.semOff 0 9 < 2 ^ 25 ∧ loads.semOff 1 65535 < 2 ^ 25
      ∧ ((loads.deliver 0).gal 0).task = some 1 ∧ ((loads.deliver 0).sreg 0 5).toNat % 32 < (loads.deliver 0).rd .GAL_SPAN_len 0
      ∧ (loads.deliver 0).rd .GAL_SPAN_len 0 ≤ ((loads.deliver 0).sreg 0 3).toNat % 32
      ∧ (loads.deliver 0).markOk 0 = true ∧ loads.rd .GAL_SPAN_pos 0 = 0 ∧ loads.flag .GAL_SEQ_STAT_yreq 0 = false := by
  unfold State.banksReady; decide
def second : State := withRegs [(.GAL_SPAN_pos, 0, 1), (.GAL_SPAN_len, 0, 2)] (runs { quiet with wait := .swait 8 5 true })
theorem test_Semaphores_wait_met : second.running 0 = true ∧ (second.gal 0).wait = .swait 8 5 true ∧ second.rd .GAL_SPAN_pos 0 ≠ 0 := by decide

/-- EnginePost: an absent engine, a ring that is off, one with room and one that is full. -/
def posts : State := withRegs [(.GAL_ENG_RING_base, 2, 0x800), (.GAL_ENG_RING_size, 2, 1), (.GAL_ENG_RING_en, 2, 1)] loads
def postFull : State := withRegs [(.GAL_ENG_PTR_tail, 2, 1)] posts
theorem test_EnginePost_met :
    posts.canIssue 0 always ∧ (posts.deliver 0).engEnabled 0 2 = true ∧ (posts.deliver 0).flag .GAL_ENG_RING_en 2 = true
      ∧ (posts.deliver 0).flag .GAL_ENG_RING_en 1 = false ∧ (posts.deliver 0).rangeOk 0 0x1000 64 64
      ∧ (0 + 1) % 2 ^ (posts.deliver 0).rd .GAL_ENG_RING_size 2 ≠ (posts.deliver 0).rd .GAL_ENG_PTR_head 2
      ∧ (1 + 1) % 2 ^ (postFull.deliver 0).rd .GAL_ENG_RING_size 2 = (postFull.deliver 0).rd .GAL_ENG_PTR_head 2
      ∧ (posts.deliver 0).poolPlain 0 ∧ (posts.deliver 0).banksReady 0 ((posts.deliver 0).ringOff 2 0) 64 := by
  unfold State.canIssue State.bundleDue State.poolPlain State.rangeOk State.banksReady; decide

-- The array ------------------------------------------------------------------------------------------------------------------

/-- A descriptor of 2 rows, 1 group and 32 K steps; the same with its drain bit, with the keep start, and one whose kind is reserved. -/
def descBytes (kind fl half : Nat) : List Byte :=
  [BitVec.ofNat 8 kind, 0, 0, BitVec.ofNat 8 fl, 2, BitVec.ofNat 8 half] ++ natLe 2 1 ++ natLe 4 32 ++ natLe 4 0 ++ natLe 4 0x10000 ++ natLe 4 0x20000
    ++ natLe 4 0x30000 ++ natLe 4 0x40000 ++ natLe 4 0 ++ natLe 4 0x50000 ++ natLe 2 77 ++ natLe 22 0
def work (d : List Byte) : State := { runs quiet with pool := (d.zipIdx.map (fun e => (0x1000 + e.2, e.1))).filter (fun c => c.2 != 0) }
def descOf (s : State) (a : Nat) : Desc := parseDesc ((s.deliver 0).poolRd 0 a 64)
def aopFit (s : State) (a : Nat) : Bool :=
  let ds := descOf s a
  ds.fieldsOk ((s.deliver 0).rd .GAL_SPAN_len 0) && !(ds.bsrc && decide (2 ≤ ds.bHalf)) && (ds.regions true).all (fun r => regionOk r.1 r.2)
def aldbFit (s : State) (a : Nat) : Bool :=
  let ds := descOf s a
  ds.fieldsOk ((s.deliver 0).rd .GAL_SPAN_len 0) && decide (ds.bHalf < 2) && ds.bRegions.all (fun r => regionOk r.1 r.2)
    && decide (ds.kLen ≤ ds.capacity)
def plainWork : State := work (descBytes 1 0 1)
def crowded : State := plainWork.modGal 0 (fun x => { x with lastAop := some (9, 32) })
def loading : State := plainWork.modGal 0 (fun x => { x with aldb := some ⟨0, 0, descOf plainWork 0x1000, 0, 32, [], [], [], true, 0⟩ })
theorem test_ArrayIssue_met :
    (plainWork.canIssue 0 always ∧ (plainWork.deliver 0).poolErr = [] ∧ (plainWork.deliver 0).flag .GAL_POOL_CFG_wipe 0 = false
      ∧ (plainWork.deliver 0).banksReady 0 0x1000 64)
      ∧ 0x1001 % 64 ≠ 0 ∧ 0x2000000 < 0x2000000 + 64 ∧ 0x1000 % 64 = 0
      ∧ aopFit plainWork 0x1000 = true ∧ (plainWork.deliver 0).aopSeqBad 0 (descOf plainWork 0x1000) = false ∧ ((plainWork.deliver 0).gal 0).ingress = []
      ∧ aopFit (work (descBytes 3 0 1)) 0x1000 = false ∧ (work (descBytes 1 2 1)).aopSeqBad 0 (descOf (work (descBytes 1 2 1)) 0x1000) = true
      ∧ aldbFit plainWork 0x1000 = true ∧ (plainWork.deliver 0).aldbSeqBad 0 (descOf plainWork 0x1000) = false
      ∧ aldbFit (work (descBytes 1 0 2)) 0x1000 = false ∧ (loading.deliver 0).aldbSeqBad 0 (descOf loading 0x1000) = true
      ∧ regionOk 0x1000 393216 = true ∧ regionOk (0x2000000 - 393216) 393216 = true ∧ regionOk (0x2000000 - 393216 + 128) 393216 = false
      ∧ ((plainWork.deliver 0).gal 0).spaced 9 = true ∧ ((crowded.deliver 0).gal 0).spaced 9 = false := by
  unfold State.canIssue State.bundleDue State.banksReady; decide +kernel

/-- ArrayResults: an AOP at its last cycle, in each start mode and draining; a drain to the last place of the pool. -/
def oldest (fl : Nat) : ArrOp := ⟨0, 0x1000, parseDesc (descBytes 1 fl 1), 0, 32, [], [], [], true, 0⟩
def ending (fl : Nat) : State := plainWork.modGal 0 (fun x => { x with aops := [oldest fl], lcycle := 112 })
theorem test_ArrayResults_met :
    (∀ fl ∈ [0, 1, 2, 4], (ending fl).running 0 = true ∧ ((ending fl).gal 0).aops = [oldest fl] ∧ ((ending fl).gal 0).ingress = []
      ∧ (oldest fl).started = true ∧ (ending fl).rd .GAL_SPAN_pos 0 = 0 ∧ (oldest fl).t0 + 80 + (oldest fl).tk ≤ ((ending fl).gal 0).lcycle
      ∧ (ending fl).aopMetaBad 0 (oldest fl) = false)
      ∧ (oldest 0).d.drain = false ∧ (oldest 4).d.drain = true ∧ (oldest 1).d.init = 1
      ∧ (0x2000000 - 393216) % 128 = 0 ∧ plainWork.flag .GAL_POOL_CFG_wipe 0 = false
      ∧ ∀ b < 64, plainWork.flag .GAL_BANK_OWNER_busy (64 * 0 + b) = false := by decide +kernel

/-- ArrayEvents: each completion at its first cycle; an entry with and without its operation, one that differs; a hold. -/
def ends : State :=
  plainWork.modGal 0 (fun x => { x with
    lcycle := 68, aldb := some { oldest 0 with t0 := 30 }, adrns := [⟨0x80000, 0xFF, 9, 0, 128, 64⟩], aclrs := [⟨0, 3, 0, 7, 0, 0⟩] })
def entry (d : List Byte) : AEntry := ⟨0, true, d, [1], []⟩
def listens : State :=
  withRegs [(.GAL_SPAN_pos, 0, 1), (.GAL_SPAN_len, 0, 2)]
    (plainWork.modGal 0 (fun x => { x with aops := [{ oldest 0 with started := false }], lcycle := 50 }))
theorem test_ArrayEvents_met :
    ends.running 0 = true ∧ ((ends.gal 0).aldb.map (fun o => o.t0 + 6 + o.tk)) = some 68 ∧ (ends.gal 0).adrns.map (fun b => b.t0 + 68) = [68]
      ∧ (ends.gal 0).aclrs.map (fun b => b.t0 + 61) = [68]
      ∧ (plainWork.gal 0).trapped = none ∧ (plainWork.gal 0).task ≠ none ∧ (plainWork.gal 0).aops = []
      ∧ (listens.gal 0).aops = [{ oldest 0 with started := false }] ∧ (listens.gal 0).ingress = []
      ∧ (parseDesc (entry (descBytes 1 0 1)).desc).spanWide = (oldest 0).d.spanWide
      ∧ (parseDesc (entry (descBytes 2 0 1)).desc).spanWide ≠ (oldest 0).d.spanWide
      ∧ listens.running 0 = true ∧ (listens.gal 0).wait = .none ∧ listens.holds 0 = true := by decide +kernel

-- Spans, bundles and the end of tasks -----------------------------------------------------------------------------------------

/-- SpanDispatch: a gallery that has a task, and a placed task at a free one; a head before the start and a gallery after it, with reports. -/
def placed : State := { withPart State.reset with subs := [(1, { task1 with started := false, gals := [0, 1], span := 2, prog := 3 })] }
def armed (pos : Nat) (w : Wait) : State :=
  withRegs [(.GAL_SPAN_pos, 0, pos), (.GAL_SPAN_len, 0, 2)]
    (placed.setGal 0 { Gal.idle with task := some 1, ready := [1], wait := w } |>.setGal 1 { Gal.idle with task := some 1 })
theorem test_SpanDispatch_met :
    ((runs mid).gal 0).task ≠ none ∧ (placed.sub 1).stage = .placed ∧ 1 ∈ (placed.sub 1).gals ∧ (placed.gal 1).task = none
      ∧ placed.windowBusy 1 1 = false ∧ (placed.sub 1).saved = [] ∧ (placed.sub 1).parkedMem = []
      ∧ (placed.progOf 1).base + (placed.progOf 1).size ≤ 0x2000000 ∧ (placed.progOf 1).base < 0x2000000
      ∧ (placed.sub 1).gals.length ≤ 32 ∧ (placed.sub 1).span ≤ 32
      ∧ ((armed 0 .none).gal 0).task = some 1 ∧ ((armed 0 .none).gal 0).started = false ∧ 0 ∈ ((armed 0 .none).sub 1).gals
      ∧ 0 ∉ ((armed 0 .none).gal 0).ready ∧ (armed 0 .none).rd .GAL_SPAN_pos 0 = 0
      ∧ (∀ k ∈ ((armed 0 .none).sub 1).gals, k = 0 ∨ k ∈ ((armed 0 .none).gal 0).ready)
      ∧ (armed 1 .none).rd .GAL_SPAN_pos 0 ≠ 0 ∧ ((armed 0 (.swait 8 5 true)).gal 0).wait = .swait 8 5 true
      ∧ (armed 0 (.swait 8 5 true)).spanNext 0 = some 1
      ∧ (plainWork.gal 0).fetchq = [] ∧ plainWork.banksReady 0 ((2 ^ 18 - 1) * 128) 128 := by
  unfold State.banksReady; decide +kernel

/-- BundleStepAndFrame: with run 0, a bundle of NOPs and one whose first slot is illegal. -/
def stepped (b : List Byte) : State :=
  withRegs [(.GAL_SEQ_CTRL_run, 0, 0)] <| up { runs quiet with pool := (b.zipIdx.map (fun e => (64 + e.2, e.1))).filter (fun c => c.2 != 0) }
def host0 : Src := .func 0
theorem test_BundleStep_met :
    host0.ok = true ∧ (stepped []).seqCtrlOk host0 0 = true ∧ (stepped []).flag .GAL_SEQ_CTRL_run 0 = false ∧ (stepped []).running 0 = true
      ∧ ((stepped []).gal 0).ended = false ∧ ((stepped []).gal 0).wait = .none ∧ (stepped []).holds 0 = false ∧ ((stepped []).gal 0).nops = 0
      ∧ ((stepped []).gal 0).sinceMark < 1024 ∧ ((stepped []).gal 0).fetchq = [] ∧ ((stepped []).gal 0).loops = [] ∧ (stepped []).poolPlain 0
      ∧ inWindow 64 32 ((stepped []).winBase 0) ((stepped []).winLimit 0) = true ∧ (stepped []).banksReady 0 64 32
      ∧ (let d := ((stepped []).keepLoop 0 64 ((stepped []).poolRd 0 64 32)).deliver 0
         (match evalSlots 0 d (bundleActs 0 (leNat ((stepped []).poolRd 0 64 32))) d none with | .ok _ _ => true | _ => false) = true)
      ∧ (let s := stepped [0xE0, 0x07]
         let d := (s.keepLoop 0 64 (s.poolRd 0 64 32)).deliver 0
         (match evalSlots 0 d (bundleActs 0 (leNat (s.poolRd 0 64 32))) d none with | .trap _ _ _ _ => true | _ => false) = true) := by
  unfold State.poolPlain State.banksReady; decide +kernel

/-- TaskEnds: a mark overdue; a trap pending; a pre-emption at the head and elsewhere, at a mark and at an SWAIT; the last gallery of a task, and
the first of two. -/
def overdue : State := runs { quiet with sinceMark := 1024 }
def trapping : State := runs { quiet with trapped := some (10, 64) }
def atWait : State := runs { quiet with wait := .swait 8 5 true }
def atMark : State := withRegs [(.GAL_SPAN_pos, 0, 1)] (runs { quiet with wait := .decision })
def endedOn (l : List Nat) : State := { runs { quiet with ended := true } with subs := [(1, { task1 with gals := l })] }
theorem test_TaskEnds_met :
    overdue.running 0 = true ∧ 1024 ≤ (overdue.gal 0).sinceMark ∧ (trapping.gal 0).trapped = some (10, 64) ∧ (trapping.gal 0).task = some 1
      ∧ ((runs quiet).gal 0).pend = [] ∧ (runs quiet).flag .GAL_SEQ_TRAP_valid 0 = false
      ∧ (withRegs [(.GAL_SEQ_TRAP_valid, 0, 1)] (runs quiet)).flag .GAL_SEQ_TRAP_valid 0 = true
      ∧ (runs quiet).rd .GAL_SPAN_pos 0 = 0 ∧ ((runs quiet).gal 0).ended = false ∧ ((runs quiet).gal 0).wait = .none
      ∧ (atWait.gal 0).wait = .swait 8 5 true ∧ (atWait.gal 0).started = true
      ∧ atMark.rd .GAL_SPAN_pos 0 ≠ 0 ∧ (atMark.gal 0).wait = .decision ∧ second.rd .GAL_SPAN_pos 0 ≠ 0
      ∧ ((runs quiet).sub 1).gals = [0] ∧ ((runs quiet).sub 1).replacedBy = none ∧ 0 ∉ (runs quiet).svy.leaving
      ∧ ((endedOn [0]).gal 0).ended = true ∧ ((endedOn [0]).gal 0).arrayIdle = true ∧ ((endedOn [0]).gal 0).fars = [] ∧ ((endedOn [0]).gal 0).trapped = none
      ∧ ((endedOn [0]).sub 1).endedGals = [] ∧ ((endedOn [0]).sub 1).gals = [0] ∧ ((endedOn [0, 1]).sub 1).gals = [0, 1] := by decide +kernel

-- Engines ---------------------------------------------------------------------------------------------------------------------

/-- A command of 64 bytes from its fields: offset, value. Its header names semaphore 9 and no status word. -/
def cmdOf (op : Nat) (fs : List (Nat × Nat)) : List Byte :=
  natLe 64 (op + 9 * 2 ^ 16 + 0xFFFFFFFF * 2 ^ 96 + fs.foldl (fun a f => a + f.2 * 256 ^ f.1) 0)
def cap5 : Captured := ⟨1, 5, 3, 0, 0x2000000, 7, false, 0⟩
def env (e : Nat) (b : List Byte) : Env := ⟨0, e, b, cap5, 0⟩

/-- Engine e of gallery 0 with one command posted in its ring of four entries at 0x1F00000. -/
def putBytes (off : Nat) (b : List Byte) (s : State) : State := s.poolWr 0 off b
def posted (e : Nat) (b : List Byte) : State :=
  withRegs [(.GAL_ENG_RING_base, e, 0x7C000), (.GAL_ENG_RING_size, e, 2), (.GAL_ENG_RING_en, e, 1), (.GAL_ENG_PTR_tail, e, 1)]
    (putBytes 0x1F00000 b { up (withPart State.reset) with engs := [(e, { Eng.idle with caps := [(0, cap5)] })], subs := [(1, task1)] })
theorem test_engineReady : (posted 1 (cmdOf 0 [])).engineReady 0 1 0 (env 1 (cmdOf 0 [])) := by
  unfold State.engineReady State.poolQuiet; decide +kernel

/-- NormCommands: one row of two FP32 elements under each opcode; rows beyond their range; an output beyond the window. -/
def normBytes (op rows dst aux0 aux1 nseg : Nat) : List Byte :=
  cmdOf op [(0x10, 0x1000), (0x14, dst), (0x18, aux0), (0x1C, aux1), (0x20, rows), (0x24, 2), (0x28, 0x3727C5AC), (0x2F, nseg)]
theorem test_NormCommands_met :
    (∀ e ∈ [(1, 0x2000, 0x3000, 0), (2, 0x2000, 0, 0), (3, 0, 0, 0), (4, 0x2000, 0, 0), (5, 0x2000, 0, 1)],
      let b := normBytes e.1 1 0x4000 e.2.1 e.2.2.1 e.2.2.2
      let x := env 1 b
      let n := x.norm
      let k := if n.nseg = 0 then 256 else n.nseg
      let aux := if e.1 = 1 then [(n.aux0, 4 * n.cols, 128), (n.aux1, 4 * n.cols, 128)] else if e.1 = 2 then [(n.aux0, 4 * n.cols, 128)]
        else if e.1 = 4 then [(n.aux0, n.span n.fin, 128)] else if e.1 = 5 then [(n.aux0, 32 * k, 128)] else []
      (posted 1 b).engineReady 0 1 e.1 x ∧ n.ok x (e.1 == 1) = true ∧ x.allOk (posted 1 b) (n.ranges aux) = true)
      ∧ (posted 1 (normBytes 3 0 0x4000 0 0 0)).engineReady 0 1 3 (env 1 (normBytes 3 0 0x4000 0 0 0))
      ∧ (env 1 (normBytes 3 0 0x4000 0 0 0)).norm.ok (env 1 (normBytes 3 0 0x4000 0 0 0)) false = false
      ∧ (let b := normBytes 3 65536 0x1FFFF80 0 0 0
         (posted 1 b).engineReady 0 1 3 (env 1 b) ∧ (env 1 b).norm.ok (env 1 b) false = true
           ∧ (env 1 b).allOk (posted 1 b) ((env 1 b).norm.ranges []) = false) := by
  unfold State.engineReady State.poolQuiet; decide +kernel

/-- ConvertAndRandomCommands: each opcode of the two engines, its ranges in the window. -/
def xcvBytes (op rows cols fin fout : Nat) : List Byte :=
  cmdOf op [(0x10, 0x1000), (0x14, 0x8000), (0x18, 0x10000), (0x1C, 0x14000), (0x20, rows), (0x24, cols), (0x28, fin), (0x29, fout)]
def randBytes (op n src mask : Nat) : List Byte :=
  cmdOf op [(0x10, 0x8000), (0x14, src), (0x18, mask), (0x1C, n), (0x20, 5), (0x28, 3), (0x2C, 2 ^ 31), (0x30, 0x3FC00000)]
theorem test_ConvertAndRandom_met :
    (∀ e ∈ [(1, 3, 5, 0x10, 0), (2, 1, 32, 0x10, 6), (3, 1, 32, 0x10, 0), (4, 1, 32, 0, 0x10)],
      let b := xcvBytes e.1 e.2.1 e.2.2.1 e.2.2.2.1 e.2.2.2.2
      (posted 3 b).engineReady 0 3 e.1 (env 3 b) ∧ (env 3 b).xcv.ok (env 3 b) = true ∧ (env 3 b).allOk (posted 3 b) (env 3 b).xcv.ranges = true)
      ∧ (∀ e ∈ [(1, 16777216 / 4, 0, 0), (2, 9, 0, 0), (3, 9, 0, 0x4000), (4, 9, 0x1000, 0xFFFFFFFF)],
        let b := randBytes e.1 e.2.1 e.2.2.1 e.2.2.2
        let c := (env 5 b).rand
        (posted 5 b).engineReady 0 5 e.1 (env 5 b) ∧ c.ok (env 5 b) = true
          ∧ (e.1 = 1 → (env 5 b).allOk (posted 5 b) [(c.dst, 4 * c.n, 128)] = true)
          ∧ (e.1 = 2 → (env 5 b).allOk (posted 5 b) [(c.dst, c.eb * c.n, 128)] = true)
          ∧ (e.1 = 3 → c.mask ≠ 0xFFFFFFFF ∧ (env 5 b).allOk (posted 5 b) [(c.mask, ceilDiv c.n 8, 128)] = true)
          ∧ (e.1 = 4 → c.mask = 0xFFFFFFFF ∧ (env 5 b).allOk (posted 5 b) [(c.src, c.eb * c.n, 128), (c.dst, c.eb * c.n, 128)] = true
            ∧ c.src + c.eb * c.n ≤ c.dst)) := by
  unfold State.engineReady State.poolQuiet; decide +kernel

/-- MoveCommands: COPY, COPY2D and FILL between places that do not overlap; a compression and a decompression; a GATHER of rows that are not
there and of one that is; a DISPATCH and a COMBINE of one token to one expert in the pool; an ATTEND over pages of zeros. -/
def copyBytes (op len nrow ss ds : Nat) : List Byte :=
  cmdOf op [(0x10, if op = 3 then 0 else 2 ^ 63 + 0x1000), (0x18, 2 ^ 63 + 0x8000), (0x20, len), (0x24, nrow), (0x28, ss), (0x30, ds)]
theorem test_MoveCommands_copy_met :
    ∀ e ∈ [(1, 4097, 1, 4097), (2, 7, 3, 9), (3, 8, 2, 8)],
      let b := copyBytes e.1 e.2.1 e.2.2.1 (if e.1 = 3 then 0 else 9) e.2.2.2
      let x := env 6 b
      let c := x.copy
      (posted 6 b).engineReady 0 6 e.1 x ∧ c.len ≠ 0 ∧ 1 ≤ c.nrow ∧ c.nrow ≤ 65536 ∧ c.dst = .pool 0x8000 ∧ (e.1 ≠ 3 → c.src = .pool 0x1000)
        ∧ c.len ≤ c.ds ∧ (e.1 = 1 → c.nrow = 1) ∧ (e.1 = 3 → c.len % 8 = 0) ∧ (e.1 ≠ 3 → 0x1000 + extent c.len c.nrow c.ss ≤ 0x8000)
        ∧ ∀ r < c.nrow, x.poolOk (posted 6 b) (0x8000 + r * c.ds) c.len 1 = true
            ∧ (e.1 ≠ 3 → x.poolOk (posted 6 b) (0x1000 + r * c.ss) c.len 1 = true) := by
  unfold State.engineReady State.poolQuiet; decide +kernel

def packBytes (op n w cap : Nat) : List Byte :=
  cmdOf op [(0x10, 2 ^ 63 + 0x1000), (0x18, 2 ^ 63 + 0x8000), (0x20, n), (0x24, cap), (0x28, w)]
def record128 : List Byte := encodeChunk 4 (List.replicate 128 0#8)
theorem test_MoveCommands_pack_met :
    (let b := packBytes 1 128 2 4096
     let s := posted 8 b
     let x := env 8 b
     let out := (chunksOf (s.poolRd 0 0x1000 128)).map (encodeChunk 2)
     s.engineReady 0 8 1 x ∧ x.zero 0x29 23 = true ∧ eAddr (x.f 0x10 8) = .pool 0x1000 ∧ eAddr (x.f 0x18 8) = .pool 0x8000
       ∧ x.poolOk s 0x1000 128 1 = true ∧ x.poolOk s 0x8000 out.flatten.length 1 = true ∧ out.flatten.length ≤ 4096)
      ∧ (let b := packBytes 2 record128.length 0 4096
         let s := putBytes 0x1000 record128 (posted 8 b)
         let x := env 8 b
         s.engineReady 0 8 2 x ∧ (decodeChunks record128.length (s.poolRd 0 0x1000 record128.length)).2 = true
           ∧ (decodeChunks record128.length (s.poolRd 0 0x1000 record128.length)).1.flatten.length ≤ 4096) := by
  unfold State.engineReady State.poolQuiet; decide +kernel

def isQuiet (s : State) : Bool :=
  s.poolErr.isEmpty && !s.flag .GAL_POOL_CFG_wipe 0
    && (List.range 64).all (fun b => !s.flag .GAL_BANK_OWNER_busy (64 * 0 + b) && !s.flag .GAL_BANK_OWNER_valid (64 * 0 + b))
def gatherBytes (rows : Nat) : List Byte :=
  cmdOf 1 [(0x10, 0x1000), (0x14, 0x8000), (0x18, 0x40000), (0x20, 1), (0x24, rows), (0x28, 128)]
theorem test_MoveCommands_gather_met :
    (∀ rows ∈ [0, 1], let b := gatherBytes rows
      let x := env 2 b
      (posted 2 b).engineReady 0 2 1 x ∧ rowOk (x.f 0x28 4) = true ∧ x.f 0x18 8 % 128 = 0 ∧ x.zero 0x2C 20 = true
        ∧ x.allOk (posted 2 b) [(0x1000, 4, 128), (0x8000, 128, 128)] = true)
      ∧ (let b := gatherBytes 1
         (match ((posted 2 b).taken (env 2 b)).farRead 0 5 0x40000 128 with
           | (.ok _, u) => isQuiet u && (u.reqsOf (env 2 b).own).isEmpty
           | _ => false) = true) := by
  unfold State.engineReady State.poolQuiet; decide +kernel

/-- The expert table at 0x3000 gives expert 0 its rows from 0x20000 and its count from 0x30000. -/
def moeBytes (op : Nat) : List Byte :=
  cmdOf op ([(0x10, 0x1000), (0x14, 0x2000), (0x18, 0x4000), (0x1C, 0x3000), (0x20, 1), (0x24, 128), (0x28, 1), (0x2C, 4), (0x2E, 1)]
    ++ if op = 2 then [] else [(0x2F, 0x5000)])
def moeState (op : Nat) : State :=
  putBytes 0x3000 (natLe 8 (2 ^ 63 + 0x20000) ++ natLe 8 (2 ^ 63 + 0x30000)) (posted 2 (moeBytes op))
theorem test_MoveCommands_moe_met :
    (∀ op ∈ [2, 3],
      let s := moeState op
      let x := env 2 (moeBytes op)
      let m := x.moe
      s.engineReady 0 2 op x ∧ m.ok = true ∧ s.reqsOf x.own = []
        ∧ expert (s.poolRd 0 m.dest (16 * m.nexp)) 0 = (.pool 0x20000, .pool 0x30000) ∧ x.poolOk s 0x30000 4 1 = true
        ∧ x.poolOk s 0x20000 m.rb 1 = true ∧ x.allOk s m.ranges = true
        ∧ assigns (s.poolRd 0 m.route (2 * m.n * m.k)) m.n m.k = [⟨0, 0, 0, 0⟩] ∧ fieldAt (s.poolRd 0 m.map 4) 0 4 = 0)
      ∧ (env 2 (moeBytes 2)).zero 0x2F 17 = true ∧ (env 2 (moeBytes 3)).f 0x33 1 ≤ 1 ∧ (env 2 (moeBytes 3)).zero 0x34 12 = true
      ∧ (env 2 (moeBytes 3)).wts = 0x5000 ∧ (env 2 (moeBytes 3)).allOk (moeState 3) [(0x1000, 128, 128), (0x5000, 4, 128)] = true := by
  unfold State.engineReady State.poolQuiet; decide +kernel

def attendBytes : List Byte := cmdOf 1 [(0x10, 0x1000), (0x14, 0x8000), (0x1C, 0), (0x20, 1), (0x28, 0x3E000000), (0x30, 0x9000), (0x34, 1), (0x37, 0)]
def attends : State :=
  { posted 0 attendBytes with seqs := [(0, { Seq.free with st := 1, nkvh := 1, len := 1 })] }
theorem test_MoveCommands_attend_met :
    attends.engineReady 0 0 1 (env 0 attendBytes) ∧ attends.seqOf 0 0 = some 0 ∧ (env 0 attendBytes).zero 0x38 8 = true
      ∧ (env 0 attendBytes).allOk attends [(0x1000, 128, 128), (0x8000, 256, 128), (0x9000, 8, 128)] = true
      ∧ (let x := env 0 attendBytes
         (match engFold [0] ([] : List KV) ((((attends.taken x).seqStamp 0).takeSlot 0 true 0)) (fun acc j s =>
          (x.kvRow 0 j 0 false s).bind fun k s => (x.kvRow 0 j 0 true s).bind fun v s => .ok (acc ++ [(⟨j, k, v⟩ : KV)]) s) with
           | .ok kv u => kv.length == 1 && isQuiet u
           | _ => false) = true) := by
  unfold State.engineReady State.poolQuiet; decide +kernel

/-- CollectiveCommands: a REDUCE of two sources, a SEND through a window to an open session, a RELAY without a forward window, a slot that waits. -/
def reduceBytes : List Byte := cmdOf 1 [(0x10, 0x8000), (0x14, 0x1000), (0x18, 32), (0x1C, 2)]
def reducing : State := putBytes 0x1000 (natLe 4 0x2000 ++ natLe 4 0x3000) (posted 4 reduceBytes)
def sendBytes : List Byte := cmdOf 2 [(0x10, 0x8000), (0x18, 32), (0x20, 6), (0x28, 0xF00300000000)]
def sending : State :=
  { posted 4 sendBytes with
    wins := [(3, { Win.free with kind := 2, ctx := 5, peer := 7, peerPrt := 1, size := 0x10000, rights := 31 })],
    sesss := [(2, { Sess.free with st := 2, prt := 0, peer := 7, peerPrt := 1, ports := 1 })] }
def relayBytes : List Byte := cmdOf 3 [(0x10, 0x8000), (0x14, 0x9000), (0x18, 32), (0x1C, 15), (0x1F, 15), (0x20, 6)]
def relaying : State := (posted 4 relayBytes).modEng 4 (fun y => { y with relays := [⟨3, relayBytes, cap5, 0, [], []⟩] })
theorem test_CollectiveCommands_reduce_met :
    let x := env 4 reduceBytes
    reducing.engineReady 0 4 1 x ∧ x.zero 0x1F 33 = true ∧ x.allOk reducing ((0x1000, 8, 128) :: collRange 0 0x8000 32) = true
      ∧ (∀ i < 2, x.allOk reducing (collRange 0 (fieldAt (reducing.poolRd 0 0x1000 8) (4 * i) 4) 32) = true) := by
  unfold State.engineReady State.poolQuiet; decide +kernel
theorem test_CollectiveCommands_send_met :
    let x := env 4 sendBytes
    sending.engineReady 0 4 2 x ∧ collN 32 = true ∧ collN 1048576 = true ∧ x.zero 0x14 4 = true ∧ x.zero 0x1C 1 = true ∧ x.zero 0x1E 2 = true
      ∧ x.zero 0x24 4 = true ∧ x.zero 0x30 16 = true ∧ x.allOk sending (collRange 0 0x8000 32) = true
      ∧ x.reduceWin sending 0xF00300000000 32 = true ∧ sending.sessOf 0 7 1 = some 2 ∧ sending.reqsOf x.own = [] := by
  unfold State.engineReady State.poolQuiet; decide +kernel
theorem test_CollectiveCommands_relay_met :
    (let x := env 4 relayBytes
     let s := posted 4 relayBytes
     s.engineReady 0 4 3 x ∧ collPair 0 0 = true ∧ s.relaySlot 0 15 = none ∧ s.tagSlot 0 6 = none
       ∧ x.allOk s (collRange 0 0x8000 32 ++ collRange 0 0x9000 32) = true ∧ s.heldReduce = [])
      ∧ (match relaying.relaySlot 0 3 with | some r => !relaying.relayDone 0 r | none => false) = true := by
  unfold State.engineReady State.poolQuiet; decide +kernel

/-- EngineEvents: opcode 0; a command that is finished; codes that end no context; a status word clear of its semaphore; a new ring. -/
def finishing : State :=
  (posted 1 (cmdOf 0 [])).modEng 1 (fun y => { y with cur := some (cmdOf 0 [], cap5, 0), phase := .finished 0 0 0 })
theorem test_EngineEvents_met :
    finishing.curEnv 0 1 = some (env 1 (cmdOf 0 [])) ∧ (finishing.eng 1).phase = .finished 0 0 0 ∧ (finishing.eng 1).relays = []
      ∧ codeFaults 0 = false ∧ codeFaults 8 = false
      ∧ ((env 1 (cmdOf 0 [])).f 0x0C 4 = 0xFFFFFFFF) ∧ (env 1 (natLe 64 (0x4000 * 2 ^ 96))).statusOk = true
      ∧ 0x4000 + 8 ≤ finishing.semOff 0 0 ∧ host0.ok = true ∧ finishing.reachesSlice host0 0 = true ∧ finishing.sealedPrt (finishing.prtOf 0) = false
      ∧ finishing.rd .GAL_ENG_RING_base 1 ≠ 0 ∧ finishing.engEnabled 0 1 = true := by decide +kernel

-- Pools and device memory -------------------------------------------------------------------------------------------------------

/-- PoolMaintenance: a geode pool and another, a wipe that runs, banks that may be written and that may not, codewords to correct and beyond
correction, march tests in each mode. -/
def device : State := up (withPart State.reset)
def geode : State := withRegs [(.GAL_POOL_CFG_geode, 0, 1), (.GAL_POOL_CFG_wipe, 0, 1)] device
def badWord (n : Nat) : State := { device with poolErr := [(device.cwKey 0 (device.offOfRow 0 63 0 + 32 * 3), n)] }
theorem test_PoolMaintenance_met :
    geode.flag .GAL_POOL_CFG_geode 0 = true ∧ device.flag .GAL_POOL_CFG_geode 0 = false ∧ geode.sec.goal = none
      ∧ geode.flag .GAL_POOL_CFG_wipe 0 = true ∧ host0.ok = true ∧ device.reachesSlice host0 0 = true
      ∧ device.flag .GAL_BANK_OWNER_busy 63 = false ∧ Src.mgmt.ok = true ∧ geode.reachesSlice .mgmt 0 = false ∧ device.poolErr = []
      ∧ (device.gal 0).scrubRow = 0 ∧ (∀ n ∈ [2, 3], (badWord n).poolErr = [((badWord n).cwKey 0 ((badWord n).offOfRow 0 63 0 + 32 * 3), n)])
      ∧ (∀ c < 64, (badWord 2).bankDead 0 c = false) ∧ (badWord 2).flag .GAL_POOL_CFG_wipe 0 = false := by decide +kernel

/-- March tests: a preserving run on an idle slice, a destructive run on an unassigned one; failures of a lane in three rows, and in one row. -/
def marching (mode repair : Nat) : State :=
  withRegs [(.GAL_POOL_MARCH_state, 5, 1), (.GAL_POOL_MARCH_mode, 5, mode), (.GAL_POOL_MARCH_repair, 5, repair)] device
theorem test_March_met :
    device.rd .GAL_POOL_MARCH_state 5 ≠ 1 ∧ device.flag .GAL_POOL_MARCH_mode 5 = false ∧ device.prtOf 5 = none ∧ device.prtOf 0 ≠ none
      ∧ device.reachesSlice host0 5 = true ∧ (device.gal 5).task = none ∧ device.enginesIdle 5 = true
      ∧ (marching 0 0).rd .GAL_POOL_MARCH_state 5 = 1 ∧ (marching 1 1).flag .GAL_POOL_MARCH_mode 5 = true
      ∧ (marching 0 0).flag .GAL_POOL_MARCH_repair 5 = false ∧ (marching 0 1).flag .GAL_POOL_MARCH_repair 5 = true
      ∧ (marching 0 1).softRows.get 0 (64 * 5 + 63) ≤ 8 ∧ (marching 0 1).softLanes.get 0 (64 * 5 + 63) < 2
      ∧ (let fails : List MarchFail := [⟨63, 0, 127⟩, ⟨63, 1, 127⟩, ⟨63, 4095, 127⟩]
         (∀ x ∈ fails, x.bank = 63 ∧ x.lane < 128) ∧ (∀ x ∈ fails, x.lane = 127) ∧ 3 ≤ (fails.map (·.row)).eraseDups.length)
      ∧ (let fails : List MarchFail := [⟨63, 9, 1⟩, ⟨63, 9, 2⟩]
         (∀ x ∈ fails, x.bank = 63 ∧ x.lane < 128) ∧ ∀ n < 128, ((fails.filter (fun x => x.lane == n)).map (·.row)).eraseDups.length < 3) := by
  decide +kernel

/-- MemoryRequests: a request that passes, at the first line and at the last byte of a partition's HBM and DDR5; tags that open nothing, a request
that a confidential partition refuses, an address beyond the end, a poisoned line. -/
def keyed : State :=
  withRegs [(.SEC_PRT_KEY_slot, 0, 4), (.SEC_PRT_KEY_gen, 0, 1), (.SEC_PRT_KEY_state, 0, 1)] { device with slots := [(4, { KeySlot.free with st := 1, gen := 1 })] }
def memOps : State := withRegs ((List.range 16).map (fun c => (.MEM_HBM_STAT_state, c, 1)) ++ [(.MEM_DDR_STAT_state, 0, 1), (.MEM_DDR_STAT_present, 0, 1),
  (.MEM_DDR_STAT_ext, 0, 16)]) keyed
def req (ppa len : Nat) : MemReq := ⟨0, ppa, len, 5, 4, 1, false, false⟩
def fromFw : MemReq := { req 0 64 with fromCpc := true }
def owners : State :=
  { withRegs [(.MEM_PRT_OWN_en, 0, 1), (.MEM_PRT_OWN_base, 0, 0x100)] memOps with pmem := [(0x1000010, 5), (0x1000012, 1)] }
def poisoned : State := { memOps with lineErr := [(lineKey (memOps.locOf 0 0x40000), 255)] }
theorem test_MemoryRequests_met :
    (∀ r ∈ [req 0 200, req (part0.hbm - 64) 64, req ddrBase 64, req (ddrBase + 2 ^ 30 - 8) 8], memOps.reqPasses r r.len true
        ∧ memOps.linesGood 0 r.ppa r.len true ∧ memOps.linesGood 0 r.ppa r.len false)
      ∧ reqDdr (req ddrBase 64) = true ∧ reqDdr (req 0 64) = false
      ∧ owners.reqPasses (req 0x40000 64) 64 false ∧ owners.flag .MEM_PRT_OWN_en 0 = true
      ∧ memOps.tagOk 0 4 2 = false ∧ memOps.tagOk 0 5 1 = false
      ∧ (withRegs [(.PRT_CTRL_conf, 0, 1)] memOps).tagOk 0 4 1 = true ∧ (withRegs [(.PRT_CTRL_conf, 0, 1)] memOps).cpcRefused fromFw = true
      ∧ memOps.mapped 0 part0.hbm 1 = false ∧ memOps.mapped 0 (ddrBase + 2 ^ 30 - 8) 9 = false := by
  unfold State.reqPasses State.linesGood; decide +kernel
theorem test_MemoryRequests_poison_met :
    poisoned.reqPasses (req 0x40000 64) 64 false ∧ poisoned.flag .MEM_PRT_OWN_en 0 = false ∧ linesOf 0x40000 64 = [0x40000]
      ∧ poisoned.chanState (poisoned.locOf 0 0x40000).chan ≠ 3 ∧ poisoned.lineBad (poisoned.locOf 0 0x40000) = 255
      ∧ wholeLine 0x40000 0x40000 8 = false ∧ linesOf 0x40000 8 = [0x40000] := by
  unfold State.reqPasses; decide +kernel

/-- ChannelsAndOwners: a channel of a parity group and one of none, in each state that a clause names; owner commands on an entry of the table and
beyond it, with and without a relayout; zero fills. -/
def withParity : State :=
  { memOps with map := ⟨[(0, { part0 with parity := true })], .default⟩, fills := [3, 32 + 3071] }
def chanAt (ch st : Nat) : State := withRegs [(.MEM_HBM_STAT_state, ch, st)] withParity
def ownCmd (fr e : Nat) : State :=
  withRegs [(.MEM_OWN_CMD_frame, 0, fr), (.MEM_OWN_DATA_entry, 0, e), (.MEM_PRT_OWN_base, 0, 0x100)] memOps
def propagating (h : Bool) : State :=
  { withRegs [(.MEM_OWN_CMD_busy, 0, 1)] (ownCmd 6 0x80000005) with ownPend := [(0, b2n h * 2 ^ 65 + 6 * 2 ^ 32 + 0x80000005 + 1)] }
def heldOwner (s : State) : State := { withRegs [(.PRT_STAT_relayout, 0, 1)] s with relays := [(0, ⟨true, true, [0], [0, 1]⟩)] }
theorem test_Channels_met :
    withParity.chanState 255 ≠ 3 ∧ (memOps.inParity 3 = false) ∧ withParity.inParity 3 = true ∧ withParity.inParity 7 = true
      ∧ withParity.flag .MEM_DDR_STAT_present 0 = true ∧ (chanAt 3 3).chanState 3 = 3 ∧ (chanAt 3 4).chanState 3 = 4 ∧ withParity.chanState 3 ≠ 4
      ∧ withParity.rd .MEM_HBM_CTRL_scrub 3 ≠ 0x3F ∧ withParity.chanState 3 ≠ 0
      ∧ (withRegs [(.MEM_HBM_CTRL_scrub, 3, 0x3F)] withParity).rd .MEM_HBM_CTRL_scrub 3 = 0x3F
      ∧ (∀ j < 30, withParity.lineBad ⟨3, (withParity.chans.get .reset 3).scrubPos * 30 + j⟩ = 0) ∧ withParity.lineBad ⟨7, 0⟩ ≤ 2
      ∧ 3 ∈ withParity.fills ∧ 32 + 3071 ∈ withParity.fills ∧ 31 ∉ withParity.fills := by decide +kernel
theorem test_Owners_met :
    host0.ok = true ∧ (ownCmd 0 5).reachesPrt host0 0 = true ∧ (ownCmd 0 5).flag .MEM_OWN_CMD_busy 0 = false
      ∧ (let last := ((ownCmd 0 5).tableH 0 + part0.ddr) / 65536
         (ownCmd last 5).rd .MEM_OWN_CMD_frame 0 = last
           ∧ (ownCmd (last - 1) 5).linesGood 0 ((ownCmd 0 5).rd .MEM_PRT_OWN_base 0 * 65536 + 4 * (last - 1)) 4 false)
      ∧ (ownCmd 0 5).ownHeld 0 = false ∧ (heldOwner (ownCmd 0 5)).ownHeld 0 = true
      ∧ (∀ h ∈ [true, false], (propagating h).flag .MEM_OWN_CMD_busy 0 = true ∧ (propagating h).ownHeld 0 = false
          ∧ (propagating h).ownPend.get 0 0 = b2n h * 2 ^ 65 + 6 * 2 ^ 32 + 0x80000005 + 1)
      ∧ (propagating true).linesGood 0 (0x100 * 65536 + 4 * 6) 4 false ∧ (heldOwner (propagating true)).ownHeld 0 = true := by
  unfold State.linesGood; decide +kernel

-- Sequences and Surveys ---------------------------------------------------------------------------------------------------------

/-- A sequence of context 5 with one group of pages in HBM, in DDR5, in the pool region, or none; one page that moves. -/
def seqWith (e : PageEnt) : Seq := { Seq.free with st := 1, ctx := 5, nkvh := 1, len := 64, groups := 1, pages := if e.tier = 0 then [] else [(0, e)] }
def pagers (e : PageEnt) : State :=
  { withRegs [(.PRT_PGR_HBM_base, 0, 0x8000), (.PRT_PGR_HBM_frames, 0, 16), (.PRT_PGR_FREE_hbm, 0, 16), (.PRT_PGR_DDR_base, 0, 0x1000000),
      (.PRT_PGR_DDR_frames, 0, 16), (.PRT_PGR_FREE_ddr, 0, 16)] memOps with seqs := [(8191, seqWith e)] }
def inHbm : PageEnt := ⟨2, false, false, 0, 0x8001, 0⟩
def inDdr : PageEnt := ⟨3, false, false, 0, 0x1000000, 0⟩
def inPool : PageEnt := ⟨1, false, false, 0, 2, 0⟩
def movingPage : PageEnt := ⟨2, false, true, 0, 0x8001, 2⟩
def movesPage : State := { pagers movingPage with pgals := [(0, { PGal.empty with order := [(8191, 0)] })] }
theorem test_SequenceAperture_met :
    (pagers inHbm).seqMay 5 8191 = true ∧ (pagers inHbm).seqMay 6 8191 = false ∧ (pagers inHbm).seqMay 5 0 = false
      ∧ (((pagers .none).seq 8191).page 0).tier = 0 ∧ (((pagers inHbm).seq 8191).page 0).tier ≠ 0 ∧ (((pagers inPool).seq 8191).page 0).tier = 1
      ∧ (((pagers inDdr).seqStamp 8191).toHbm 8191 0).1 = true
      ∧ (let u := (pagers inHbm).seqStamp 8191
         ((u.seq 8191).page 0).tier ≠ 1 ∧ u.linesGood 0 (0x8001 * 65536 + 65472) 64 false ∧ u.linesGood 0 (0x8001 * 65536 + 65472) 64 true)
      ∧ isQuiet ((pagers inPool).seqStamp 8191) = true
      ∧ 0 < ((pagers inHbm).seq 8191).groups * ((pagers inHbm).seq 8191).nkvh ∧ 0 < ((pagers inHbm).seq 8191).maxGroups * ((pagers inHbm).seq 8191).nkvh
      ∧ (((pagers inHbm).seq 8191).page 0).busy = false ∧ ((movesPage.seq 8191).page 0).busy = true := by
  unfold State.linesGood; decide +kernel
/-- The control line: a length within the groups, one that needs a group, one beyond the limit; frames that run out. -/
def lastFree (free low : Nat) : State :=
  withRegs [(.PRT_PGR_FREE_hbm, 0, free), (.PRT_PGR_WMARK_lowat, 0, low), (.PRT_PGR_WMARK_hiwat, 0, low)]
    { pagers inHbm with seqs := [(8191, { seqWith inHbm with cls := 2 })] }
theorem test_SequenceAperture_control_met :
    (let x := (pagers inHbm).seq 8191
     x.maxGroups * x.tpp < x.maxGroups * x.tpp + 1 ∧ x.maxGroups * x.tpp + 1 < 2 ^ 64
       ∧ ((((pagers inHbm).seqStamp 8191).allocTo 8191 (1 - x.groups) 1).1 = true)
       ∧ ((((pagers inHbm).seqStamp 8191).allocTo 8191 (2 - x.groups) 2).1 = true)
       ∧ (((withRegs [(.PRT_PGR_HBM_frames, 0, 0), (.PRT_PGR_DDR_frames, 0, 0)] (pagers inHbm)).seqStamp 8191).allocTo 8191 (2 - x.groups) 2).1 = false)
      ∧ (lastFree 5 5).rd .PRT_PGR_WMARK_lowat 0 ≤ (lastFree 5 5).rd .PRT_PGR_FREE_hbm 0
      ∧ (lastFree 4 5).rd .PRT_PGR_FREE_hbm 0 + 1 = (lastFree 4 5).rd .PRT_PGR_WMARK_lowat 0
      ∧ (lastFree 4 5).rd .PRT_PGR_WMARK_hiwat 0 ≤ (lastFree 4 5).rd .PRT_PGR_FREE_hbm 0 + 1
      ∧ 0 < (lastFree 4 5).rd .PRT_PGR_HBM_frames 0 ∧ (lastFree 4 5).victim 0 = some (8191, 0)
      ∧ ((lastFree 4 5).takeDdr 0).map (·.1) = some 0x1000000 := by decide +kernel

/-- SequenceCommands: arguments in order and out of order, a table with and without room, a handle that is known, a destroy that may end. -/
def seqArgs (nkvh cls : Nat) (s : State) : State :=
  withRegs [(.PRT_SEQ_ARG_nkvh, 0, nkvh), (.PRT_SEQ_ARG_ctx, 0, 5), (.PRT_SEQ_ARG_class, 0, cls), (.PRT_SEQ_CMD_handle, 0, 8191)] s
def condemned : State :=
  withRegs [(.PRT_SEQ_CMD_busy, 0, 1)] { pagers inHbm with seqs := [(8191, { seqWith inHbm with st := 2 })] }
def attended : State := { condemned with pgals := [(0, { PGal.empty with slots := [(true, 8191)] })] }
theorem test_SequenceCommands_met :
    host0.ok = true ∧ (pagers inHbm).reachesPrt host0 0 = true ∧ (pagers inHbm).reachesPrt .mgmt 0 = false
      ∧ (pagers inHbm).flag .PRT_SEQ_CMD_busy 0 = false ∧ condemned.flag .PRT_SEQ_CMD_busy 0 = true
      ∧ (seqArgs 64 2 (pagers inHbm)).seqArgOk 0 = true ∧ (seqArgs 65 2 (pagers inHbm)).seqArgOk 0 = false
      ∧ ((seqArgs 1 2 (pagers inHbm)).seqsOf 0).length < part0.seqQuota ∧ (seqArgs 1 2 (pagers inHbm)).freeSeqIdx = some 0
      ∧ ((seqArgs 1 2 (pagers inHbm)).takeHbm 0).map (·.1) = some 0x8000
      ∧ ((withRegs [(.PRT_PGR_HBM_frames, 0, 0)] (seqArgs 1 2 (pagers .none))).frameFor 0).1 = none
      ∧ (seqArgs 1 2 (pagers inHbm)).seqOf 0 8191 = some 8191 ∧ (seqArgs 1 2 (pagers inHbm)).seqOf 0 8190 = none
      ∧ (seqArgs 1 3 (pagers inHbm)).rd .PRT_SEQ_ARG_class 0 = 3
      ∧ (condemned.seqs.find? (fun e => e.2.st == 2 && e.2.prt == 0)).map (·.1) = some 8191 ∧ condemned.seqQuiet 8191 = true
      ∧ attended.seqQuiet 8191 = false := by decide +kernel
def fullTable : State := { seqArgs 1 2 (pagers inHbm) with map := ⟨[(0, { part0 with seqQuota := 1 })], .default⟩ }
theorem test_SequenceCommands_full_met : fullTable.seqArgOk 0 = true ∧ (fullTable.part 0).seqQuota ≤ (fullTable.seqsOf 0).length := by decide +kernel

/-- Surveys: a Survey signed by the enrolled owner key, of one partition; the key and the bytes come from RFC 8032 and the layout of R225. -/
def ownerKey : Nat := 0xb83155126486dc1d5f0da59b30d6e46799c04be718dd701dbe10cef3bf07a103
def surveyBytes : List Byte := natLe 456
  0x739047a568d46fb5d32435f857dcb8e4a65447a0f7c50c1dcac6b9a222f79b35efdf9a490446cb99eb327af01e9af06fa0884bf75237f39ca4317a37251563d4869acd4ea4242ed0000000000000000000000000000000000000000000000000000000000000000000000000000000000000000000100030000003000000004000000050000010300000008000000030000000000000305000000040000000200000000000000000000000a0000000a0000000a0000000a00000000010001030000002000000001000000000000000000000000000000000000000000000000000000000000000000000000000000000000000000000000000000000000000000000000000000000000000000000000000000000000000000000000000000000000000000000000000000000000000000000000000000000000000000000000000000000000000000000000000000000000000000000000000000000000000000000000000000000000000000000000000000000000000000000000000000000000000000000000000000000000000000000000000000000000000000000000000001800000010000010004000001c8000000000000000000000000000000010000000159565253
def atSvy (phase : Nat) : State :=
  withRegs ([(.SVY_STAT_phase, 0, phase), (.SVY_LEN_len, 0, 456), (.DEV_STAT_ready, 0, 1)] ++ (List.range 8).map (fun c => (.MEM_HBM_STAT_state, 40 + c, 1)))
    (up { State.reset with sec := { State.reset.sec with keys := { State.reset.sec.keys with owner := some ownerKey } } })
theorem test_Surveys_validate_met :
    (match (atSvy 1).svyValidate (surveyBytes.take ((atSvy 1).rd .SVY_LEN_len 0)) (atSvy 1).svy.mgmt with
      | .ok (_, m) => (m.at 3).defined
      | .error _ => false) = true := by decide +kernel
/-- The Survey as it is fetched: phases, a load that may start, bytes that are too short, that fail a check, and that are staged. -/
def survey : List Byte := surveyBytes.take ((atSvy 1).rd .SVY_LEN_len 0)
def served : Nat → State := fun n => withRegs [(.SVY_STAT_phase, 0, n)] { atSvy 1 with svy := { Svy.idle with shrinks := [4] } }
theorem test_Surveys_met :
    host0.ok = true ∧ Src.mgmt.ok = true ∧ (served 0).barOf 0 = true ∧ (served 0).rd .SVY_STAT_phase 0 = 0 ∧ (served 0).flag .DEV_STAT_ready 0 = true
      ∧ (withRegs [(.DEV_STAT_ready, 0, 0)] (served 0)).flag .DEV_STAT_ready 0 = false
      ∧ (∀ n ∈ [1, 3, 4, 5, 6], (served n).rd .SVY_STAT_phase 0 = n)
      ∧ (withRegs [(.PRT_STAT_relayout, 31, 1)] device).flag .PRT_STAT_relayout 31 = true ∧ device.flag .PRT_STAT_relayout 0 = false := by decide +kernel
/-- A delta that changes nothing. -/
def delta : List Byte := natLe 328
  0xbcad39226cca909d60761d04bc44b645ba68164b2ab96350d6943d9d7794ad56a59301c7db3df43658d0b9204b96340e5bbf78844fefe94f2fb485f211498d84869acd4ea4242ed00000000000000000000000000000000000000000000000000000000000000000000000000000000000000000000000000000000000000000000000000000000000000000000000000000000000000000000000000000000000000000000000000000000000000000000000000000000000000000000000000000000000000000000000000000000000000000000000000000000000000000000000000000000000000000000000000000000000000000000000000000000000000000000000000000000000000000000000000000000000000000000000000000100000001000001000000000148000000000000000000000000000000010001000159565253
def noChange : State := withRegs [(.SVY_LEN_len, 0, 328)] (atSvy 1)
theorem test_Surveys_fetch_met :
    survey.length = 456 ∧ (atSvy 1).rd .SVY_LEN_len 0 = 456 ∧ noChange.rd .SVY_LEN_len 0 = 328
      ∧ (match (atSvy 1).svyValidate (survey.set 300 9#8) (atSvy 1).svy.mgmt with | .ok _ => false | .error e => e.code == 5) = true
      ∧ (match noChange.svyValidate delta noChange.svy.mgmt with
        | .ok (d, _) => (List.range 32).all (fun p => d.opOf p != 1 && !noChange.keeps d p)
        | .error _ => false) = true := by decide +kernel
/-- The relayout clause of RelayoutDone: one partition of HBM alone whose order grows by a slice. -/
def regrown : State :=
  withRegs [(.PRT_STAT_relayout, 0, 1)]
    { device with map := ⟨[(0, { part0 with exts := [] })], .default⟩, relays := [(0, ⟨true, true, [0], [0, 1]⟩)] }
theorem test_Surveys_relayout_met :
    regrown.flag .PRT_STAT_relayout 0 = true ∧ regrown.flag .MEM_PRT_OWN_en 0 = false ∧ (regrown.part 0).exts = [] ∧ regrown.flag .DSP_MLOG_BASE_en 0 = false
      ∧ 0 < (regrown.part 0).hbmOf (min (regrown.relay 0).oldOrder.length (regrown.relay 0).newOrder.length) := by decide +kernel
/-- The commit: its first step, its drain, a bind that waits for a task and one that is due, a window to close, an open partition to seal. -/
def committing (step : Nat) (leaving : List Nat) : State :=
  { served 5 with svy := { Svy.idle with bytes := survey, pend := some ⟨[(3, part0)], .default⟩, pendGen := 1, step := step, leaving := leaving } }
theorem test_Surveys_commit_met :
    (committing 0 []).rd .SVY_STAT_phase 0 = 5 ∧ (committing 0 []).svy.step = 0 ∧ (committing 0 []).bindDue = false
      ∧ (committing 1 []).svy.step = 1 ∧ (committing 1 []).bindDue = true ∧ (committing 1 []).svy.pend.isSome = true
      ∧ (served 6).rd .SVY_STAT_phase 0 = 6
      ∧ (withRegs [(.PRT_STAT_state, 31, 1)] device).rd .PRT_STAT_state 31 = 1 ∧ device.barOf 0 = true := by decide +kernel
-- The host's commands -----------------------------------------------------------------------------------------------------------

/-- Partition 0 of function 1 and partition 1 of function 2; in each a live context with queues, an object and a fence. -/
def part1 : Part := { part0 with func := 2, slices := [2, 3], octets := [2, 3], order := [2, 3], exts := [2] }
def liveCtx (p f : Nat) : Ctx := { Ctx.free with st := 1, prt := p, func := f, pasid := 3, weight := 1, epoch := 9 }
def queue1 : Queue := { Queue.free with gen := 2, live := true, ctx := 5, slot := 0, log := 6, base := 0x10000, cached := true }
def fence1 : Fence := { Fence.free with live := true, ctx := 5, value := 7, st := 1 }
def mobj1 (host dev : Nat) : MObj := ⟨1, true, 5, false, 0, 65536, 0, host, dev⟩
def hosted : State :=
  { up State.reset with
    map := ⟨[(0, part0), (1, part1)], .default⟩, ctxs := [(5, liveCtx 0 1), (6, { liveCtx 0 1 with st := 2 }), (7, liveCtx 1 2)],
    queues := [(1, queue1), (2, { queue1 with ctx := 7 })],
    mobjs := [(1, mobj1 1 0), (2, { mobj1 1 0 with ctx := 7 })], fences := [(1, fence1), (2, { fence1 with ctx := 7 })] }
/-- The handles of queue, object and fence 1. -/
def hq : Nat := 1 + 2 * 2 ^ 18
def hm : Nat := 1 + 2 ^ 18
def args (x y z : Nat) : Args := ⟨.ofNat 64 x, .ofNat 64 y, .ofNat 64 z, 0#64⟩

theorem test_WindowErrors_met :
    hosted.barOf 1 = true ∧ hosted.barOf 127 = true ∧ (hosted.setFunc 2 { Func.reset with d3 := true }).barOf 2 = false
      ∧ 2 ^ 32 ≤ (args (2 ^ 64 - 1) 0 0).a0.toNat
      ∧ hosted.ctxRights 1 7 true = false ∧ hosted.ctxRights 1 0 true = true ∧ hosted.ctxExists 0 = false ∧ hosted.ctxExists 65535 = false
      ∧ (∀ b ∈ [true, false], ¬ hosted.queueRights 1 2 b = true ∧ hosted.queueRights 1 (2 ^ 32 - 1) b = true ∧ hosted.queueRights 1 0 b = true)
      ∧ hosted.queueOf (2 ^ 32 - 1) = none ∧ hosted.queueOf 0 = none ∧ hosted.queueOf 1 = none
      ∧ hosted.mobjRights 1 2 = false ∧ hosted.mobjRights 1 1 = true ∧ hosted.mobjOf 1 = none ∧ hosted.mobjOf 0 = none
      ∧ hosted.fenceRights 1 2 = false ∧ hosted.fenceRights 1 (2 ^ 32 - 1) = true ∧ hosted.fenceOf (2 ^ 32 - 1) = none := by decide +kernel

/-- ContextCommands: argument words of a create, a set, an event ring, a query, a queue; work to abort; a queue that may be resumed. -/
def onTask : State :=
  { (hosted.setGal 0 { mid with task := some 1 }) with
    subs := [(1, { task1 with stage := .accepted, ctx := 5, q := 1 }), (2, { task1 with stage := .accepted, q := 1 })],
    queues := [(1, { queue1 with halted := true, code := 9, subs := [1, 2] })] }
theorem test_ContextCommands_met :
    (let a0 := 3 + 2 ^ 20 + 0 * 2 ^ 21 + 2 ^ 26 + 65535 * 2 ^ 32
     bits a0 31 27 = 0 ∧ a0 < 2 ^ 48 ∧ bits a0 25 21 = 0 ∧ hosted.mayCmd 1 0 false = true ∧ bits a0 47 32 ≠ 0
       ∧ hosted.rd .PRT_STAT_state 0 ≠ 3 ∧ hosted.ctxUse 0 < (hosted.part 0).ctxQuota)
      ∧ (List.range 65535).find? (fun k => (hosted.ctx (k + 1)).st == 0) = some 0
      ∧ (∀ c ∈ [5, 6], hosted.ctxRights 1 c true = true) ∧ (hosted.ctx 5).st = 1 ∧ (hosted.ctx 6).st = 2
      ∧ onTask.queuesOf 5 = [1] ∧ (onTask.gal 0).task = some 1 ∧ (onTask.sub 1).ctx = 5
      ∧ hosted.ctxRights 1 5 false = true
      ∧ (∀ a0 ∈ [5 + 7 * 2 ^ 16 + 2 ^ 32, 5 + 5 * 2 ^ 16], bits a0 15 0 = 5 ∧ bits a0 31 19 = 0 ∧ a0 < 2 ^ 48 ∧ (bit a0 17 = true → bits a0 47 32 ≠ 0))
      ∧ (∀ a0 ∈ [5 + 6 * 2 ^ 16 + 2047 * 2 ^ 21, 5 + 16 * 2 ^ 16 + 2 ^ 32],
        bits a0 15 0 = 5 ∧ a0 < 2 ^ 33 ∧ 6 ≤ bits a0 20 16 ∧ bits a0 20 16 ≤ 16)
      ∧ (hosted.ctx 0).st = 0 ∧ hosted.ctxRights 1 0 false = true
      ∧ (∀ a0 ∈ [5 + 15 * 2 ^ 16 + 4 * 2 ^ 20, 5 + 1 * 2 ^ 16 + 16 * 2 ^ 20 + 7 * 2 ^ 25],
        bits a0 15 0 = 5 ∧ a0 < 2 ^ 28 ∧ 4 ≤ bits a0 24 20 ∧ bits a0 24 20 ≤ 16 ∧ hosted.slotQueue 5 (bits a0 19 16) = none)
      ∧ hosted.queueUse 0 < (hosted.part 0).qQuota ∧ hosted.rd .DSP_STAT_pinned 0 < 1024 ∧ (hosted.queue 262143).live = false := by decide +kernel
theorem test_ContextCommands_queues_met :
    hq < 2 ^ 32 ∧ hosted.queueOf hq = some 1 ∧ hosted.queueRights 1 hq true = true ∧ hosted.queueRights 1 hq false = true
      ∧ (hosted.ctx (hosted.queue 1).ctx).st = 1 ∧ (hosted.queue 1).halted = false
      ∧ onTask.queueOf hq = some 1 ∧ (onTask.queue 1).halted = true ∧ (onTask.queue 1).subs = [1, 2] ∧ (onTask.sub 1).stage = .accepted
      ∧ (onTask.sub 2).stage ≠ .rejected ∧ (onTask.sub 1).replaces = none ∧ (onTask.gal 0).task = some 1
      ∧ (let x := { onTask with queues := [(1, { queue1 with halted := true })] }; (x.queue 1).halted = true ∧ (x.queue 1).subs = [] ∧ x.queueOf hq = some 1) := by
  decide +kernel

/-- ObjectCommands: counts at 0, 1, in between and at the end; a fence below, at and above the value written, and in error. -/
def counted (host dev : Nat) : State := { hosted with mobjs := [(1, mobj1 host dev)] }
def fenced (st : Nat) : State := { hosted with fences := [(1, { fence1 with st := st })] }
theorem test_ObjectCommands_met :
    (let a0 := 5 + 2 ^ 16
     bits a0 15 0 = 5 ∧ a0 < 2 ^ 17 ∧ (args a0 0xFFFFFFFF0000 65536).a1.toNat < 2 ^ 48 ∧ (args a0 0xFFFFFFFF0000 65536).a1.toNat % 2 ^ 16 = 0
       ∧ (args a0 0 65536).a2.toNat % 65536 = 0 ∧ (hosted.mobj 262143).live = false)
      ∧ hm < 2 ^ 32
      ∧ (∀ x ∈ [(0, 1), (1, 0), (1, 1), (2, 0), (2 ^ 32 - 2, 0), (2 ^ 32 - 1, 5)], (counted x.1 x.2).mobjOf hm = some 1 ∧ (counted x.1 x.2).mobjRights 1 hm = true)
      ∧ hosted.ctxRights 1 5 false = true ∧ hosted.fenceUse 0 < (hosted.part 0).fenceQuota ∧ (hosted.fence 1048575).live = false
      ∧ (∀ n ∈ [0, 1, 2], (fenced n).fenceRights 1 1 = true ∧ (fenced n).fenceOf 1 = some 1 ∧ ((fenced n).fence 1).st = n ∧ ((fenced n).fence 1).value = 7)
      ∧ ((fenced 1).fence 1).mode = 0 ∧ (fenced 1).flinks = [] := by decide +kernel

/-- Submissions: each cause of a discarded portal write and none; each kind of write at the ends of its range. -/
def wr (c : Nat) (pasid : Option Nat) (off n : Nat) : PortalReq := ⟨1, pasid, c, off, List.replicate n 0#8⟩
def causeOf (s : State) (w : PortalReq) : Option Nat :=
  let c := s.ctx w.ctx
  let k := if w.off < 0x800 then w.off / 0x80 else (w.off - 0x800) / 8
  let width := if 0x880 = w.off then 8 else if w.off < 0x800 then (if w.off % 0x40 = 0 then 64 else 0) else if w.off % 8 = 0 then 8 else 0
  if w.ctx = 0 ∨ c.st ≠ 1 then some 0 else if w.func ≠ 0 ∧ (s.part c.prt).func ≠ w.func then some 1
    else if ¬ (w.pasid = some c.pasid ∨ (w.pasid = none ∧ c.nopasid = true)) then some 2 else if 0x880 < w.off then some 5
    else if w.off ≠ 0x880 ∧ s.slotQueue w.ctx k = none then some 3 else if w.data.length ≠ width then some 4 else none
theorem test_Submissions_portal_met :
    (hosted.func 1).d3 = false ∧ hosted.tdiError 1 = false
      ∧ causeOf hosted (wr 0 none 0 64) = some 0 ∧ causeOf hosted (wr 6 none 0 64) = some 0 ∧ causeOf hosted (wr 7 none 0 64) = some 1
      ∧ causeOf hosted (wr 5 none 0 64) = some 2 ∧ causeOf hosted (wr 5 (some 3) 0x888 8) = some 5 ∧ causeOf hosted (wr 5 (some 3) 0x80 64) = some 3
      ∧ causeOf hosted (wr 5 (some 3) 0 8) = some 4 ∧ causeOf hosted (wr 5 (some 3) 0x804 8) = some 4
      ∧ (∀ e ∈ [(0, 64), (0x40, 64), (0x800, 8), (0x880, 8)], causeOf hosted (wr 5 (some 3) e.1 e.2) = none)
      ∧ hosted.slotQueue 5 0 = some 1 ∧ (hosted.queue 1).cached = true ∧ (hosted.queue 1).devmem = false ∧ (hosted.queue 1).ctx = 5
      ∧ dExt (List.replicate 64 255#8) = true ∧ dExt (List.replicate 64 0#8) = false ∧ (liveCtx 0 1).exts.get [] 0 = []
      ∧ (hosted.queue 1).ahead (hosted.queue 1).tail (hosted.queue 1).head + 1 < 2 ^ 6 ∧ (hosted.queue 1).next = (hosted.queue 1).tail
      ∧ (let x := { queue1 with tail := 62, head := 63 }; 2 ^ x.log ≤ x.ahead x.tail x.head + 1) := by decide +kernel
/-- Submissions: a ring with an unread entry, a halted queue, an empty one; a descriptor that is accepted and one that is refused. -/
def unread : State := { hosted with queues := [(1, { queue1 with tail := 1 })] }
theorem test_Submissions_fetch_met :
    (hosted.queue 1).fetchable = 0 ∧ (unread.queue 1).live = true ∧ (unread.queue 1).halted = false ∧ (unread.queue 1).fetchable ≠ 0
      ∧ (unread.queue 1).devmem = false ∧ (unread.func 1).d3 = false ∧ unread.tdiDrops 1 = false ∧ unread.sub unread.nextSub = .none
      ∧ ((unread.setFunc 1 { Func.reset with d3 := true }).func 1).d3 = true
      ∧ unread.acceptCode (subOf 1 5 0 0 (List.replicate 64 0#8)) = 0 ∧ unread.acceptCode (subOf 1 5 0 0 (List.replicate 64 0x10#8)) ≠ 0
      ∧ dExt (List.replicate 64 0x10#8) = false := by decide +kernel
/-- Scheduling: submissions whose fence is satisfied, is not yet, and never can be; one that waits and one that is complete. -/
def waits (wfence wval : Nat) : Sub := { Sub.none with stage := .accepted, isTask := true, q := 1, ctx := 5, span := 1, wfence := wfence, wval := wval }
def starting (u : Sub) : State := { hosted with subs := [(1, u)], queues := [(1, { queue1 with subs := [1] })] }
def finished (sfence sval : Nat) : Sub := { waits 0 0 with stage := .complete, sfence := sfence, sval := sval }
theorem test_Scheduling_start_met :
    ((starting (waits 0 0)).queue 1).live = true ∧ ((starting (waits 0 0)).queue 1).halted = false ∧ ((starting (waits 0 0)).queue 1).held = false
      ∧ (starting (waits 0 0)).nextStart none [1] = some 1 ∧ (hosted.queue 9).live = false
      ∧ (starting (waits 1 8)).waitOn 1 8 = some false ∧ (starting (waits 2 7)).waitOn 3 7 = none ∧ (starting (waits 1 7)).waitOn 1 7 = some true
      ∧ (waits 0 0).isTask = true ∧ { waits 0 0 with isTask := false }.isTask = false
      ∧ (starting (waits 0 0)).mayRetire 1 = false ∧ (starting (finished 1 8)).mayRetire 1 = true ∧ (finished 1 8).replaces = none
      ∧ (finished 0 0).mobjs = [] ∧ (finished 0 0).missed = false
      ∧ (starting (finished 1 8)).fenceOf 1 = some 1 ∧ ((starting (finished 1 8)).fence 1).st ≠ 2 ∧ ((starting (finished 1 8)).fence 1).value < 8 := by
  decide +kernel

/-- Scheduling: tasks of two spans before galleries that are free, resident and too few; runs that yield and runs that do not. -/
def prog1 : Prog := { Prog.free with reg := true, span := 1, size := 4096, resident := [0, 1] }
def readyTask (n span : Nat) (lc : Bool) : Sub := { waits 0 0 with stage := .ready, seq := n, span := span, lc := lc }
def sealed_ (subs : Tab Sub) : State := withRegs [(.PRT_STAT_state, 0, 2)] { hosted with subs := subs, progs := [(0, prog1)] }
def busyWith (lc : Bool) : State := sealed_ [(1, { readyTask 1 1 lc with stage := .placed, gals := [0, 1] }), (2, readyTask 2 2 true)]
def parkedOn (subs : Tab Sub) : State := sealed_ ((4, { readyTask 4 1 false with stage := .parked, gals := [0] }) :: subs)
theorem test_Scheduling_place_met :
    hosted.takesTasks 0 = false ∧ (sealed_ []).takesTasks 0 = true ∧ (sealed_ []).flag .DSP_SCHED_orphan 0 = false
      ∧ (withRegs [(.DSP_SCHED_orphan, 0, 1)] (sealed_ [])).flag .DSP_SCHED_orphan 0 = true
      ∧ (sealed_ [(1, readyTask 1 3 false), (2, readyTask 2 1 false)]).bestEffortOrder 0 = [1, 2]
      ∧ (sealed_ []).freeRun (readyTask 1 3 false) = none ∧ (sealed_ []).freeRun (readyTask 2 1 false) = some [0]
      ∧ (sealed_ []).flag .DSP_SCHED_backfill 0 = false ∧ (withRegs [(.DSP_SCHED_backfill, 0, 1)] (sealed_ [])).flag .DSP_SCHED_backfill 0 = true
      ∧ (sealed_ []).criticalOrder 0 = [] ∧ (sealed_ [(2, readyTask 2 2 true)]).criticalOrder 0 = [2] ∧ (sealed_ []).freeRun (readyTask 2 2 true) = some [0, 1] := by
  decide +kernel
def apart (lc : Bool) : State :=
  { busyWith lc with
    subs := [(1, { readyTask 1 1 lc with stage := .placed, gals := [0, 1], prog := 1 }), (2, readyTask 2 2 true)],
    progs := [(0, prog1), (1, { prog1 with base := 4096 })] }
theorem test_Scheduling_preempt_met :
    (apart false).freeRun (readyTask 2 2 true) = none ∧ (apart false).yieldRun (readyTask 2 2 true) = some [0, 1]
      ∧ (apart false).criticalOrder 0 = [2] ∧ (apart true).freeRun (readyTask 2 2 true) = none ∧ (apart true).yieldRun (readyTask 2 2 true) = none
      ∧ (sealed_ [(3, { readyTask 3 1 false with stage := .suspended, gals := [0] })]).mayResume 3 = true
      ∧ ((sealed_ [(3, { readyTask 3 1 false with stage := .suspended, gals := [0] })]).setGal 0 { Gal.idle with task := some 8 }).mayResume 3 = false
      ∧ (parkedOn []).freeRun ((parkedOn []).sub 4) = some [0]
      ∧ (parkedOn [(1, { readyTask 1 1 false with stage := .placed, gals := [0, 1] })]).freeRun ((parkedOn []).sub 4) = none := by decide +kernel

/-- FunctionsAndLogs: logs on and off, a swap that is due, an aperture over the partition's memory, its end and beyond, one that is refused. -/
def logging : State := withRegs [(.DSP_DLOG_CTRL_en, 127, 1), (.DSP_MLOG_BASE_en, 31, 1)] { hosted with mlSwap := [4], funcs := [(5, { Func.reset with dlOld := some 64 })] }
def viewing : State := { withRegs [(.DSP_APR_prt, 1, 0), (.DSP_APR_prt, 2, 0)] memOps with ctxs := [(5, { liveCtx 0 1 with evEn := true, evFunc := 1 })] }
theorem test_FunctionsAndLogs_met :
    host0.ok = true ∧ logging.barOf 0 = true ∧ logging.flag .DSP_DLOG_CTRL_en 127 = true ∧ logging.flag .DSP_DLOG_CTRL_en 0 = false
      ∧ logging.flag .DSP_MLOG_BASE_en 31 = true ∧ logging.flag .DSP_MLOG_BASE_en 0 = false ∧ 4 ∈ logging.mlSwap ∧ 5 ∉ logging.mlSwap
      ∧ (logging.func 5).dlOld ≠ none ∧ (logging.func 4).dlOld = none
      ∧ viewing.barOf 1 = true ∧ viewing.serves 1 0 = true ∧ viewing.serves 2 0 = false ∧ viewing.confidential 0 = false
      ∧ (withRegs [(.PRT_CTRL_conf, 0, 1), (.PRT_STAT_state, 0, 2)] viewing).confidential 0 = true
      ∧ viewing.mapped 0 0 64 = true ∧ viewing.mapped 0 (part0.hbm - 8) 8 = true ∧ viewing.mapped 0 (part0.hbm - 8) 9 = false
      ∧ (viewing.ctx 5).func = 1 ∧ (viewing.ctx 5).st = 1 ∧ (viewing.ctx 5).evEn = true
      ∧ ((viewing.setFunc 1 { Func.reset with d3 := true }).func 1).d3 = true ∧ (viewing.func 1).d3 = false
      ∧ ((viewing.setFunc 1 ⟨true, [.msix 3, .msix 4], [], 0, 0, none, none⟩).func 1).held = [.msix 3, .msix 4] ∧ viewing.engs = [] := by decide +kernel
theorem test_FunctionsAndLogs_good_met :
    viewing.linesGood 0 0 64 false ∧ viewing.linesGood 0 (part0.hbm - 8) 8 true := by unfold State.linesGood; decide +kernel
-- Address translation -----------------------------------------------------------------------------------------------------------

/-- TranslationCommands: functions that BAR0 answers and that it does not; room for a window and the last entries; windows of each kind. -/
def export1 : Win := { Win.free with gen := 4, kind := 1, ctx := 5, rights := 31, peer := 7, base := 0x10000, size := 65536 }
def windowed : State := { hosted with wins := [(0, export1), (1, { export1 with kind := 2, rights := 16 }), (2, { export1 with ctx := 7 })] }
theorem test_TranslationCommands_met :
    windowed.barAll 1 = true ∧ windowed.barAll 3 = false ∧ windowed.ctxRights 1 5 false = true ∧ (windowed.ctx 5).st = 1
      ∧ windowed.winUse 0 < (windowed.part 0).winQuota ∧ (windowed.win 4095).kind = 0
      ∧ (∀ a0 ∈ [5, 5 + 31 * 2 ^ 16 + 31 * 2 ^ 32], bits a0 31 21 = 0 ∧ a0 < 2 ^ 37)
      ∧ bits (4095 + 65535 * 2 ^ 16) 15 12 = 0
      ∧ (∀ i ∈ [0, 1], windowed.winRights 1 i true = true ∧ (windowed.win i).kind = i + 1) ∧ windowed.winRights 1 4095 false = true
      ∧ windowed.winRights 1 2 false = false := by decide +kernel
/-- TranslationCommands: an invalidation queue with a command to run; commands of every outcome; a parked copy with and without its record. -/
def iqd : State :=
  withRegs [(.XLT_IQ_BASE_en, 1, 1), (.XLT_IQ_BASE_size, 1, 6), (.XLT_IQ_TAIL_idx, 1, 1), (.XLT_FR_BASE_en, 1, 1), (.XLT_FR_BASE_size, 1, 12)]
    { windowed with
      hostStop := false,
      engs := [(engKey 0 6, { Eng.idle with cur := some (List.replicate 64 0#8, { cap5 with epoch := 9 }, 0), parked := some ⟨0x10000, 0, 0, 2, false, 0, false⟩ }),
        (engKey 31 7, { Eng.idle with cur := some (List.replicate 64 0#8, { cap5 with epoch := 9 }, 0), parked := some ⟨0x10000, 0, 0, 2, true, 0, true⟩ })] }
theorem test_TranslationCommands_queue_met :
    iqd.iqReady 1 = true ∧ windowed.iqReady 1 = false ∧ iqd.ctxExists 5 = true ∧ iqd.serves 1 (iqd.ctx 5).prt = true
      ∧ (iqd.ctx 7).st ≠ 0 ∧ iqd.serves 1 (iqd.ctx 7).prt = false ∧ (iqd.ctx 8).st = 0
      ∧ iqd.tdiDrops 1 = false ∧ iqd.flag .DSP_DLOG_CTRL_en 1 = false
      ∧ (let k := tagKey 0; k = engKey 0 6 ∧ iqd.replyStale k 8 5 = true ∧ iqd.replyStale k 9 5 = false) ∧ tagKey 63 = engKey 31 7
      ∧ bits (63 + 2 ^ 8) 31 9 = 0 ∧ bit (63 + 2 ^ 8) 8 = true ∧ bit 63 8 = false
      ∧ (iqd.func 1).iqCur = none ∧ ((iqd.setFunc 1 { Func.reset with iqCur := some (3, ⟨0, 0, 0, 0, 0#64, 0⟩) }).func 1).iqCur ≠ none
      ∧ (iqd.eng (engKey 0 5)).parked = none ∧ iqd.frRoom (iqd.part 0).func = true ∧ iqd.recStopped 0 = false
      ∧ ((iqd.eng (engKey 0 6)).parked.map (·.posted)) = some false ∧ ((iqd.eng (engKey 31 7)).parked.map (·.pri)) = some true := by decide +kernel

-- Programs ----------------------------------------------------------------------------------------------------------------------

/-- ProgramCommands: an image of 128 bytes whose digest is that of R301, at address 0; slots registered and free, in use, loading. -/
def image : List Byte := natLe 128
  0x7faef6d325a6ce279dc8a2168ec2a1944e5fc3ea1177e75280646d2297b6e10271c69e57634d783254fc42b4a53b579373757b712a8afb435e9663ef041a9726000004080000000000000000000000000000100000001000000010000000100000000000000000000000000000000000000001010000008001000001315a4d43
def holding : State :=
  { withRegs [(.DEV_COMPAT_LEVEL_level, 0, 0x100)] memOps with
    pmem := memWrite [] (pmemKey 0 0) image,
    progs := [(255, { prog1 with gen := 3, loading := [1] }), (254, prog1)],
    subs := [(1, { waits 0 0 with prog := 254 })] }
theorem test_ProgramCommands_met :
    host0.ok = true ∧ holding.reachesPrt (.func 1) 0 = true ∧ holding.reachesPrt (.func 2) 0 = false
      ∧ (holding.prog 0).reg = false ∧ (holding.prog 255).reg = true
      ∧ imgOk image (holding.part 0).hum 0x100 = true
      ∧ ((holding.asked .prog 0 1 (args 0 0 0)).readImage 0 0).1 = some image
      ∧ ((holding.asked .prog 0 1 (args 0 0 0)).readImage 0 0).2.progs = holding.progs
      ∧ ((holding.asked .prog 0 1 (args 0 0 0)).readImage 0 0).2.rd .DEV_COMPAT_LEVEL_level 0 = 0x100
      ∧ ((holding.asked .prog 0 1 (args 0 0 0)).readImage 0 (part0.hbm - 127)).1 = none
      ∧ imgOk (image.set 13 0#8) (holding.part 0).hum 0x100 = false
      ∧ (List.range 32).filter (fun g => (3 : Nat).testBit g) = [0, 1] ∧ (∀ g ∈ [0, 1], g ∈ (holding.part 0).slices)
      ∧ 31 ∉ (holding.part 0).slices ∧ (2 ^ 31 : Nat).testBit 31 = true
      ∧ holding.progInUse 0 254 = true ∧ holding.progInUse 0 255 = false
      ∧ 0 ∉ (holding.prog 255).loading ∧ 1 ∈ (holding.prog 255).loading ∧ holding.windowTaken 1 (holding.prog 255) = false
      ∧ holding.flag .MEM_PRT_OWN_en 0 = false ∧ holding.mapped 0 0 0 = true := by decide +kernel
theorem test_ProgramCommands_copy_met : holding.linesGood 0 0 0 false ∧ holding.poolQuiet 1 := by
  unfold State.linesGood State.poolQuiet; decide +kernel

/-- DeadlinesAndRegulation: deadlines that have and have not passed, with no fallback, an empty one, and one that waits. -/
def due (x : Sub) : State :=
  withRegs [(.DSP_DLCNT_count, 0, 10)] { hosted with
    subs := [(1, { x with deadline := some 9 }), (3, { waits 0 0 with q := 3 })],
    queues := [(1, { queue1 with subs := [1] }), (3, { queue1 with slot := 1, held := true, subs := [3] })] }
def limited : State := { device with map := ⟨[(0, { part0 with targets := [100, 0, 0, 0], limits := [5, 0, 0, 0] })], .default⟩ }
theorem test_DeadlinesAndRegulation_met :
    passed 10 9 = true ∧ passed 10 10 = false ∧ ((due (waits 0 0)).sub 1).missed = false ∧ ((due (waits 0 0)).sub 1).deadline = some 9
      ∧ (due (waits 0 0)).rd .DSP_DLCNT_count 0 = 10 ∧ (due (waits 0 0)).flag .DSP_DL_LAST_valid 0 = false
      ∧ ((waits 0 0).stage).started = false ∧ ((finished 0 0).stage).started = true
      ∧ (let x := { waits 0 0 with fallback := 3 + 2 * 2 ^ 18 }; (due x).fallbackOf x = some 3 ∧ x.replaces = none)
      ∧ (let x := { waits 0 0 with fallback := 4 }; (due x).fallbackOf x = none)
      ∧ (limited.part 31).defined = false ∧ (limited.part 0).defined = true ∧ (limited.part 0).targets.getD 0 0 = 100
      ∧ (limited.part 0).limits.getD 0 0 = 5 ∧ (limited.part 0).limits.getD 3 0 = 0 := by decide +kernel
-- Huaton ------------------------------------------------------------------------------------------------------------------------

/-- A port whose link is up and carries session 3 of partition 0; its state in negotiation and training. -/
def sess3 : Sess := { Sess.free with st := 2, prt := 0, peer := 7, peerPrt := 0, ports := 1, dsess := 9, maxdata := 4096 }
def linked : State :=
  withRegs [(.HTN_PORT_CTRL_en, 0, 1), (.HTN_PORT_STAT_state, 0, 4), (.HTN_PORT_STAT_lanes, 0, 15), (.HTN_PORT_STAT_rank, 0, 1)]
    { windowed with sesss := [(3, sess3)] }
def portAt (st : Nat) : State := withRegs [(.HTN_PORT_STAT_state, 0, st), (.HTN_AN_LP_ability, 0, 0xF1)] linked
theorem test_LinkLayer_met :
    linked.linkUp 0 = true ∧ linked.native 0 = true ∧ linked.phySrc .mgmt 0 = true ∧ linked.phySrc (.func 1) 0 = false ∧ linked.flag .HTN_PORT_CTRL_en 0 = true
      ∧ (portAt 1).rd .HTN_PORT_STAT_state 0 = 1 ∧ (portAt 2).rd .HTN_PORT_STAT_state 0 = 2
      ∧ (let x := (portAt 1).port 0
         let u := fun (ab : Nat) => (((portAt 1).wr .HTN_AN_ADV_ability 0 ((portAt 1).ability 0)).wr .HTN_AN_LP_ability 0 ab).setPort 0 { x with lpEth := 0, failed := 0 }
         (u 0xF1).commonRank 0 = some 1 ∧ (u 0x12).commonRank 0 = some 15 ∧ (u 0).commonRank 0 = none)
      ∧ laneSet 1 ((portAt 2).availLanes 0 1 &&& 15) = some 15 ∧ laneSet 1 ((portAt 2).availLanes 0 1 &&& 7) = none
      ∧ (portAt 2).prtOf 0 = some 0 ∧ (portAt 2).prtOf 31 = none
      ∧ (linked.rd .HTN_PORT_STAT_lanes 0).testBit 3 = true ∧ (portAt 1).linkUp 0 = false := by decide +kernel
theorem test_LinkLayer_train_met :
    (let s := withRegs [(.HTN_PORT_STAT_state, 31, 2), (.HTN_PORT_STAT_rank, 31, 1), (.HTN_AN_LP_ability, 31, 0xF1)] (portAt 2)
     s.rd .HTN_PORT_STAT_state 31 = 2 ∧ s.prtOf 31 = none ∧ laneSet (s.rd .HTN_PORT_STAT_rank 31) (s.availLanes 31 1 &&& 15) = some 15) := by decide +kernel
/-- LinkLayer: flits in and out of sequence, packets that wait for credits, replays of flits in flight and beyond, and the eighth and ninth. -/
def sendingFlits : State := linked.setPort 0 { linked.port 0 with txSeq := 2, txq := [(3, 1, .msix 0 0)], discarding := true, replays := 8, replayOf := 1 }
def ethPort (v6 : Nat) : State := withRegs [(.HTN_PORT_STAT_eth, 0, 1), (.HTN_ETH_CFG_ipv6, 0, v6), (.HTN_ETH_IP0_value, 0, 5), (.HTN_ETH_IP1_value, 0, 6)] linked
theorem test_LinkLayer_flits_met :
    (linked.port 0).rxSeq = 0 ∧ (linked.port 0).discarding = false ∧ (sendingFlits.port 0).discarding = true ∧ (linked.port 0).txq = []
      ∧ (sendingFlits.port 0).txq = [(3, 1, .msix 0 0)] ∧ (sendingFlits.port 0).ackSeq < 2048
      ∧ 1 ≤ (sendingFlits.port 0).credits.getD 3 0 + ([0, 0, 0, 1] : List Nat).getD 3 0
      ∧ ((sendingFlits.port 0).txSeq + 2048 - (sendingFlits.port 0).ackSeq) % 2048 + 1 ≤ 1024
      ∧ (let x := sendingFlits.port 0
         ∀ q ∈ [0, 1], (q + 2048 - x.ackSeq) % 2048 < (x.txSeq + 2048 - x.ackSeq) % 2048
           ∧ (if x.replayOf = q then x.replays + 1 else 1) = (if q = 1 then 9 else 1))
      ∧ (∀ v ∈ [0, 1], (ethPort v).linkUp 0 = true ∧ (ethPort v).native 0 = false)
      ∧ (ethPort 0).flag .HTN_ETH_CFG_ipv6 0 = false ∧ (ethPort 1).flag .HTN_ETH_CFG_ipv6 0 = true ∧ (ethPort 0).rd .HTN_ETH_IP0_value 0 = 5 := by
  decide +kernel

/-- Transactions: packets unacknowledged, requests open; transactions stale, of another generation, malformed, applied before, and fresh
under each opcode with a window that lets them in, and with none. -/
def txn (psn arg len : Nat) : Txn := ⟨false, false, false, 0, 0, 0, 0, 4, 0, 0, 0, arg, psn, List.replicate len 0#8⟩
def pkt0 : Pkt := ⟨0, 0, .write, [], []⟩
def req0 : Req := { sess := 3, rid := 0, op := 1, win := 1, widx := 0, wgen := 0, offset := 0, arg := 0, err := false, data := [], ctx := 5, epoch := 9,
                    owner := .far 0 6, reissues := 0, sent := true, st := 0, status := 0, resp := [] }
def trading : State :=
  { linked with
    ctxs := [(5, { liveCtx 0 1 with root := some 0x10000 })], pmem := [(0x10000, 0x01), (0x10001, 0x10), (0x10002, 0x01), (0x11000, 0x0B)], reqs := [req0] }
def tradingMem : State := withRegs ((List.range 16).map (fun c => (.MEM_HBM_STAT_state, c, 1))) trading
def sessWith (x : Sess) : State := { tradingMem with sesss := [(3, x)] }
theorem test_Transactions_met :
    (let x := { sess3 with unacked := [{ pkt0 with psn := 5 }] }
     ((sessWith x).sess 3).unacked = [{ pkt0 with psn := 5 }] ∧ (5 + 2 ^ 32 - 5 % 2 ^ 32) % 2 ^ 32 < 1
       ∧ ((sessWith x).sess 3).unacked.find? (fun p => p.psn == 5) = some { pkt0 with psn := 5 }
       ∧ (sessWith x).choosePort 1 (vcOf .write) (some 0) = 0 ∧ (ethPort 0).native 0 = false)
      ∧ (tradingMem.sess 3).st = 2 ∧ (tradingMem.sess 0).st ≠ 2 ∧ ((sessWith { sess3 with rxSet := [4] }).sess 3).rxSet ≠ []
      ∧ tradingMem.openReq 3 0 = some req0 ∧ tradingMem.openReq 3 1 = none ∧ req0.reissues < tradingMem.rd .HTN_TMR_reissues (tradingMem.homePort sess3)
      ∧ ((tradingMem.deliverPacket 0).takePsn 0 3 0).1 = true ∧ (((sessWith { sess3 with rxNext := 1 }).deliverPacket 0).takePsn 0 3 0).1 = false
      ∧ tradingMem.prtOf 0 = some 0 ∧ tradingMem.prtOf 31 ≠ some 0 ∧ tradingMem.genOk 0 = true ∧ tradingMem.genOk 1 = false
      ∧ (sess3.ridState 0 = .fresh ∧ { sess3 with marks := [(0, some 5)] }.ridState 0 = .dup (some 5) ∧ { sess3 with high := some 4096 }.ridState 0 = .stale)
      ∧ ((sessWith sess3).takePsn 0 3 0).1 = true ∧ ((sessWith { sess3 with rxNext := 1 }).takePsn 0 3 0).1 = false := by decide +kernel
/-- Transactions: what an arrival finds once its packet number is taken. -/
def taken (t : Txn) : State := ((tradingMem.deliverPacket 0).takePsn 0 3 t.psn).2
def win0 : Win := { export1 with base := 0x10000, size := 65536 }
def okData (r : FarRes × State) (n : Nat) : Bool :=
  match r.1 with
  | .ok b => b.length == n
  | _ => false
theorem test_Transactions_effects_met :
    (∀ r ∈ [0, 1, 2, 3, 4], (taken (txn 0 0 8)).exportFor 3 (txn 0 0 8) r = some win0)
      ∧ (∀ r ∈ [0, 1, 2, 3, 4], (taken (txn 0 0 8)).exportFor 3 { txn 0 0 8 with wgen := 5 } r = none)
      ∧ (taken (txn 0 0 8)).arrivalVa win0 0 8 true = some 0x10000 ∧ (taken (txn 0 0 8)).arrivalVa win0 65528 8 false = some 0x1FFF8
      ∧ okData ((taken (txn 0 0 8)).farWrite 0 5 0x10000 (List.replicate 8 0#8)) 0 = true
      ∧ okData ((taken (txn 0 8 0)).farRead 0 5 0x10000 8) 8 = true
      ∧ (((taken (txn 0 0 8)).walk 5 0x10000).compute true = .dev 0x10000)
      ∧ (match ((taken (txn 0 0 8)).memAtomic 0 0x10000 5 (txnAtomicOp 0) 0).1 with | .ok b => b.length == 4 | _ => false) = true
      ∧ (taken (txn 0 0 128)).tagSlot 0 0 = none ∧ win0.size = 65536
      ∧ (∀ a ∈ [0, 1, 2, 3], atomicSize (txnAtomicOp a) ∣ 0)
      ∧ (taken (txn 0 8 0)).fenceOf 1 = some 1 ∧ ((taken (txn 0 8 0)).fence 1).ctx = win0.ctx ∧ ((taken (txn 0 8 0)).fence 1).st ≠ 2
      ∧ ((taken (txn 0 8 0)).fence 1).value < 8 := by decide +kernel
theorem test_Transactions_revoke_met :
    (let u := { tradingMem with wins := [(1, { win0 with kind := 2, peerIdx := 0, peerGen := 4 })] }
     (u.wins.filter (fun w => w.2.kind == 2 && w.2.peer == sess3.peer && w.2.peerPrt == sess3.peerPrt && w.2.peerIdx == (txn 0 0 0).widx
        && w.2.peerGen == (txn 0 0 0).wgen && (u.ctx w.2.ctx).prt == sess3.prt)).map (·.1) = [1])
      ∧ (let u := { tradingMem with heldReduce := [⟨0, 5, 0, 0, []⟩] }; u.heldReduce = [(⟨0, 5, 0, 0, []⟩ : HeldReduce)] ∧ tradingMem.heldReduce = [])
      ∧ (tradingMem.ctx req0.ctx).epoch = req0.epoch ∧ req0 ∈ tradingMem.reqs := by decide +kernel
/-- Transactions: a relay that is armed for the tag of a REDUCE. -/
def armedRelay : State :=
  { tradingMem with engs := [(engKey 0 4, { Eng.idle with relays := [⟨2, List.replicate 64 0#8, { cap5 with epoch := 9 }, 0, [], []⟩] })] }
theorem test_Transactions_relay_met :
    (let t := txn 0 0 128; ((armedRelay.deliverPacket 0).takePsn 0 3 t.psn).2.tagSlot 0 0 = some (0, 2)) := by decide +kernel

/-- Sessions: greetings that are not for the port and that are; sessions to open, to take new keys, to join and to leave; key slots for two
and for none; a rekey due; the port's command window. -/
def greeting : Greeting :=
  { verMaj := 1, verMin := 0, eth := false, caps := 0, srcPrt := 0, dstPrt := 0, nexp := 0, maxdata := 4096, dsess := 4, gen := 0, digest8 := 7, pub := 0,
    nonce := 0, sigOk := true, ports := 1 }
def noSlots : State := { sessWith { sess3 with st := 1, offered := 1 } with slots := (List.range 3904).map (fun k => (192 + k, { KeySlot.free with st := 1 })) }
theorem test_Sessions_met :
    linked.greetOk 0 greeting = true ∧ linked.greetOk 0 { greeting with verMaj := 2 } = false ∧ (portAt 1).greetOk 0 greeting = false
      ∧ ((sessWith { sess3 with st := 1 }).sessFor 0 7 0).1 = some 3
      ∧ ((sessWith { sess3 with st := 1 }).sess 3).st = 1
      ∧ (sessWith { sess3 with offered := 1 }).sesss.find? (fun e => e.2.st != 0 && e.2.prt == 0 && e.2.peer == 7 && e.2.peerPrt == 0)
        = some (3, { sess3 with offered := 1 })
      ∧ ({ sess3 with offered := 1 }.offered.testBit 0 = true ∧ sess3.offered.testBit 0 = false)
      ∧ 2 ≤ tradingMem.freeSlots .link
      ∧ sess3.ports.testBit 0 = true ∧ sess3.ports = 2 ^ 0 ∧ ({ sess3 with ports := 3 }.ports.testBit 0 = true ∧ { sess3 with ports := 3 }.ports ≠ 2 ^ 0)
      ∧ sess3.unacked = [] ∧ (sessWith sess3).linkUp 0 = true ∧ sess3.rekey = false ∧ sess3.confirmed = 0 ∧ sess3.oldPhase = false := by decide +kernel
theorem test_Sessions_slots_met : noSlots.freeSlots .link < 2 := by decide +kernel
def flinking : State := withRegs [(.HTN_CMD_busy, 0, 0)] { tradingMem with wins := [(0, win0), (1, { win0 with kind := 2, rights := 31 })] }
theorem test_Sessions_commands_met :
    flinking.barOf 1 = true ∧ flinking.flag .HTN_CMD_busy 0 = false ∧ (withRegs [(.HTN_CMD_busy, 0, 1)] flinking).flag .HTN_CMD_busy 0 = true
      ∧ flinking.htnMay 1 0 = true ∧ (flinking.sess 1023).st = 0 ∧ (flinking.sess 3).prt = 0 ∧ (flinking.sess 3).st = 2
      ∧ flinking.fenceRights 1 1 = true ∧ flinking.fenceIn 1 0 = true ∧ (flinking.win 1).kind = 2 ∧ (flinking.win 1).ctx = (flinking.fence 1).ctx
      ∧ bit (flinking.win 1).rights 4 = true ∧ (flinking.ctx 5).st = 1 ∧ flinking.flinks = []
      ∧ (let a0 := 5 + 3 * 2 ^ 16 + 1 * 2 ^ 24
         bits a0 15 0 = 5 ∧ bits a0 23 16 = 3 ∧ bits a0 35 24 = 1 ∧ a0 < 2 ^ 36 ∧ flinking.ctxRights 1 5 false = true ∧ flinking.ctxExists 5 = true
           ∧ flinking.winOk 5 1 (65536 - atomicSize (txnAtomicOp 3)) (atomicSize (txnAtomicOp 3)) 2 = true
           ∧ (65536 - atomicSize (txnAtomicOp 3)) % atomicSize (txnAtomicOp 3) = 0) := by decide +kernel
-- Clocks, power, temperature ----------------------------------------------------------------------------------------------------

/-- ClocksPowerTemperature: halls that wait for their voltage and that do not, stretches, alerts, throttles, held and capped halls; readings
at 95, 103 and 105 degrees, below and above; each reference. -/
def hallAt (h : Nat) (x : Hall) (l : List (Fld × Nat × Nat)) : State :=
  (withRegs ([(.PWR_HALL_STAT_cur, h, 9), (.PWR_HALL_STAT_target, h, 12)] ++ l) device).setHall h x
def waiting : Hall := { Hall.reset with wait := true, fails := 2 }
def readings (v : Int) : List (Option Int) := List.replicate 44 (some v)
theorem test_ClocksPowerTemperature_met :
    (∀ h ∈ [0, 1], ((hallAt h waiting []).hall h).wait = true ∧ ((hallAt h waiting []).hall h).held = none ∧ (hallAt h waiting []).stretching h = false
        ∧ (hallAt h waiting []).flag .PWR_HALL_STAT_defer h = false ∧ (hallAt h waiting [(.PWR_HALL_STAT_defer, h, 1)]).flag .PWR_HALL_STAT_defer h = true
        ∧ (hallAt h Hall.reset []).flag .PWR_HALL_STAT_alert 0 = false ∧ (hallAt h Hall.reset [(.PWR_HALL_STAT_alert, 0, 1)]).flag .PWR_HALL_STAT_alert 0 = true
        ∧ (hallAt h Hall.reset []).flag .PWR_HALL_STAT_throttle 0 = false ∧ (hallAt h Hall.reset [(.PWR_HALL_STAT_throttle, 0, 1)]).flag .PWR_HALL_STAT_throttle 0 = true
        ∧ (hallAt h Hall.reset [(.PWR_HALL_STAT_mode, h, 1)]).fixed h = true
        ∧ ((hallAt h { Hall.reset with cap := some 9 } []).hall h).cap ≠ none ∧ 0 < (hallAt h Hall.reset []).rd .PWR_HALL_STAT_cur h
        ∧ Hall.reset.cap = none ∧ (withRegs [(.PWR_HALL_STAT_cur, h, 0)] device).rd .PWR_HALL_STAT_cur h = 0)
      ∧ Hall.reset.wait = false ∧ ({ Hall.reset with held := some 0 } : Hall).held = some 0
      ∧ (withRegs [(.PWR_GAL_STAT_stretch, 31, 1)] device).flag .PWR_GAL_STAT_stretch 31 = true ∧ (withRegs [(.PWR_GAL_STAT_stretch, 31, 1)] device).stretching 1 = true
      ∧ device.flag .PWR_GAL_STAT_stretch 0 = false ∧ (device.gal 0).task = none ∧ ((onTask.gal 0).task = some 1) ∧ device.pwr.want.get 0 31 < 32
      ∧ device.board.pcie = true ∧ device.pfOrMgmt .mgmt = true ∧ device.snapping = false ∧ ({ device with snapping := true } : State).snapping = true
      ∧ device.pfOrMgmt (.func 1) = false
      ∧ (∀ v ∈ [(-2048 : Int), 379, 380, 411, 412, 419, 420, 2047], (readings v).length = 44 ∧ ∀ e ∈ readings v, ∀ x, e = some x → -2048 ≤ x ∧ x < 2048)
      ∧ (4 * 105 : Int) ≤ 420 ∧ ¬ (4 * 105 : Int) ≤ 419 ∧ (4 * 95 : Int) ≤ 380 ∧ ¬ (4 * 103 : Int) ≤ 411 := by
  refine ⟨by decide +kernel, by decide +kernel, by decide +kernel, by decide +kernel, by decide +kernel, by decide +kernel, by decide +kernel,
    by decide +kernel, by decide +kernel, by decide +kernel, by decide +kernel, by decide +kernel, by decide +kernel, by decide +kernel, ?_, by decide, by decide, by decide, by decide⟩
  intro v hv
  refine ⟨rfl, fun e he x hx => ?_⟩
  have h1 := List.eq_of_mem_replicate he
  subst h1
  cases hx
  simp at hv
  omega

-- Faults and resets -------------------------------------------------------------------------------------------------------------

/-- FaultsEscalate: an engine at work with three expiries behind it, a head that runs, galleries lost and whole, with and without a spare,
copies and stops fenced and not, partitions frozen and not, a part whose cycle has begun. -/
def working (l : List Nat) : State :=
  { posted 0 (cmdOf 0 []) with
    engs := [(0, { Eng.idle with cur := some (cmdOf 0 [], cap5, 0), phase := .waiting 0, expiries := l })],
    ctxs := [(5, { liveCtx 0 1 with root := some 0x10000 })] }
def running0 : State := { (working [0, 0, 0]).setGal 0 { Gal.idle with task := some 1, started := true } with subs := [(1, task1)] }
def hurt : State := { device with ras := { device.ras with lost := [7], fencedCopies := [3], fencedStops := [8], frozen := [4] } }
theorem test_FaultsEscalate_met :
    (working []).dogRuns 0 = true ∧ device.dogRuns 0 = false ∧ 4 ≤ ([0, 0, 0].filter (fun t => decide (0 - t < 1200000000)) ++ [0] : List Nat).length
      ∧ (running0.gal 0).task = some 1 ∧ running0.isHead 0 = true ∧ (running0.sub 1).stage = .placed
      ∧ 7 ∈ hurt.ras.lost ∧ 0 ∉ hurt.ras.lost ∧ running0.rd .SVY_STAT_phase 0 ≠ 5
      ∧ running0.prtOf 0 = some 0 ∧ (running0.part 0).spares = [] ∧ running0.tasksOn 0 = [1] ∧ (running0.ctx (running0.sub 1).ctx).st = 1
      ∧ 2 * 1 + 1 % 2 ∈ hurt.ras.fencedCopies ∧ 2 * 1 + 0 % 2 ∉ hurt.ras.fencedCopies ∧ 2 * 1 + (0 + 1) % 2 ∈ hurt.ras.fencedCopies
      ∧ 2 * 5 ∉ hurt.ras.fencedCopies ∧ 2 * 5 + 1 ∉ hurt.ras.fencedCopies
      ∧ 8 ∈ hurt.ras.fencedStops ∧ 9 ∉ hurt.ras.fencedStops ∧ device.ras.fencedStops = [] ∧ (device.part 0).defined = true ∧ 0 ∉ device.ras.frozen
      ∧ (∀ n ∈ [0, 1], (withRegs [(.RAS_ESC_CTRL_auto_prt, 0, n)] device).flag .RAS_ESC_CTRL_auto_prt 0 = (n == 1))
      ∧ (∀ n ∈ [0, 1], (withRegs [(.RAS_STAT_cycle, 0, n)] device).flag .RAS_STAT_cycle 0 = (n == 1)) := by decide +kernel

/-- Resets: one that is due and one that is asked for, a context to abort, a second and a third chip reset. -/
def dueFor (p : Option Nat) : State := { hosted with ras := { hosted.ras with due := [⟨p, 4⟩] }, ctxs := [(5, liveCtx 0 1)] }
def again (l : List Nat) : State := { hosted with ras := { hosted.ras with chipTimes := l } }
theorem test_Resets_met :
    host0.ok = true ∧ (dueFor (some 0)).pwr.stop = 0 ∧ (hosted.part 31).defined = false ∧ (hosted.part 0).defined = true
      ∧ (dueFor (some 0)).ras.due.any (fun d => d.prt == some 0) = true ∧ hosted.ras.due.any (fun d => d.prt == some 0) = false
      ∧ (dueFor none).ras.due.any (fun d => d.prt == none) = true ∧ hosted.pfOrMgmt host0 = true ∧ hosted.pfOrMgmt (.func 1) = false
      ∧ ((dueFor (some 0)).ctxs.filter (fun e => e.2.st != 0 && e.2.prt == 0)).map (·.1) = [5] ∧ ((dueFor (some 0)).ctx 5).st ≠ 4
      ∧ hosted.flag .RAS_STAT_cycle 0 = false ∧ (withRegs [(.RAS_STAT_cycle, 0, 1)] hosted).flag .RAS_STAT_cycle 0 = true
      ∧ 2 ≤ ([0, 0].filter (fun k => decide (0 - k < 72000000000)) : List Nat).length ∧ (again [0]).ras.chipTimes.length < 2 := by decide +kernel
-- Firmware and management -------------------------------------------------------------------------------------------------------

/-- Management has its address and session 7 over I3C. -/
def mg : Mgmt := ⟨true, false, 0, 7⟩
def managed : State := { hosted with board := { hosted.board with dyn := 9 }, sec := { hosted.sec with spdm := [⟨false, 0, 7, true⟩] } }
def recovery : State := withRegs [(.DEV_STAT_step, 0, 15)] managed

/-- CrashDumps: a dump stored and read, one that captures, copies under way, reads of 1,024 bytes and of more. -/
def dumped (st : Nat) : State := withRegs [(.RAS_DUMP_STAT_state, 0, st)] { managed with ras := { managed.ras with dump := [1#8, 2#8], dumpRead := false } }
def capture : Capture := ⟨4, 0, 0, 0, [], [], [(1, 0)]⟩
def capturing : State := withRegs [(.RAS_STAT_dump, 0, 1)] { hosted with ras := { hosted.ras with cap := some capture } }
theorem test_CrashDumps_met :
    host0.ok = true ∧ (dumped 2).pfOrMgmt host0 = true ∧ (dumped 2).pfOrMgmt (.func 1) = false ∧ (dumped 2).rd .RAS_DUMP_STAT_state 0 = 2
      ∧ (dumped 3).rd .RAS_DUMP_STAT_state 0 = 3 ∧ (dumped 2).flag .RAS_STAT_dump 0 = false ∧ capturing.flag .RAS_STAT_dump 0 = true
      ∧ (dumped 2).ras.dump ≠ [] ∧ (dumped 2).ras.dumpRead = false ∧ ({ (dumped 2).ras with dumpRead := true } : Ras).dumpRead = true
      ∧ capturing.ras.cap = some capture ∧ hosted.ras.cap = none ∧ (1, 0) ∈ capture.marked ∧ (2, 31) ∉ capture.marked
      ∧ (hosted.func 0).d3 = false ∧ hosted.flag .DSP_DLOG_CTRL_en 0 = false
      ∧ managed.mgmtUp = true ∧ hosted.mgmtUp = false ∧ mg.overDoe = false ∧ managed.recovering = false ∧ recovery.recovering = true := by decide +kernel
theorem test_CrashDumps_unit_met : (capturing.dumpRecs capture).any (fun r => r.unit == (2, 31)) = true := by decide +kernel

/-- FirmwareAndLease: the firmware up and down, a queue with room and full, cores with and without a standby, updates of each kind, a
runtime that may be activated, a lease held and free, in orphan mode and not. -/
def served_ (up wq : Nat) : State :=
  withRegs [(.EMU_HW_STAT_fw_up, 0, up), (.EMU_ORPHAN_orphan, 0, 0), (.EMU_LEASE_HOLDER_holder, 0, 5), (.EMU_IFLEVEL_hil, 0, 1)]
    { managed with
      fw := { managed.fw with wq := List.replicate wq (0x100, 0), standby := some 3, lastCmd := some 4, leaseAt := 9 }, flash := { managed.flash with pendR := true } }
theorem test_FirmwareAndLease_met :
    (served_ 1 0).emuOf 0 = true ∧ hosted.emuOf 1 = true ∧ (withRegs [(.DEV_STAT_step, 0, 6)] hosted).emuOf 1 = false
      ∧ emulated 0x100 = true ∧ emulated 0xFF = false ∧ (served_ 1 0).flag .EMU_HW_STAT_fw_up 0 = true ∧ (served_ 0 0).flag .EMU_HW_STAT_fw_up 0 = false
      ∧ recovery.recovering = true ∧ (served_ 1 0).recovering = false ∧ (served_ 0 63).fw.wq.length < 64 ∧ 64 ≤ (served_ 0 64).fw.wq.length
      ∧ (served_ 1 0).fw.lastCmd = some 4 ∧ (served_ 1 0).fw.crashed = [] ∧ (served_ 1 0).fw.standby = some 3
      ∧ ({ (served_ 1 0).fw with standby := none } : Fw).standby = none
      ∧ (served_ 1 0).mgmtUp = true ∧ (served_ 1 0).inSession mg = true ∧ (served_ 1 0).inSession { mg with secured := false } = false
      ∧ (served_ 1 0).updateOffered = true ∧ (withRegs [(.SEC_STAT_tamper_run, 0, 1)] (served_ 1 0)).updateOffered = false
      ∧ (served_ 1 0).flash.pendR = true
      ∧ imgHil ((served_ 1 0).flash.runtimeAt (1 - (served_ 1 0).flash.actR)) / 256 = (served_ 1 0).rd .EMU_IFLEVEL_hil 0 / 256
      ∧ imgHil ((served_ 1 0).flash.runtimeAt (1 - (served_ 1 0).flash.actR)) / 256 ≠ (withRegs [(.EMU_IFLEVEL_hil, 0, 0x100)] (served_ 1 0)).rd .EMU_IFLEVEL_hil 0 / 256
      ∧ 0 ∉ (served_ 1 0).fw.crashed
      ∧ (served_ 1 0).leaseUp = true ∧ State.reset.leaseUp = false ∧ (served_ 1 0).rd .EMU_LEASE_HOLDER_holder 0 = 5
      ∧ (served_ 1 0).flag .EMU_ORPHAN_orphan 0 = false ∧ managed.flag .EMU_ORPHAN_orphan 0 = true ∧ managed.hostStop = true
      ∧ (served_ 1 0).fw.leaseAt ≠ (served_ 1 0).clocks.get 0 11 ∧ ((served_ 1 0).part 0).owner = 0 ∧ ((served_ 1 0).part 0).defined = true := by decide +kernel

-- Security ----------------------------------------------------------------------------------------------------------------------

/-- LifeCycleAndKeys: a transition of the table from each state, no record left, one that runs; key slots staged and not; slots that retire and
that wait; a generator that is due and one that fails; tamper. -/
def fuses (l : List (Nat × Nat)) : State := { managed with sec := { managed.sec with records := l } }
def staged_ (slot : Nat) : State := { managed with sec := { managed.sec with keys := { (managed.sec.keys.stage slot (some 9)) with owner := some 5 } } }
theorem test_LifeCycleAndKeys_met :
    managed.spdmUp mg = true ∧ hosted.spdmUp mg = false ∧ managed.inSession mg = true ∧ managed.inSession { mg with sess := 8 } = false
      ∧ managed.sec.goal = none ∧ managed.rd .SVY_STAT_phase 0 = 0
      ∧ (fuses []).sec.lc = 0 ∧ (fuses []).sec.mayGo 1 true = true ∧ (fuses []).sec.roomFor 1 = true ∧ (fuses []).sec.mayGo 2 true = false
      ∧ (fuses [(1, 0)]).sec.lc = 1 ∧ (∀ n ∈ [2, 3, 4], (fuses [(1, 0)]).sec.mayGo n true = true)
      ∧ (fuses [(1, 0), (2, 1)]).sec.lc = 2 ∧ (∀ n ∈ [1, 3, 4], (fuses [(1, 0), (2, 1)]).sec.mayGo n true = true)
      ∧ (fuses [(1, 0), (3, 1)]).sec.lc = 3 ∧ (fuses [(1, 0), (3, 1)]).sec.mayGo 1 false = true ∧ (fuses [(1, 0), (4, 1)]).sec.lc = 4
      ∧ (fuses (List.replicate 63 (1, 0))).sec.roomFor 2 = false
      ∧ managed.sec.keys.owner = none ∧ (∀ n < 5, (staged_ n).sec.keys.shadow n ≠ none) ∧ managed.sec.keys.shadow 4 = none
      ∧ managed.sec.keys.fw.length = 4 ∧ managed.sec.keys.fwSh.length = 4
      ∧ (let t := { managed with slots := [(0, { KeySlot.free with st := 2 }), (4095, { KeySlot.free with st := 3 })] }
         (t.slot 0).st = 2 ∧ (t.slot 4095).st = 3 ∧ (t.slot 1).st ≠ 2 ∧ (t.slot 1).st ≠ 3)
      ∧ 2 ^ 20 ≤ ({ managed.sec with drbg := 2 ^ 20 } : Sec).drbg ∧ managed.sec.drbg < 2 ^ 20 ∧ managed.flag .SEC_STAT_drbg_err 0 = false
      ∧ (withRegs [(.SEC_STAT_drbg_err, 0, 1)] managed).flag .SEC_STAT_drbg_err 0 = true
      ∧ State.reset.rd .DEV_STAT_step 0 < 5 ∧ 5 ≤ managed.rd .DEV_STAT_step 0 ∧ managed.flag .SEC_STAT_tamper_run 0 = false := by decide +kernel

/-- SpdmRequests: each stage of the negotiation, blocks that are and are not, sessions open, waiting for FINISH, and four of them. -/
def negotiated (n : Nat) : State := { managed with sec := { managed.sec with conns := [(connKey mg, n)] } }
theorem test_SpdmRequests_met :
    (∀ n ∈ [0, 1, 3, 7], (negotiated n).conn mg = n) ∧ (managed.measBlock 0x2F).isSome = true ∧ (managed.measBlock 5).isSome = true
      ∧ managed.measBlock 0x30 = none ∧ (negotiated 7).flag .SEC_STAT_drbg_err 0 = false
      ∧ ((negotiated 7).sec.spdm.filter (fun x => x.doe == mg.overDoe)).length < 4
      ∧ 4 ≤ ((List.replicate 4 (⟨false, 0, 7, true⟩ : Spdm)).filter (fun x => x.doe == mg.overDoe)).length
      ∧ ([⟨false, 0, 7, false⟩] : List Spdm).any (fun x => x.named mg && !x.live) = true
      ∧ managed.sec.spdm.any (fun x => x.named mg && !x.live) = false := by decide +kernel

/-- DeviceInterfaces: a function of confidential partitions and one of another; interfaces in each state; key slots free and none. -/
def tdi (st : Nat) : State := withRegs [(.PRT_CTRL_conf, 0, 1), (.PRT_STAT_state, 0, 2), (.SEC_TDI_state, 1, st), (.SEC_TDI_prt, 1, 2 ^ 5)] managed
theorem test_DeviceInterfaces_met :
    (tdi 0).spdmUp mg = true ∧ (tdi 0).inSession mg = true ∧ (tdi 0).rd .SEC_TDI_state 1 = 0 ∧ (tdi 1).rd .SEC_TDI_state 1 = 1
      ∧ (∀ p ∈ (tdi 0).servedBy 1, (tdi 0).confidential p = true) ∧ (tdi 0).servedBy 1 = [0] ∧ ¬ (tdi 0).confidential 1 = true ∧ (tdi 0).servedBy 2 = [1]
      ∧ (∀ e ∈ (tdi 1).ctxs, ((tdi 1).rd .SEC_TDI_prt 1).testBit e.2.prt = false) ∧ (tdi 0).freeSlot .ide = some 64 := by decide +kernel
def ideFull : State := { tdi 0 with slots := (List.range 128).map (fun k => (64 + k, { KeySlot.free with st := 1 })) }
theorem test_DeviceInterfaces_full_met : ideFull.freeSlot .ide = none := by decide +kernel

/-- Management: a part that answers and one that does not, in and out of recovery, in and out of a session; a Survey buffer open and shut; phases. -/
def opened : State :=
  withRegs [(.DEV_STAT_ready, 0, 1)] { managed with svy := { managed.svy with bufOpen := true, bufLen := 328, buf := delta }, sec := { managed.sec with keys := { managed.sec.keys with owner := some ownerKey } } }
theorem test_Management_met :
    managed.mgmtUp = true ∧ hosted.mgmtUp = false ∧ mg.overDoe = false ∧ recovery.mgmtUp = true ∧ recovery.recovering = true
      ∧ managed.inSession mg = true ∧ 3 ∉ managed.pldmTypes ∧ 4 ∈ managed.pldmTypes ∧ 0x3F ∉ recovery.pldmTypes ∧ (dumped 2).ras.dump ≠ []
      ∧ opened.svy.bufOpen = true ∧ managed.svy.bufOpen = false ∧ opened.svyFree = true ∧ managed.svyFree = false
      ∧ (1024 : Nat) ≤ 1024 ∧ 320 + ([0#8, 0#8, 0#8, 0#8, 0#8, 0#8, 0#8, 0#8] : List Byte).length ≤ opened.svy.bufLen
      ∧ (withRegs [(.SVY_STAT_phase, 0, 4)] managed).rd .SVY_STAT_phase 0 = 4 ∧ (withRegs [(.SVY_STAT_phase, 0, 4)] managed).abortable = true
      ∧ managed.abortable = false ∧ managed.flag .RAS_STAT_cycle 0 = false ∧ (managed.part 0).defined = true ∧ (managed.part 31).defined = false := by
  decide +kernel
theorem test_Management_survey_met :
    (match opened.svyRead opened.buffered with | .ok _ => true | .error _ => false) = true
      ∧ (match { opened with svy := { opened.svy with buf := [] } }.svyRead { opened with svy := { opened.svy with buf := [] } }.buffered with
        | .ok _ => false
        | .error _ => true) = true := by decide +kernel

/-- Board: a part in reset, one that runs and one that has stopped; ready and not; PERST_N and the link in each state. -/
theorem test_Board_met :
    State.reset.rd .DEV_STAT_step 0 = 1 ∧ State.reset.pwr.stop = 0 ∧ managed.rd .DEV_STAT_step 0 ≠ 1
      ∧ ({ managed with pwr := { managed.pwr with stop := 2 } } : State).pwr.stop ≠ 0 ∧ opened.flag .DEV_STAT_ready 0 = true
      ∧ managed.flag .DEV_STAT_ready 0 = false ∧ managed.board.perst = true ∧ ({ managed.board with perst := false } : Board).perst = false
      ∧ managed.board.pcie = true ∧ State.reset.board.pcie = false ∧ 5 ≤ managed.rd .DEV_STAT_step 0 ∧ State.reset.rd .DEV_STAT_step 0 < 5 := by decide +kernel

-- The whole machine -------------------------------------------------------------------------------------------------------------

/-- StoppedPartStaysStopped: a part that the thermal trip has stopped, with commands that wait. -/
def stopped : State := { managed with pwr := { managed.pwr with stop := 2 }, pending := [.descriptorStart 1] }
theorem test_StoppedPartStaysStopped_met :
    2 ≤ stopped.pwr.stop ∧ (∀ c ∈ stopped.pending, (∀ b, c ≠ .powerGood b) ∧ c ≠ .railDropBeforeReady ∧ c ≠ .railOutOfRange)
      ∧ (Instr.descriptorStart 1).wf = true ∧ (match step stopped with | .next _ => true | _ => false) = true := by
  refine ⟨by decide, ?_, by decide, by decide +kernel⟩
  intro c hc
  simp only [stopped, List.mem_singleton] at hc
  subst hc
  exact ⟨fun b h => Instr.noConfusion h, fun h => Instr.noConfusion h, fun h => Instr.noConfusion h⟩

/-- SlotWords: the words of the three instructions and the words that carry nothing. -/
theorem test_SlotWords_met :
    (Instr.addi 31 ⟨.s1, if1, 63, 63, -0x200⟩).wf = true ∧ (encodeSlot (.addi 31 ⟨.s1, if1, 63, 63, -0x200⟩)).isSome = true
      ∧ encodeSlot (.addi 0 ⟨.s0, always, 3, 3, 1⟩) = some (.s0, 0x000004031A00)
      ∧ encodeSlot (.vfma 0 ⟨⟨2, false⟩, 5, 1, 2, 5, 0, 0, 0, 0⟩) = some (.v, 0x0000A1022882)
      ∧ encodeSlot (.vld 0 ⟨always, 1, 4, 2048⟩) = some (.m, 0x000200080820)
      ∧ (decodeSlot 31 .m 0x000200080820).isSome = true := by decide +kernel

theorem test_MemoryLaws_met : Memory.wf [(3, 1#8), (9, 2#8)] = true ∧ Memory.wf [] = true := by decide

/-- RegisterWrites: a register of each access code that may be written, a sealed partition's, and one that may not. -/
theorem test_RegisterWrites_met :
    hosted.mayWrite host0 .SVY_CTRL 0 = true ∧ hosted.mayWrite (.func 1) .SVY_CTRL 0 = false ∧ hosted.mayWrite host0 .RAS_RESET 0 = true
      ∧ hosted.mayWrite host0 .RAS_DUMP_CTRL 0 = true ∧ hosted.mayWrite host0 .TRC_SNAPSHOT 0 = true ∧ hosted.rd .RAS_RESET_prt 0 < 32
      ∧ Fld.SVY_SRC_addr.desc.acc = .rw ∧ hosted.mayWrite host0 Fld.SVY_SRC_addr.desc.reg 0 = true
      ∧ Fld.PRT_STAT_state.desc.acc = .ro
      ∧ (withRegs [(.PRT_STAT_state, 0, 2)] hosted).sealedPrt ((withRegs [(.PRT_STAT_state, 0, 2)] hosted).lockPrt .GAL_ENG_RING 0) = true
      ∧ hosted.sealedPrt (hosted.lockPrt .GAL_ENG_RING 0) = false ∧ Fld.RAS_RESET_prt_go.desc.reg.place.count = 1 := by decide +kernel

-- Ill-formed commands -----------------------------------------------------------------------------------------------------------

/-- One command for each unit that the part has not and each immediate that its field does not hold. -/
theorem test_illFormed :
    ∀ c ∈ [Instr.sub 32 ⟨.s0, always, 0, 0, 0⟩, .addi 0 ⟨.s0, always, 0, 0, 0x200000⟩, .addi 0 ⟨.s1, always, 0, 0, -0x2001⟩,
        .cmpeqi 0 ⟨.s1, always, 0, 0, 0x2000⟩, .br 0 ⟨always, 0, 0x200000⟩, .vld 0 ⟨always, 0, 0, 0x2000000⟩, .sld 0 ⟨always, 0, 0, -0x2000001⟩,
        .padd64 0 ⟨always, 0, 0, 0, 0x100000⟩, .registerWrite (.func 128) .DEV_STAT_step 0 0, .registerWrite .mgmt .DEV_STAT_step 1 0,
        .readyReport 0 32, .humEnd 0 64, .engineNop 0 9, .copy 32 6, .hbmRead ⟨32, 0, 1, 0, 0, 0, false, false⟩,
        .parityWrite 256 0, .channelLoss true 12, .channelLoss false 256, .zeroFillDone true 3072, .zeroFillDone false 32, .controlLineRead 0 0 8192,
        .seqCreate .mgmt 32, .ctxQuery 128 (args 0 0 0), .functionLevelReset 128], c.wf = false := by decide
theorem test_illFormed_links_and_board :
    (∀ n, Instr.wf (.laneLoss 0 (n + 4)) = false) ∧ Instr.wf (.refclkLoss 4) = false ∧ Instr.wf (.voltageReport 2) = false
      ∧ Instr.wf (.phaseWindow 0 64 0) = false ∧ Instr.wf (.thermalSample []) = false ∧ Instr.wf (.escalation 1 0) = false
      ∧ Instr.wf (.escalation 2 9) = false ∧ Instr.wf (.escalation 3 32) = false ∧ Instr.wf (.coreCrash 4) = false ∧ Instr.wf (.slotFree 4096) = false := by
  refine ⟨fun n => ?_, by decide, by decide, by decide, by decide, by decide, by decide, by decide, by decide, by decide⟩
  simp [Instr.wf]
theorem test_illFormed_refused : exec (.nop 32 .s0 always) State.reset = .refused .illFormed
    ∧ exec (.engineNop 0 9) State.reset = .refused .illFormed ∧ exec (.coreCrash 4) State.reset = .refused .illFormed := by
  refine ⟨by rfl, by rfl, by rfl⟩

/-- The command words of this part have no bits in the table. -/
theorem test_decodeTableWord : decodeTableWord 16 0x1234 = none ∧ (State.reset.withFetchWord 16 0x1234).pending = [] := by decide

-- The worked examples of the spec ------------------------------------------------------------------------------------------------

/-- 05_fixed_function_engines, *RMSNORM*: the row (3, 4, 0, 0) with γ of ones and an eps of +0. -/
theorem test_rmsnorm_example :
    rmsRow 0 [0x40400000, 0x40800000, 0, 0] [0x3F800000, 0x3F800000, 0x3F800000, 0x3F800000] = [0x3F99999A, 0x3FCCCCCD, 0, 0] := by decide +kernel
/-- 06_gallery_pools: the output tile at 0x0132_0000, with and without geode banks, and the geode offset 0x01F4_1080. -/
theorem test_pool_example :
    (device.bankOf 0 0x1320000, device.rowOf 0 0x1320000) = (0, 2448) ∧ (geode.bankOf 0 0x1320000, geode.rowOf 0 0x1320000) = (12, 2611)
      ∧ (geode.bankOf 0 0x1F41080, geode.rowOf 0 0x1F41080) = (62, 2081) := by decide +kernel
/-- 07_external_memory: a partition of slices 8 to 11 with parity groups and 4 KiB granules; PPA 0x1_2345_6780. -/
theorem test_hbm_example :
    ({ part0 with slices := [8, 9, 10, 11], order := [8, 9, 10, 11], parity := true, gran64 := false }.hbmLoc [8, 9, 10, 11] 0x123456780)
      = ⟨89, 2726942⟩ := by decide +kernel

end Sys2Proof.Tests
end

section
/-! SUPPORT. When the results in flight of a gallery arrive (R82), and O5. -/

namespace Sys2Proof.Machine

-- What leaves the galleries as they are ---------------------------------------------------------------------------------

@[simp] theorem State.raise_gal (s : State) (f v g : Nat) : (s.raise f v).gal g = s.gal g := by
  unfold State.raise
  split <;> rfl

@[simp] theorem State.galIrq_gal (s : State) (g g' : Nat) : (s.galIrq g).gal g' = s.gal g' := s.raise_gal _ _ _

@[simp] theorem State.count_gal (s : State) (cnt ovf : Fld) (i n g : Nat) : (s.count cnt ovf i n).gal g = s.gal g := by
  unfold State.count
  dsimp only
  split <;> rfl

@[simp] theorem State.galCount_gal (s : State) (cnt ovf ie : Fld) (g n g' : Nat) : (s.galCount cnt ovf ie g n).gal g' = s.gal g' := by
  unfold State.galCount
  dsimp only
  split <;> simp

@[simp] theorem State.orNumFlags_gal (s : State) (g v g' : Nat) : (s.orNumFlags g v).gal g' = s.gal g' := by
  unfold State.orNumFlags
  split <;> rfl

-- The gallery after an issue --------------------------------------------------------------------------------------------

@[simp] theorem State.pendRes_gal (s : State) (g sl lat fl : Nat) (r : Result) :
    (s.pendRes g sl lat fl r).gal g = { s.gal g with pend := (s.gal g).pend ++ [⟨(s.gal g).lcycle + lat, sl, r, fl⟩] } := by
  simp [State.pendRes]

/-- Program flow moves the PC, the loop stack and the delay alone: what the registers hold and what is in flight stands. -/
theorem Gal.flow_frame (x : Gal) :
    x.flow.s = x.s ∧ x.flow.a = x.a ∧ x.flow.p = x.p ∧ x.flow.pend = x.pend ∧ x.flow.lcycle = x.lcycle := by
  unfold Gal.flow
  split
  · split <;> exact ⟨rfl, rfl, rfl, rfl, rfl⟩
  · exact ⟨rfl, rfl, rfl, rfl, rfl⟩

/-- The end of an issue counts a local cycle; what the registers hold and what is in flight stands. -/
theorem State.advance_frame (s : State) (g pc : Nat) :
    ((s.advance g pc).gal g).s = (s.gal g).s ∧ ((s.advance g pc).gal g).a = (s.gal g).a ∧ ((s.advance g pc).gal g).p = (s.gal g).p
      ∧ ((s.advance g pc).gal g).pend = (s.gal g).pend ∧ ((s.advance g pc).gal g).lcycle = (s.gal g).lcycle + 1 := by
  simp [State.advance, State.issueCycle, Gal.flow_frame]

-- Delivery --------------------------------------------------------------------------------------------------------------

theorem mem_insertPend {q r : Pending} {l : List Pending} : q ∈ insertPend r l ↔ q = r ∨ q ∈ l := by
  induction l with
  | nil => simp [insertPend]
  | cons p t ih =>
    unfold insertPend
    split
    · simp
    · simp only [List.mem_cons, ih]
      tauto

theorem mem_foldl_insertPend {q : Pending} {l acc : List Pending} (h : q ∈ l.foldl (fun l r => insertPend r l) acc) :
    q ∈ l ∨ q ∈ acc := by
  induction l generalizing acc with
  | nil => exact .inr h
  | cons r t ih =>
    rcases ih h with h | h
    · exact .inl (List.mem_cons_of_mem _ h)
    · rcases mem_insertPend.1 h with rfl | h
      · exact .inl List.mem_cons_self
      · exact .inr h

/-- The results of a gallery that are due, in the order of their delivery. -/
def Gal.arriving (x : Gal) : List Pending :=
  (x.pend.filter (fun r => decide (r.due ≤ x.lcycle))).foldl (fun l r => insertPend r l) []

/-- The result queued last takes its place among the earlier ones that are due, if it is due itself. -/
theorem Gal.arriving_of_pend_append {x : Gal} {l : List Pending} {e : Pending} (hp : x.pend = l ++ [e]) :
    ∃ m : List Pending, (∀ q ∈ m, q ∈ l) ∧ x.arriving = if e.due ≤ x.lcycle then insertPend e m else m := by
  refine ⟨(l.filter (fun r => decide (r.due ≤ x.lcycle))).foldl (fun l r => insertPend r l) [], fun q hq => ?_, ?_⟩
  · exact List.mem_of_mem_filter ((mem_foldl_insertPend hq).resolve_right List.not_mem_nil)
  · rw [Gal.arriving, hp, List.filter_append, List.foldl_append, List.filter_singleton]
    split <;> simp [*]

/-- Delivery takes results out of flight and then writes those that are due, in order. -/
theorem State.deliver_eq_deliverGo (s : State) {g : Nat} (h : (s.gal g).pend ≠ []) :
    ∃ kept, s.deliver g = (s.setGal g { s.gal g with pend := kept }).deliverGo g (s.gal g).arriving [] :=
  ⟨_, by simp only [State.deliver, State.deliverTo, List.isEmpty_iff, if_neg h]; rfl⟩

/-- The delivery of one result: its register is written, or the result is lost to an earlier one for the same register. -/
theorem State.deliverGo_cons (s : State) (g : Nat) (r : Pending) (l : List Pending) (seen : List (Nat × Nat × Nat)) :
    ∃ t : State, s.deliverGo g (r :: l) seen = t.deliverGo g l ((r.due, r.res.target, r.slot) :: seen)
      ∧ (t.gal g = (s.gal g).write r.res ∨ r.res.target ∈ seen.map (·.2.1) ∧ t.gal g = s.gal g) := by
  refine ⟨_, rfl, ?_⟩
  split
  next => exact .inl (by simp)
  next hit =>
    have hseen : r.res.target ∈ seen.map (·.2.1) := by
      have hp := List.find?_some hit
      simp only [Bool.and_eq_true, beq_iff_eq] at hp
      exact List.mem_map.2 ⟨_, List.mem_of_find?_eq_some hit, hp.1.2⟩
    simp only [apply_ite (fun t : State => t.gal g), State.modGal_eq, State.gal_setGal, State.ticked_gal_same, State.galIrq_gal,
      State.wr_gal_same, State.orNumFlags_gal, ite_self, ↓reduceIte]
    generalize Config.sameSlotKeepsLater _ = keepsLater
    split
    · split
      · exact .inl rfl
      · exact .inr ⟨hseen, rfl⟩
    · exact .inl rfl

/-- A part of a gallery that of all results only those for one target change, and that neither the results in flight nor the
local cycle are part of. -/
structure ReadsTarget {β : Type} (f : Gal → β) (tgt : Nat) : Prop where
  write_other : ∀ x res, Result.target res ≠ tgt → f (x.write res) = f x
  frame : ∀ x l c, f { x with pend := l, lcycle := c } = f x

section
variable {β : Type} {f : Gal → β} {b : β} {g : Nat}

theorem ReadsTarget.deliverGo_other {tgt : Nat} (hf : ReadsTarget f tgt) {l : List Pending} (hl : ∀ q ∈ l, q.res.target ≠ tgt)
    (s : State) (seen : List (Nat × Nat × Nat)) : f ((s.deliverGo g l seen).gal g) = f (s.gal g) := by
  induction l generalizing s seen with
  | nil => rfl
  | cons r l ih =>
    obtain ⟨hr, hl⟩ := List.forall_mem_cons.1 hl
    obtain ⟨t, hgo, ht⟩ := s.deliverGo_cons g r l seen
    rw [hgo, ih hl]
    rcases ht with ht | ⟨-, ht⟩
    · rw [ht, hf.write_other _ _ hr]
    · rw [ht]

theorem ReadsTarget.deliverGo_head {e : Pending} (hf : ReadsTarget f e.res.target) (hb : ∀ x : Gal, f (x.write e.res) = b)
    {l : List Pending} (hl : ∀ q ∈ l, q.res.target ≠ e.res.target) (s : State) {seen : List (Nat × Nat × Nat)}
    (hseen : e.res.target ∉ seen.map (·.2.1)) : f ((s.deliverGo g (e :: l) seen).gal g) = b := by
  obtain ⟨t, hgo, ht⟩ := s.deliverGo_cons g e l seen
  rw [hgo, hf.deliverGo_other hl, ht.resolve_right fun h => hseen h.1, hb]

/-- A result that is the only one for its register arrives, wherever it stands among the results delivered with it. -/
theorem ReadsTarget.deliverGo_insertPend {e : Pending} (hf : ReadsTarget f e.res.target) (hb : ∀ x : Gal, f (x.write e.res) = b)
    {l : List Pending} (hl : ∀ q ∈ l, q.res.target ≠ e.res.target) (s : State) {seen : List (Nat × Nat × Nat)}
    (hseen : e.res.target ∉ seen.map (·.2.1)) : f ((s.deliverGo g (insertPend e l) seen).gal g) = b := by
  induction l generalizing s seen with
  | nil => exact hf.deliverGo_head hb hl s hseen
  | cons q l ih =>
    unfold insertPend
    split
    · exact hf.deliverGo_head hb hl s hseen
    · obtain ⟨hq, hl⟩ := List.forall_mem_cons.1 hl
      obtain ⟨t, hgo, -⟩ := s.deliverGo_cons g q (insertPend e l) seen
      rw [hgo]
      refine ih hl t ?_
      rw [List.map_cons, List.mem_cons, not_or]
      exact ⟨hq.symm, hseen⟩

/-- A result that is the only one in flight for its register stands there exactly when it is due (R82). -/
theorem ReadsTarget.deliver {s : State} {e : Pending} (hf : ReadsTarget f e.res.target) (hb : ∀ x : Gal, f (x.write e.res) = b)
    {l : List Pending} (hp : (s.gal g).pend = l ++ [e]) (hl : ∀ q ∈ l, q.res.target ≠ e.res.target) :
    f ((s.deliver g).gal g) = if e.due ≤ (s.gal g).lcycle then b else f (s.gal g) := by
  obtain ⟨m, hm, harr⟩ := Gal.arriving_of_pend_append hp
  obtain ⟨kept, hd⟩ := s.deliver_eq_deliverGo (g := g) (by simp [hp])
  have hm' : ∀ q ∈ m, q.res.target ≠ e.res.target := fun q hq => hl q (hm q hq)
  rw [hd, harr]
  split
  · exact hf.deliverGo_insertPend hb hm' _ List.not_mem_nil
  · rw [hf.deliverGo_other hm', State.gal_setGal, if_pos rfl]
    exact hf.frame (s.gal g) kept _

/-- What an operation leaves is read lat local cycles after its issue, and its register's previous value before (R82). -/
theorem ReadsTarget.deliver_pendRes {r : Result} (hf : ReadsTarget f r.target) (hb : ∀ x : Gal, f (x.write r) = b)
    (s : State) (sl lat fl k : Nat) (hl : ∀ e ∈ (s.gal g).pend, e.res.target ≠ r.target) :
    f ((((s.pendRes g sl lat fl r).modGal g (fun x => { x with lcycle := x.lcycle + k })).deliver g).gal g)
      = if lat ≤ k then b else f (s.gal g) := by
  rw [hf.deliver (e := ⟨(s.gal g).lcycle + lat, sl, r, fl⟩) hb (by simp) hl]
  simp [hf.frame]

end

-- The register files ----------------------------------------------------------------------------------------------------

theorem Gal.write_p_frame (x : Gal) (d : Nat) (c : Bool) :
    (x.write (.p d c)).s = x.s ∧ (x.write (.p d c)).a = x.a ∧ (x.write (.p d c)).v = x.v := by
  simp only [Gal.write]
  split <;> exact ⟨rfl, rfl, rfl⟩

theorem readsTarget_s (n : Nat) : ReadsTarget (fun x => x.s.get 0 n) n where
  write_other x res h := by
    cases res with
    | s d v => exact Tab.get_set_ne _ _ _ (Ne.symm h)
    | p d c => exact congrArg (Tab.get 0 · n) (x.write_p_frame d c).1
    | _ => rfl
  frame _ _ _ := rfl

theorem readsTarget_a (n : Nat) : ReadsTarget (fun x => x.a.get 0 n) (64 + n) where
  write_other x res h := by
    cases res with
    | a d v => exact Tab.get_set_ne _ _ _ (by simp only [Result.target] at h; omega)
    | p d c => exact congrArg (Tab.get 0 · n) (x.write_p_frame d c).2.1
    | _ => rfl
  frame _ _ _ := rfl

theorem readsTarget_p (n : Nat) : ReadsTarget (fun x => n == 0 || x.p.get false n) (128 + n) where
  write_other x res h := by
    cases res with
    | p d c =>
      simp only [Gal.write]
      split
      · rfl
      · exact congrArg (n == 0 || ·) (Tab.get_set_ne _ _ _ (by simp only [Result.target] at h; omega))
    | _ => rfl
  frame _ _ _ := rfl

theorem Tab_getMany_setMany_ne {α : Type} [DecidableEq α] (d : α) (t : Tab α) (l : List α) {k x n : Nat}
    (h : x + n ≤ k ∨ k + l.length ≤ x) : (t.setMany d k l).getMany d x n = t.getMany d x n := by
  rw [Tab_getMany_eq, Tab_getMany_eq]
  refine List.map_congr_left fun i hi => ?_
  rw [List.mem_range] at hi
  rw [Tab_setMany_get, dif_neg (by omega)]

theorem Tab_getMany_setMany_self {α : Type} [DecidableEq α] (d : α) (t : Tab α) (l : List α) (k : Nat) :
    (t.setMany d k l).getMany d k l.length = l := by
  rw [Tab_getMany_eq]
  refine List.ext_getElem (by simp) fun i h _ => ?_
  simp only [List.length_map, List.length_range] at h
  simp [Tab_setMany_get, h]

theorem readsTarget_v (n : Nat) : ReadsTarget (fun x => x.v.getMany 0 (4 * n) 4) (256 + n) where
  write_other x res h := by
    cases res with
    | v d => exact Tab_getMany_setMany_ne _ _ _ (by simp [Result.target] at h ⊢; omega)
    | vq d => exact Tab_getMany_setMany_ne _ _ _ (by simp [Result.target] at h ⊢; omega)
    | p d c => exact congrArg (Tab.getMany 0 · (4 * n) 4) (x.write_p_frame d c).2.2
    | _ => rfl
  frame _ _ _ := rfl

-- O5 --------------------------------------------------------------------------------------------------------------------

/-- A result of latency 1 that is the only one in flight stands in its register when the next bundle issues. -/
theorem State.next_deliver_gal (s : State) {d : State} {g : Nat} (sl : Nat) (r : Result) (h : (d.gal g).pend = []) :
    ∃ x : Gal, ((s.bundleDone g (d.pendRes g sl 1 0 r)).deliver g).gal g = x.write r
      ∧ x.s = (d.gal g).s ∧ x.a = (d.gal g).a ∧ x.p = (d.gal g).p := by
  obtain ⟨hs, ha, hp, hpend, hlcycle⟩ := (d.pendRes g sl 1 0 r).advance_frame g ((s.deliver g).gal g).pc
  simp only [State.pendRes_gal, h, List.nil_append] at hs ha hp hpend hlcycle
  change ∃ x : Gal, (((d.pendRes g sl 1 0 r).advance g ((s.deliver g).gal g).pc).deliver g).gal g = x.write r ∧ _
  generalize (d.pendRes g sl 1 0 r).advance g ((s.deliver g).gal g).pc = t at hs ha hp hpend hlcycle ⊢
  obtain ⟨kept, hd⟩ := t.deliver_eq_deliverGo (g := g) (by simp [hpend])
  have harr : (t.gal g).arriving = [⟨(d.gal g).lcycle + 1, sl, r, 0⟩] := by simp [Gal.arriving, hpend, hlcycle, insertPend]
  exact ⟨{ t.gal g with pend := kept }, by simp [hd, harr, State.deliverGo], hs, ha, hp⟩

/-- Settles O5: a result alone in flight for its register is written by the delivery at which it is due, and by no earlier one. -/
theorem resultsArrive : Obligations.ResultsArrive := by
  refine ⟨fun s g p sl _ hp => ⟨fun r v n => ?_, fun r v n => ?_, fun r v n => ?_⟩, fun s g sl lat fl k => ?_⟩
  · obtain ⟨x, hx, hs, -⟩ := s.next_deliver_gal sl (.s r v) hp
    simp [State.sreg, hx, Gal.write, Tab.get_set, hs]
  · obtain ⟨x, hx, -, ha, -⟩ := s.next_deliver_gal sl (.a r v) hp
    simp [State.areg, hx, Gal.write, Tab.get_set, ha]
  · obtain ⟨x, hx, -, -, hps⟩ := s.next_deliver_gal sl (.p r v) hp
    simp only [State.preg, hx, Gal.write]
    split
    next hr => simp +contextual [hps, hr]
    next => by_cases hn : n = 0 <;> simp [Tab.get_set, hps, beq_eq_decide, hn]
  · refine ⟨fun r v h => ?_, fun r v h => ?_, fun r v h0 h => ?_, fun r c0 c1 c2 c3 h => ?_⟩
    · exact (readsTarget_s r).deliver_pendRes (r := .s r v) (fun x => Tab.get_set_self _ _ _ _) s sl lat fl k h
    · exact (readsTarget_a r).deliver_pendRes (r := .a r v) (fun x => Tab.get_set_self _ _ _ _) s sl lat fl k h
    · exact (readsTarget_p r).deliver_pendRes (r := .p r v) (fun x => by simp [Gal.write, h0]) s sl lat fl k h
    · exact (readsTarget_v r).deliver_pendRes (r := .v r c0 c1 c2 c3) (fun x => Tab_getMany_setMany_self _ _ _ _) s sl lat fl k
        (by simp [h])

end Sys2Proof.Machine
end

section
/-! SUPPORT. CALL and RET outside delay bundles and loops (R91), and O6. -/

namespace Sys2Proof.Machine

/-- The effect of a slot that transfers control is its own outside delay bundles and loops (R90, R92). -/
theorem transfer_free {s : State} {g : Nat} (k : State → SlotRes) (hd : (s.gal g).delay = none) (hl : (s.gal g).loops = []) :
    transfer g k s = k s := by simp [transfer, State.inDelay, hd, hl]

section
variable {s : State} {g : Nat} {o : CT}

theorem slotCall_act_push (hd : (s.gal g).delay = none) (hl : (s.gal g).loops = []) (h : (s.gal g).rets.length < 8) :
    ∃ t : State, (slotCall g o).act s = .ok t none ∧ (t.gal g).rets = ((s.gal g).pc + 128) :: (s.gal g).rets := by
  simp [slotCall, transfer_free _ hd hl, Nat.not_le.2 h, State.branch]

theorem slotCall_act_full (hd : (s.gal g).delay = none) (hl : (s.gal g).loops = []) (h : 8 ≤ (s.gal g).rets.length) :
    (slotCall g o).act s = .plain tCALL_STACK := by
  simp [slotCall, transfer_free _ hd hl, h]

theorem slotRet_act_empty (hd : (s.gal g).delay = none) (hl : (s.gal g).loops = []) (h : (s.gal g).rets = []) :
    (slotRet g o).act s = .plain tCALL_STACK := by
  simp [slotRet, transfer_free _ hd hl, h]

theorem slotRet_act_pop {r : Nat} {rest : List Nat} (hd : (s.gal g).delay = none) (hl : (s.gal g).loops = [])
    (h : (s.gal g).rets = r :: rest) : ∃ t : State, (slotRet g o).act s = .ok t none ∧ (t.gal g).rets = rest := by
  simp [slotRet, transfer_free _ hd hl, h, State.branch]

theorem execCall_issues (ho : o.ok = true) (hi : s.canIssue g o.p) : exec (.call g o) s = .next (s.issueOne g (slotCall g o)) :=
  checked_next _ _ (by simp [Instr.wf, ho, hi.1.1]) hi.1.2.1

theorem execRet_issues (ho : o.ok = true) (hi : s.canIssue g o.p) : exec (.ret g o) s = .next (s.issueOne g (slotRet g o)) :=
  checked_next _ _ (by simp [Instr.wf, ho, hi.1.1]) hi.1.2.1

end

/-- Settles O6: each clause is the issue of one slot, whose act the height of the return stack decides. -/
theorem callStack : Obligations.CallStack := by
  intro s g o ho hx hi d x hd hl
  refine ⟨fun h => ?push, fun h => ?full, fun h0 h => ?empty, fun h0 r rest h => ?pop⟩
  case push =>
    obtain ⟨t, hact, ht⟩ := slotCall_act_push (o := o) hd hl h
    exact ⟨t, by rw [execCall_issues ho hi, issueOne_ok s g _ t none hi (by simp [slotCall, hx]) hact]; rfl, ht⟩
  case full =>
    rw [execCall_issues ho hi, issueOne_trap s g _ _ _ _ hi (by simp [slotCall, hx]) (slotCall_act_full hd hl h)]
    rfl
  case empty =>
    rw [execRet_issues ho hi, issueOne_trap s g _ _ _ _ hi (by simp [slotRet, hx, h0]) (slotRet_act_empty hd hl h)]
    rfl
  case pop =>
    obtain ⟨t, hact, ht⟩ := slotRet_act_pop (o := o) hd hl h
    exact ⟨t, by rw [execRet_issues ho hi, issueOne_ok s g _ t none hi (by simp [slotRet, hx, h0]) hact]; rfl, ht⟩

end Sys2Proof.Machine
end
